-- ==== Sys2Proof/Word.lean ====
section
/-! DEFINITION. The word types of the node: bytes, 32-bit management and lane words, 64-bit timebase stamps. -/

namespace Sys2Proof

/-- A byte. -/
abbrev Byte := BitVec 8

/-- A 32-bit word: a register of the management space (R44), a lane register value (R235). -/
abbrev Word := BitVec 32

/-- A 64-bit timebase stamp (R25), in ticks of 10 ns. -/
abbrev Stamp := BitVec 64

end Sys2Proof
end

