-- ==== Sys2Proof/Types.lean ====
section
/-! DEFINITION. The names and numbers the spec gives the node's agents, units and values: bus masters, terminals,
lanes, quality tags, tagged words and the records and transactions that pass between the blocks. -/

namespace Sys2Proof

/-- Field terminal T0 to T47 (R3, R74). -/
abbrev Term := Fin 48
/-- Field supply group G0 to G5 (R74). -/
abbrev GroupId := Fin 6
/-- Assay converter AC0 to AC7 (R148). -/
abbrev Conv := Fin 8
/-- Stage of a converter: 0 is A, 1 is B (R149). -/
abbrev Stage := Fin 2
/-- Excitation source i: EXCn.a is 2n, EXCn.b is 2n + 1 (R146). -/
abbrev Source := Fin 16
/-- HART modem HM0 to HM3 (R198). -/
abbrev Modem := Fin 4
/-- Supervision converter SC0 to SC3 (R178). -/
abbrev Svc := Fin 4
/-- Lane A, B, C (R227). -/
abbrev LaneId := Fin 3
/-- Lane thread t0 to t127 (R227). -/
abbrev ThreadId := Fin 128
/-- Thread register w0 to w15 (R235). -/
abbrev Reg := Fin 16
/-- Voter V0 to V2 (R338). -/
abbrev VoterId := Fin 3
/-- Trip term 0 to 31 (R362). -/
abbrev TripId := Fin 32
/-- SNX association 0 to 63 (R513). -/
abbrev Assoc := Fin 64
/-- Panel segment 0 to 55 (R468). -/
abbrev Segment := Fin 56
/-- Ethernet port: 0 is N0, 1 is N1 (R499). -/
abbrev EthPort := Fin 2
/-- CAN FD port: 0 is C0, 1 is C1 (R507). -/
abbrev CanPort := Fin 2
/-- Supply input: 0 is VIN_A, 1 is VIN_B (R567). -/
abbrev SupplyInput := Fin 2

/-- The masters of the management bus (R56). -/
inductive Master where
  | tally | lampRoom | hostSpi | snxRemote | updateEngine
  deriving DecidableEq, Repr

/-- The master's ID, 3 to 7 (*Table: Master IDs*). -/
def Master.id : Master → Nat
  | .tally => 3
  | .lampRoom => 4
  | .hostSpi => 5
  | .snxRemote => 6
  | .updateEngine => 7

/-- Who executes a Vupore instruction: a thread of a lane (R229) or the lamp room core (R282). -/
inductive Who where
  | lane (l : LaneId) (t : ThreadId)
  | core
  deriving DecidableEq, Repr

/-- A HART variable a poll read (R205): index, unit code, IEEE 754 value and, with command 9, its status. -/
structure HartVar where
  index : Byte
  unit : Byte
  ieee : BitVec 32
  status : Option Byte
  deriving DecidableEq, Repr

/-- What the lamp room takes from a reply to its poll of loop Tm: the field device status byte and the variables
(R204, R205). -/
structure HartReply where
  loop : Term
  dev : Byte
  vars : List HartVar
  deriving DecidableEq, Repr

/-- The seven time registers of the real-time clock (R459). -/
inductive TimeField where
  | subsec | sec | min | hour | date | month | year
  deriving DecidableEq, Repr

/-- The data set of a PTP master that its Announce messages carry, in the order in which the best master clock algorithm
compares it (R502): priority 1, clock class, accuracy, variance, priority 2, identity, steps removed. -/
structure PtpData where
  prio1 : Byte
  clockClass : Byte
  accuracy : Byte
  variance : BitVec 16
  prio2 : Byte
  ident : BitVec 64
  steps : BitVec 16
  deriving DecidableEq, Repr

/-- What a lane's scrub or checks find (R241): nothing, a corrected error, an uncorrectable one in keep or code memory, or a
parity error of the barrel, a ring or the outbox. -/
inductive ScrubFind where
  | clean | corrected | keepLost | codeLost | parity
  deriving DecidableEq, Repr

/-- The PRP trailer of a received frame (R501): send sequence number and LAN identifier, 0xA or 0xB. -/
structure PrpTrailer where
  seq : BitVec 16
  lan : BitVec 4
  deriving DecidableEq, Repr

/-- The quality tags, best first (R236). -/
inductive Tag where
  | good | uncertain | substituted | bad
  deriving DecidableEq, Repr

/-- The tag's code (R236). -/
def Tag.code : Tag → Nat
  | .good => 0
  | .uncertain => 1
  | .substituted => 2
  | .bad => 3

/-- The tag of a code, of which only the low two bits count. -/
def Tag.ofCode (n : Nat) : Tag :=
  match n % 4 with
  | 0 => .good
  | 1 => .uncertain
  | 2 => .substituted
  | _ => .bad

/-- The worse of two tags (R236). -/
def Tag.worst (a b : Tag) : Tag := if a.code ≤ b.code then b else a

/-- A value with its quality tag (R235). -/
structure TWord where
  val : Word
  tag : Tag
  deriving DecidableEq, Repr

/-- The value 0 with tag GOOD, which w0 reads as (R235). -/
def TWord.zero : TWord := ⟨0, .good⟩

/-- A journal record before it has a SEQ: kind, version, subject, subtype, posting thread, stamp and payload in words,
the payload bytes in ascending order filling each word from its low byte (R405, R408). -/
structure JRec where
  kind : Nat
  ver : Nat
  subt : Nat
  subj : Nat
  thread : Nat
  stamp : Stamp
  payload : List Word
  deriving DecidableEq, Repr

/-- Bytes of the record: 24 of header, the payload, padding to a multiple of 8 with a 4-byte CRC (R405). -/
def JRec.len (r : JRec) : Nat := (28 + 4 * r.payload.length + 7) / 8 * 8

/-- A record of a fixed ring with its delivery fields (R246, R247): the ring, the head entry's fields, the stamp, the
payload entries, the source island (R20) for the order of R26. -/
structure InRec where
  ring : Nat
  kind : Nat
  source : Nat
  value : TWord
  aux : Nat
  stamp : Stamp
  payload : List (BitVec 64)
  island : Nat
  late : Bool
  carry : Bool
  deriving DecidableEq, Repr

/-- Ring entries the record takes: head, stamp and payload (R247). -/
def InRec.entries (r : InRec) : Nat := 2 + r.payload.length

/-- What a call message marks (R313): a stage called, a repeat, or the end of the call with the answering engineer and
the answer's origin, which CALL_END carries (R510). -/
inductive CallMark where
  | opened | repeated
  | ended (eng org : Nat)
  deriving DecidableEq, Repr

/-- The transactions of *Table: Transaction kinds* (R313). -/
inductive TxnBody where
  /-- Output command: leader terminal, state, tag (R314). -/
  | output (term : Nat) (on : Bool) (tag : Tag)
  /-- Panel target: segment, level, tag (R315). -/
  | panel (seg level : Nat) (tag : Tag)
  /-- SNX point update (R316). -/
  | snxPoint (point : Nat) (value : TWord)
  /-- SNX alarm event: alarm, change mask, ASTATE with its tag, ASTAMP (R316). -/
  | snxAlarm (alarm mask : Nat) (astate : TWord) (astamp : Stamp)
  /-- SNX message: subtype, association, words (R316). -/
  | snxMsg (subtype assoc : Nat) (words : List TWord)
  /-- Call message: zone, serial, stage, engineers told, public flag, mark, cause (R311, R312). -/
  | call (zone serial stage engineers : Nat) (pub : Bool) (mark : CallMark) (cause : TWord)
  /-- Journal record (R318). -/
  | journal (r : JRec)
  /-- Commit marker: begin of a commit group (R317). -/
  | groupBegin
  /-- Commit marker: end of a commit group; `discard` where the group is discarded whole (R317). -/
  | groupEnd (discard : Bool)
  /-- Voted register read with its request number (R279). -/
  | regRead (addr : Word) (req : Nat)
  /-- Voted register write (R279). -/
  | regWrite (addr data : Word)
  deriving DecidableEq, Repr

/-- A transaction: its content, the thread that posted it and its stamp (R313, R348). -/
structure Txn where
  thread : Nat
  stamp : Stamp
  body : TxnBody
  deriving DecidableEq, Repr

end Sys2Proof
end

