-- ==== Sys2Proof/Syntax.lean ====
section
/-! DEFINITION. The commands of the block: one constructor per row of spec/opcode_table.json, in the table's order, with
the operands a command carries: the sender's master, the unit it names, and what the unit measures or receives. -/

namespace Sys2Proof

/-- The commands. Each docstring gives the row's rule of spec/ and its summary. -/
inductive Instr where
  /-- REGISTER_WRITE (R45). A write by any master to a register that has no row of its own is checked for bus errors and then stored. -/
  | registerWrite (m : Master) (addr data : Word)
  /-- SQ_CLEAR_WRITE (R51). A write to a status register clears the flags written 1 only when the written SEQ matches. -/
  | sqClearWrite (m : Master) (addr data : Word)
  /-- LK_FIELD_WRITE (R49). The first write to a lockable field after reset takes effect and locks it; a later write raises a bus error. -/
  | lkFieldWrite (m : Master) (addr data : Word)
  /-- STAGE_LOW_WORD (R55). A write to the low word of a writable 64-bit value is staged for the writing master. -/
  | stageLowWord (m : Master) (addr data : Word)
  /-- COMMIT_HIGH_WORD (R55). A write to the high word commits it together with the master's staged low word. -/
  | commitHighWord (m : Master) (addr data : Word)
  /-- HSP_NOP (R66). A host SPI NOP frame is checked and answered OK, and it collects the response to the previous frame. -/
  | hspNop (edges : Nat) (addr data : Word) (crc : Byte)
  /-- HSP_READ (R66). A host SPI READ frame is checked and a 32-bit read of ADDR is started as master 5. -/
  | hspRead (edges : Nat) (addr data : Word) (crc : Byte)
  /-- HSP_WRITE (R66). A host SPI WRITE frame is checked and a 32-bit write of DATA to ADDR is started as master 5. -/
  | hspWrite (edges : Nat) (addr data : Word) (crc : Byte)
  /-- HSP_ACCESS_DONE (R67). A host access completes on the management bus, and its outcome is loaded for the next frame. -/
  | hspAccessDone
  /-- GROUP_MEASUREMENT (R75). Every 1 ms the node measures each group's field voltage and current and updates presence and TRM_IOUT. -/
  | groupMeasurement (g : GroupId) (vfld ifld : BitVec 16) (iout : List (BitVec 16))
  /-- GRP_OVER (R76). A group current above 3.0 A for 100 ms sets GRP_OVER and reports a DEGRADE fault. -/
  | grpOver (g : GroupId)
  /-- MISWIRE_DETECT (R82). A mis-wiring condition has held for its time; the cell opens its switches and taps, abandons points in flight and reports MISWIRE. -/
  | miswireDetect (t : Term)
  /-- MISWIRE_CLEAR (R83). MISWIRE_NOW clears 100 ms after the last full-time condition, and the switches return through start permits. -/
  | miswireClear (t : Term)
  /-- OVERTEMP_SHUTDOWN (R84). A DO switch's thermal sensor exceeds the shutdown temperature; the switch opens and OVERTEMP is reported. -/
  | overtempShutdown (t : Term)
  /-- THERMAL_RESTART (R84). The thermal sensor cools to the restart temperature, and the switch returns to its commanded state through a start permit. -/
  | thermalRestart (t : Term)
  /-- DI_THRESHOLD_CROSSING (R88). A DI terminal crosses its threshold, and the raw crossing time is held as the episode stamp. -/
  | diThresholdCrossing (t : Term) (level : Bool)
  /-- FILTERED_LEVEL_CHANGE (R87). The level leaving the glitch filter changes; a debounce episode opens or its timer restarts. -/
  | filteredLevelChange (t : Term) (level : Bool)
  /-- DEBOUNCE_EXPIRY (R87). The debounce timer reaches DEB; the edge is confirmed and released to the TSU, or a glitch is counted. -/
  | debounceExpiry (t : Term)
  /-- DI_INITIAL_LEVEL (R89). A terminal newly in DI mode takes its confirmed level once the filtered level has been steady for DEB. -/
  | diInitialLevel (t : Term)
  /-- TRM_MODE_WRITE (R108). A write of TRM_MODE starts a mode transition, or replaces its target while one is in progress. -/
  | trmModeWrite (m : Master) (t : Term) (data : Word)
  /-- MODE_TRANSITION_END (R108). The old mode has been left and the stages discharged; the cell enters the new mode and sets MODE_DONE. -/
  | modeTransitionEnd (t : Term)
  /-- PAR_WRITE (R101). A write of TRM_DO.PAR sets the paralleled group size, opening and reclosing the group if its switch is closed. -/
  | parWrite (m : Master) (t : Term) (data : Word)
  /-- GATE_ORDER (R94). The governing source orders a DO gate to a new state; an opening acts at once and a closing waits for a start permit. -/
  | gateOrder (t : Term)
  /-- DEMAG_END (R98). An inductive load's current has decayed in the clamp and DEMAG returns to 0. -/
  | demagEnd (t : Term)
  /-- CURRENT_LIMIT_ENGAGE (R97). A DO switch begins to limit its current, and TRM_STATE.LIMIT becomes 1. -/
  | currentLimitEngage (t : Term)
  /-- OVERLOAD (R97). A switch that has limited for LIMIT_TIME opens, sets OVERLOAD and OFF_LATCHED, and reports a NOTE fault. -/
  | overload (t : Term)
  /-- OVERLOAD_RETRY (R97). The retry time of an overloaded switch expires, and it requests a start permit to close again. -/
  | overloadRetry (t : Term)
  /-- OPEN_LOAD (R99). An open-load condition holds for its time, and OPEN_LOAD is set with a NOTE fault. -/
  | openLoad (t : Term)
  /-- SHARE (R105). A member's current has differed from the group mean by more than 30 % for 100 ms, and SHARE is set. -/
  | share (t : Term)
  /-- LOOP_SHORT (R106). A loop switch in limit for 1 s opens, sets LOOP_SHORT and reports a NOTE fault. -/
  | loopShort (t : Term)
  /-- LOOP_RETRY (R106). 1 s after a LOOP_SHORT the loop switch requests a start permit to close again. -/
  | loopRetry (t : Term)
  /-- DISCHARGE_END (R120). A stage's discharge ends; it connects its selections, or starts its open test or steep interval. -/
  | dischargeEnd (c : Conv) (st : Stage)
  /-- OPEN_TEST_END (R139). The 20 µs open-test current ends; the terminal is sampled, the current is removed and the steep interval begins. -/
  | openTestEnd (c : Conv) (st : Stage) (mv : BitVec 16)
  /-- STEEP_INTERVAL_END (R127). A stage's steep interval has run without interruption, and its stage is ready for a window. -/
  | steepIntervalEnd (c : Conv) (st : Stage)
  /-- RET_LIMIT (R121). A return switch at its current limit for 100 µs sets RET_LIMIT and reports a NOTE fault. -/
  | retLimit (t : Term)
  /-- COMPLIANCE_LOST (R124). An excitation source that cannot hold its current for 2 µs loses compliance and sets COMPL. -/
  | complianceLost (i : Source)
  /-- COMPLIANCE_REGAINED (R124). A source regains compliance by itself when the load allows. -/
  | complianceRegained (i : Source)
  /-- EXC_SRC_WRITE (R126). A write to EXC_SRCi changes who controls the source; a change of a source a point holds is an excitation change. -/
  | excSrcWrite (m : Master) (i : Source) (data : Word)
  /-- MUX_TOPT_WRITE (R145). A write to MUX_TOPT or MUX_RLEAD takes effect by field; a change of BIAS or OTEST is an excitation change. -/
  | muxToptWrite (m : Master) (t : Term) (rlead : Bool) (data : Word)
  /-- CAL_NOW (R125). A write of 1 to EXC_CTRL.CAL_NOW starts a complete calibration round at once. -/
  | calNow (m : Master) (period : BitVec 16)
  /-- CALIBRATION_SLOT (R125). Every CAL_PERIOD/16 seconds the next source in turn is calibrated while it is free. -/
  | calibrationSlot
  /-- CALIBRATION_DONE (R125). A source's calibration ends; the correction is applied, or CAL_FAIL is set with a DEGRADE fault. -/
  | calibrationDone (i : Source) (err : BitVec 16)
  /-- CJS_READ (R142). Every 100 ms the on-die cold-junction sensors are read into MUX_CJS and checked for plausibility. -/
  | cjsRead (readings : List (Option Word))
  /-- WINDOW_OPEN (R152). A window opens on a stage at the later of the other window's close and the end of its steep interval. -/
  | windowOpen (c : Conv) (st : Stage)
  /-- WINDOW_CLOSE (R168). A window closes; the converter completes its raw result, decides auto-ranging and hands the result to the sequencer. -/
  | windowClose (c : Conv) (st : Stage) (code : BitVec 24) (ovl : Bool)
  /-- WINDOW_BOUND_SAMPLE (R143). A supervision converter samples a point's terminals at a window's opening, midpoint or close. -/
  | windowBoundSample (c : Conv) (st : Stage) (p n vts ir : BitVec 16) (late : Bool)
  /-- CM_CHECK_DONE (R143). The common-mode check of a window finishes and fixes its status. -/
  | cmCheckDone (c : Conv) (st : Stage)
  /-- RESULT_SEAM (R156). At a dedicated converter's result seam a window closes, another opens, and range changes take effect. -/
  | resultSeam (c : Conv) (code : BitVec 24) (ovl : Bool)
  /-- BLANK_START (R164). A blanking source begins and the converter stops accumulating. -/
  | blankStart (c : Conv)
  /-- BLANK_END (R164). A blank's source and tail have ended and the converter resumes accumulating. -/
  | blankEnd (c : Conv)
  /-- BLANKED_WINDOW_END (R165). A scanned window blanked for more than 50 ms ends and is posted BLANKED. -/
  | blankedWindowEnd (c : Conv) (st : Stage)
  /-- CONVERTER_FAIL (R173). REF_FAIL, STUCK, XCHK or PARITY is set; the converter fails, abandons its windows and frees its sources. -/
  | converterFail (c : Conv) (check : BitVec 2)
  /-- STAGE_FAIL (R174). A stage fails its self-test and is taken out of use; the converter continues on the other stage. -/
  | stageFail (c : Conv) (st : Stage)
  /-- STAGE_SELFTEST (R175). Every 60 s the sequencer runs a stage's internal-zero self-test while the stage is free. -/
  | stageSelftest (c : Conv) (st : Stage)
  /-- SELFTEST (R175). A write of 1 to ASY_CTRL.SELFTEST starts a 10 ms self-test of a failed converter. -/
  | selftest (m : Master) (c : Conv)
  /-- SELFTEST_DONE (R175). The self-test ends; a converter that passed becomes off, otherwise it stays failed. -/
  | selftestDone (c : Conv) (pass : Bool)
  /-- ASY_DISABLE (R177). A write of EN 0 ends every open window ABANDONED, releases the stages and frees the sources. -/
  | asyDisable (m : Master) (c : Conv)
  /-- ASY_ENABLE (R177). A write of EN 1 returns the converter to its scan list from the next frame seam. -/
  | asyEnable (m : Master) (c : Conv)
  /-- SVC_MUTUAL_CHECK (R179). Every 10 ms each supervision converter measures the others' bandgaps and a disagreeing one is failed. -/
  | svcMutualCheck (failed : Option Svc) (noThree : Bool)
  /-- SVC_SWEEP (R178). Once per SWEEP period every present terminal's voltage and every loop current is sampled. -/
  | svcSweep (volts iloop : List (BitVec 16)) (load : Byte)
  /-- WARM_UP_END (R196). The loop warm-up time ends and the first window after it sets the loop flags that then hold. -/
  | warmUpEnd (t : Term)
  /-- MODEM_CONNECT (R198). A write of HRT_MCFG.TERM connects a modem to a terminal, or disconnects it with 0x3F. -/
  | modemConnect (m : Master) (h : Modem) (data : Word)
  /-- SEND (R199). A write of HRT_MCMD.SEND starts a HART transaction: preambles and the transmit buffer are sent. -/
  | send (m : Master) (h : Modem)
  /-- ABORT (R201). A write of HRT_MCMD.ABORT ends the bit in progress, removes the carrier and returns the modem to idle. -/
  | abort (m : Master) (h : Modem)
  /-- RXCLR (R206). A write of HRT_MCMD.RXCLR empties the receive buffer and takes reply complete to idle. -/
  | rxClr (m : Master) (h : Modem)
  /-- TX_DONE (R199). The last stop bit is sent, TX_DONE is set and the modem awaits a reply. -/
  | txDone (h : Modem)
  /-- NO_REPLY (R199). No carrier is detected within the reply timeout; NO_REPLY is set and STATE becomes reply complete. -/
  | noReply (h : Modem)
  /-- CARRIER_DETECT (R199). A carrier is detected while awaiting a reply and the modem starts receiving. -/
  | carrierDetect (h : Modem)
  /-- RX_DONE (R199). Reception ends at carrier loss or 128 bytes; RX_DONE is set and STATE becomes reply complete. -/
  | rxDone (h : Modem) (data : List Byte) (errIdx : Option Nat) (poll : Option HartReply)
  /-- UNSOLICITED_FRAME (R199). A frame arriving while the modem is idle or reply complete is discarded and counted. -/
  | unsolicitedFrame (h : Modem)
  /-- OWNER_CHANGE (R202). A change of HRT_CTRL.OWNER takes effect once every modem is idle or reply complete. -/
  | ownerChange
  /-- HART_POLL (R202). The lamp room polls a loop every HPOLL seconds with the universal commands. -/
  | hartPoll (h : Modem) (t : Term) (req : List Byte)
  /-- FRAME_SEAM (R31). At each seam the tally votes the previous frame's transactions and decides out-votes, retirements and split frames. -/
  | frameSeam
  /-- INPUT_CUT (R28). At F(k) + 2 µs the tally closes the input set, sorts it and writes it to the lanes' input buffers. -/
  | inputCut (badA badB badC : Bool)
  /-- FRAME_RELEASE (R251). At F(k) + 5 µs the tally releases frame k; each lane applies thread commands, loads its input and starts its threads. -/
  | frameRelease (retrim : Bool)
  /-- INPUT_ARRIVAL (R340). A stamped input event crosses into the tally and is kept in stamp order in the input store. -/
  | inputArrival
  /-- HEARTBEAT (R343). A lane's frame heartbeat reaches the voters and the canary estimates its clock. -/
  | heartbeat (l : LaneId) (ticks : BitVec 32)
  /-- TRANSACTION_HAND_ON (R348). A voted transaction is handed on to its destination gate, which accepts it when two voters' copies agree. -/
  | transactionHandOn (agree0 agree1 agree2 : Bool)
  /-- REPAIR_COPY_END (R352). The keep and code copy into a repaired lane ends and is checked; the lane runs again at the next qualifying release. -/
  | repairCopyEnd (l : LaneId)
  /-- RETIRE (R357). A write of TLY_CTRL.RETIRE retires the named lane at the next seam with cause MANUAL. -/
  | retireLane (m : Master) (l : LaneId)
  /-- RETURN (R357). A write of TLY_CTRL.RETURN starts the repair of a retired lane, code memory included. -/
  | returnLane (m : Master) (l : LaneId)
  /-- THREAD_HALT_COMMAND (R258). A write of LN_TCMD with OP HALT queues a halt that is applied at the next release. -/
  | threadHaltCommand (m : Master) (at_ : BitVec 22) (t : ThreadId)
  /-- THREAD_RUN_COMMAND (R258). A write of LN_TCMD with OP RUN queues a run of a halted or faulted thread at the next release. -/
  | threadRunCommand (m : Master) (t : ThreadId)
  /-- KEEP_SCRUB (R241). Each lane reads and corrects its keep and code memory; an uncorrectable error is a lane fault. -/
  | keepScrub (l : LaneId) (found : ScrubFind)
  /-- ADD (R271). Signed saturating addition of two registers. -/
  | add (w : Who) (d a b : Reg)
  /-- SUB (R271). Signed saturating subtraction of two registers. -/
  | sub (w : Who) (d a b : Reg)
  /-- ADDU (R271). Unsigned saturating addition. -/
  | addu (w : Who) (d a b : Reg)
  /-- SUBU (R271). Unsigned saturating subtraction. -/
  | subu (w : Who) (d a b : Reg)
  /-- ADDW (R271). Wrapping addition modulo 2^32. -/
  | addw (w : Who) (d a b : Reg)
  /-- SUBW (R271). Wrapping subtraction modulo 2^32. -/
  | subw (w : Who) (d a b : Reg)
  /-- AND (R271). Bitwise AND of two registers. -/
  | and (w : Who) (d a b : Reg)
  /-- OR (R271). Bitwise OR of two registers. -/
  | or (w : Who) (d a b : Reg)
  /-- XOR (R271). Bitwise exclusive OR of two registers. -/
  | xor (w : Who) (d a b : Reg)
  /-- SHL (R271). Left shift by a register amount. -/
  | shl (w : Who) (d a b : Reg)
  /-- SHR (R271). Logical right shift by a register amount. -/
  | shr (w : Who) (d a b : Reg)
  /-- SAR (R271). Arithmetic right shift by a register amount. -/
  | sar (w : Who) (d a b : Reg)
  /-- MIN (R271). Signed minimum of two registers. -/
  | min (w : Who) (d a b : Reg)
  /-- MAX (R271). Signed maximum of two registers. -/
  | max (w : Who) (d a b : Reg)
  /-- MINU (R271). Unsigned minimum of two registers. -/
  | minu (w : Who) (d a b : Reg)
  /-- MAXU (R271). Unsigned maximum of two registers. -/
  | maxu (w : Who) (d a b : Reg)
  /-- MUL (R271). Signed saturating product. -/
  | mul (w : Who) (d a b : Reg)
  /-- MULH (R271). High word of the signed 64-bit product. -/
  | mulh (w : Who) (d a b : Reg)
  /-- MULQ (R271). Rounded Q16.16 product. -/
  | mulq (w : Who) (d a b : Reg)
  /-- DIV (R271). Signed quotient truncated toward zero, saturating on division by zero. -/
  | div (w : Who) (d a b : Reg)
  /-- DIVU (R271). Unsigned quotient. -/
  | divu (w : Who) (d a b : Reg)
  /-- REM (R271). Signed remainder with the sign of the dividend. -/
  | rem (w : Who) (d a b : Reg)
  /-- DIVQ (R271). Q16.16 quotient. -/
  | divq (w : Who) (d a b : Reg)
  /-- ABS (R271). Absolute value, saturating. -/
  | abs (w : Who) (d a : Reg)
  /-- NEG (R271). Negation, saturating. -/
  | neg (w : Who) (d a : Reg)
  /-- QFI (R271). Integer to Q16.16 conversion. -/
  | qfi (w : Who) (d a : Reg)
  /-- QTI (R271). Q16.16 to integer conversion, rounded to nearest. -/
  | qti (w : Who) (d a : Reg)
  /-- LAG (R271). First-order lag of a register toward a value by a Q16.16 factor. -/
  | lag (w : Who) (d a b : Reg)
  /-- ADDI (R271). Saturating addition of a sign-extended immediate. -/
  | addi (w : Who) (d a : Reg) (imm : BitVec 18)
  /-- ADDWI (R271). Wrapping addition of a sign-extended immediate. -/
  | addwi (w : Who) (d a : Reg) (imm : BitVec 18)
  /-- ANDI (R271). AND with a zero-extended immediate. -/
  | andi (w : Who) (d a : Reg) (imm : BitVec 18)
  /-- ORI (R271). OR with a zero-extended immediate. -/
  | ori (w : Who) (d a : Reg) (imm : BitVec 18)
  /-- XORI (R271). Exclusive OR with a zero-extended immediate. -/
  | xori (w : Who) (d a : Reg) (imm : BitVec 18)
  /-- SHLI (R271). Left shift by an immediate amount. -/
  | shli (w : Who) (d a : Reg) (imm : BitVec 18)
  /-- SHRI (R271). Logical right shift by an immediate amount. -/
  | shri (w : Who) (d a : Reg) (imm : BitVec 18)
  /-- SARI (R271). Arithmetic right shift by an immediate amount. -/
  | sari (w : Who) (d a : Reg) (imm : BitVec 18)
  /-- LUI (R271). Loads an immediate shifted left by 10 with tag GOOD. -/
  | lui (w : Who) (d : Reg) (imm : BitVec 22)
  /-- CMP (R272). Compares two registers and sets Z, N, L and CT. -/
  | cmp (w : Who) (a b : Reg)
  /-- CMPI (R272). Compares a register with an immediate and sets the flags. -/
  | cmpi (w : Who) (a : Reg) (imm : BitVec 18)
  /-- TAT (R272). Tests whether a register's tag is a given tag or worse. -/
  | tat (w : Who) (a : Reg) (t : BitVec 4)
  /-- GTAG (R272). Gives the code of a register's tag. -/
  | gtag (w : Who) (d a : Reg)
  /-- STAG (R272). Copies a value with a given tag. -/
  | stag (w : Who) (d a : Reg) (t : BitVec 4)
  /-- WTAG (R272). Copies a value with the worse of its tag and another register's. -/
  | wtag (w : Who) (d a b : Reg)
  /-- WTAGI (R272). Copies a value with the worse of its tag and an immediate tag. -/
  | wtagi (w : Who) (d a : Reg) (t : BitVec 4)
  /-- CTAG (R272). Copies a value with the worse of its tag and the condition tag. -/
  | ctag (w : Who) (d a : Reg)
  /-- SEL (R272). Selects one of two registers by a condition, with the condition tag. -/
  | sel (w : Who) (d a b : Reg) (cond : BitVec 4)
  /-- BCC (R273). Conditional branch on the flags. -/
  | bcc (w : Who) (cond : BitVec 4) (target : BitVec 16)
  /-- JAL (R273). Jumps to a target and writes the link. -/
  | jal (w : Who) (d : Reg) (target : BitVec 16)
  /-- JR (R273). Jumps to the address held in a register. -/
  | jr (w : Who) (a : Reg)
  /-- LOOP (R274). Starts a bounded hardware loop on a loop level, or skips its body. -/
  | loop (w : Who) (a : Reg) (lv : BitVec 2) (body max : BitVec 10)
  /-- LEXIT (R273). Leaves a loop level and branches. -/
  | lexit (w : Who) (lv : BitVec 2) (target : BitVec 16)
  /-- NOP (R281). Does nothing for one slot. -/
  | nop (w : Who)
  /-- FEND (R281). The thread enters DONE for the frame. -/
  | fend (w : Who)
  /-- HALT (R281). The thread enters HALTED at once. -/
  | halt (w : Who)
  /-- LIDX (R281). Gives the index of the current pass of a loop level. -/
  | lidx (w : Who) (d : Reg) (lv : BitVec 4)
  /-- LDK (R276). Loads one keep word with its tag. -/
  | ldk (w : Who) (d a : Reg) (imm : BitVec 18)
  /-- STK (R276). Stores a register and its tag into keep memory. -/
  | stk (w : Who) (d a : Reg) (imm : BitVec 18)
  /-- LDK2 (R276). Loads two keep words into a register pair. -/
  | ldk2 (w : Who) (d a : Reg) (imm : BitVec 18)
  /-- STK2 (R276). Stores a register pair into two keep words. -/
  | stk2 (w : Who) (d a : Reg) (imm : BitVec 18)
  /-- TAKE (R277). Removes the oldest entry of a ring into a register pair, or reports it empty. -/
  | take (w : Who) (d : Reg) (ring : BitVec 7)
  /-- WAIT (R277). Takes from a general ring, waiting while it is empty and posters remain. -/
  | wait (w : Who) (d : Reg) (ring : BitVec 7)
  /-- WAIT_END (R244). A waiting thread's ring receives an entry or its posters finish, and the WAIT ends. -/
  | waitEnd (l : LaneId) (t : ThreadId)
  /-- POST (R277). Stores one entry from a register pair into a general ring. -/
  | post (w : Who) (d : Reg) (ring : BitVec 7)
  /-- RCNT (R277). Gives the number of entries still to be taken from a ring. -/
  | rcnt (w : Who) (d : Reg) (ring : BitVec 7)
  /-- FRM (R278). Reads a frame constant. -/
  | frm (w : Who) (d : Reg) (sel : BitVec 18)
  /-- TADD (R278). Adds a signed 32-bit tick count to a 64-bit time. -/
  | tadd (w : Who) (d a b : Reg)
  /-- TADDP (R278). Adds two 64-bit times. -/
  | taddp (w : Who) (d a b : Reg)
  /-- TSUB (R278). Subtracts two 64-bit times. -/
  | tsub (w : Who) (d a b : Reg)
  /-- TCMP (R278). Compares two 64-bit times and sets the flags. -/
  | tcmp (w : Who) (a b : Reg)
  /-- TDUE (R278). Compares a due tick with F(k) and sets the flags. -/
  | tdue (w : Who) (a : Reg)
  /-- TDIFF (R278). Gives the difference of two times as signed 32-bit ticks. -/
  | tdiff (w : Who) (d a b : Reg)
  /-- TTOS (R278). Gives the difference of two times in Q16.16 seconds. -/
  | ttos (w : Who) (d a b : Reg)
  /-- TQS (R278). Converts Q16.16 seconds to ticks. -/
  | tqs (w : Who) (d a : Reg)
  /-- TMS (R278). Converts milliseconds to ticks. -/
  | tms (w : Who) (d a : Reg)
  /-- REGR (R279). Posts a voted register read with a request number. -/
  | regr (w : Who) (a : Reg) (imm : BitVec 18)
  /-- REGW (R279). Posts a voted register write. -/
  | regw (w : Who) (a b : Reg)
  /-- LIMH (R295). Evaluates a high limit with hysteresis. -/
  | limh (w : Who) (d a b : Reg)
  /-- LIML (R295). Evaluates a low limit with hysteresis. -/
  | liml (w : Who) (d a b : Reg)
  /-- DLYON (R297). Applies an on-delay to a condition in a timer record. -/
  | dlyon (w : Who) (d a b : Reg)
  /-- DLYOFF (R297). Applies an off-delay to a condition in a timer record. -/
  | dlyoff (w : Who) (d a b : Reg)
  /-- DLY (R297). Applies both delays to a condition in a timer record. -/
  | dly (w : Who) (d a b : Reg)
  /-- ALM (R300). Updates an alarm from its condition and returns a change mask, posting an alarm journal record on change. -/
  | alm (w : Who) (d a b : Reg)
  /-- ACK (R301). Acknowledges an alarm with origin and source and journals the change. -/
  | ack (w : Who) (d a b : Reg)
  /-- GSUP (R303). Updates a group's suppression from its inhibit and release delay. -/
  | gsup (w : Who) (d a b : Reg)
  /-- FUP (R304). Applies an alarm's change mask to its group's counts and first-up. -/
  | fup (w : Who) (d a : Reg)
  /-- RUNH (R306). Credits running time to a counter record and journals it when due. -/
  | runh (w : Who) (d a b : Reg)
  /-- STRT (R307). Counts a start on a rising start input and journals it. -/
  | strt (w : Who) (d a b : Reg)
  /-- CALL (R311). Opens a call in a zone at stage 0 and posts a call message. -/
  | call (w : Who) (d a b : Reg)
  /-- ESC (R312). Steps a due call to its next stage, or repeats the last stage. -/
  | esc (w : Who) (d a : Reg)
  /-- CANS (R312). Closes an open call with the answer's origin and engineer. -/
  | cans (w : Who) (d a b : Reg)
  /-- CEND (R312). Closes an open call without an answer. -/
  | cend (w : Who) (d a : Reg)
  /-- OUTC (R314). Posts an output command for a leader terminal. -/
  | outc (w : Who) (d a b : Reg)
  /-- PNLT (R315). Posts a panel target for a segment. -/
  | pnlt (w : Who) (d a b : Reg)
  /-- SNXPT (R316). Posts an SNX point update. -/
  | snxpt (w : Who) (d a b : Reg)
  /-- SNXAE (R316). Posts an SNX alarm event. -/
  | snxae (w : Who) (d a b : Reg)
  /-- SNXM (R316). Posts an SNX message of keep words. -/
  | snxm (w : Who) (d a b : Reg)
  /-- KOPEN (R317). Opens a commit group. -/
  | kopen (w : Who)
  /-- KCLOSE (R317). Closes a commit group. -/
  | kclose (w : Who)
  /-- KREC (R318). Posts a user journal record of keep words. -/
  | krec (w : Who) (d a b : Reg)
  /-- LDM (R286). The lamp room core loads a 32-bit word from memory or the management space. -/
  | ldm (w : Who) (d a : Reg) (imm : BitVec 18)
  /-- STM (R286). The lamp room core stores a 32-bit word to memory or the management space. -/
  | stm (w : Who) (d a : Reg) (imm : BitVec 18)
  /-- LDB (R286). Loads a byte of SRAM or boot ROM. -/
  | ldb (w : Who) (d a : Reg) (imm : BitVec 18)
  /-- STB (R286). Stores a byte into SRAM. -/
  | stb (w : Who) (d a : Reg) (imm : BitVec 18)
  /-- CSRR (R286). Reads a control register. -/
  | csrr (w : Who) (d : Reg) (csr : BitVec 18)
  /-- CSRW (R286). Writes a control register. -/
  | csrw (w : Who) (d : Reg) (csr : BitVec 18)
  /-- ERET (R290). Returns from an exception, restoring flags and state. -/
  | eret (w : Who)
  /-- WFI (R286). Waits until an enabled interrupt is pending. -/
  | wfi (w : Who)
  /-- SYS (R286). Takes the SYS exception with an argument. -/
  | sys (w : Who) (imm : BitVec 18)
  /-- INTERRUPT_ENTRY (R289). A pending enabled interrupt is taken at an instruction boundary. -/
  | interruptEntry
  /-- TIMER_COMPARE (R288). TBC reaches the TMR compare value and interrupt 0 becomes pending. -/
  | timerCompare
  /-- TRP_RESET (R363). A write to TRP_RESET resets the latch of a term whose logic value is 0. -/
  | trpReset (m : Master) (terms : Word)
  /-- TRP_CFG_WRITE (R369). A write of TRP_CFGn sets a term's fields; EN 1 evaluates it at once and EN 0 removes its assertion. -/
  | trpCfgWrite (m : Master) (n : TripId) (data : Word)
  /-- DUP_MISMATCH (R366). The two term-logic copies differ for more than 100 ns and a DEGRADE fault is reported. -/
  | dupMismatch (n : TripId)
  /-- LATCH_SCRUB (R366). Every 1 ms every trip configuration bit is compared across its three cells and corrected. -/
  | latchScrub (found : List TripId)
  /-- PERMIT_TOKEN (R379). At each token the supply manager grants queued requests in order as units allow. -/
  | permitToken
  /-- DEFER_LONG (R380). A request deferred for more than 1 s sets DEFER_LONG with a NOTE fault. -/
  | deferLong
  /-- STAGGER_SLOT (R381). After reset the next loop's first closing enters the permit queue one stagger interval after the previous. -/
  | staggerSlot
  /-- ACK_ALARM (R391). A host command ACK_ALARM is queued and delivered to the lanes as a ring-113 record. -/
  | ackAlarm (m : Master) (subject : BitVec 16)
  /-- ACK_GROUP (R391). A host command ACK_GROUP is queued and delivered as a ring-113 record. -/
  | ackGroup (m : Master) (subject : BitVec 16)
  /-- ANSWER (R391). A host command ANSWER is queued and delivered as a ring-113 record. -/
  | answer (m : Master) (subject : BitVec 16)
  /-- DUTY (R391). A host command DUTY is queued and delivered as a ring-113 record. -/
  | duty (m : Master) (subject : BitVec 16)
  /-- ROSTER (R391). A host command ROSTER is queued and delivered as a ring-113 record. -/
  | roster (m : Master) (subject : BitVec 16)
  /-- USER (R391). A program-defined host command is queued and delivered as a ring-113 record. -/
  | user (m : Master) (code : Byte) (subject : BitVec 16)
  /-- JOURNAL_GROUP_ACCEPT (R414). A whole group enters the caddy and is given SEQs, or is refused. -/
  | journalGroupAccept
  /-- GROUP_COMMIT (R411). A group's last word is programmed and verified; its writer is told of the commit. -/
  | groupCommit (verified : Bool)
  /-- JOURNAL_RECOVERY (R422). After reset the journal controller scans the segments, finds committed groups and builds the index. -/
  | journalRecovery (corr : Bool)
  /-- RECOVERY_DONE (R423). Recovery completes; JNL_SEQ and JNL_MAXSTAMP are set and TBC starts. -/
  | recoveryDone (ms boot : BitVec 16)
  /-- COMPACTION_START (R424). A compaction trigger holds; victims are chosen and the begin record is appended. -/
  | compactionStart
  /-- COMPACT_NOW (R424). A write of 1 to JNL_CTRL.COMPACT_NOW starts a compaction. -/
  | compactNow (m : Master)
  /-- COMPACTION_COPY_END (R425). The live records of the victims are copied and the end record is appended. -/
  | compactionCopyEnd
  /-- SEGMENT_ERASE_END (R402). A segment erasure ends and its erase header is written. -/
  | segmentEraseEnd (ok : Bool)
  /-- LOOK_EXACT (R421). A lookup with CMD exact finds the live record with the key and copies it into JNL_RWIN. -/
  | lookExact (m : Master) (corr : Bool)
  /-- LOOK_NEXT (R421). A lookup with CMD next finds the next live record of the kind and copies it into JNL_RWIN. -/
  | lookNext (m : Master) (corr : Bool)
  /-- APPEND (R435). A write of JNL_WCMD.APPEND appends one record from the write registers. -/
  | append (m : Master)
  /-- GOPEN (R435). A write of JNL_WCMD.GOPEN opens a group for the writing master. -/
  | gopen (m : Master)
  /-- GCLOSE (R435). A write of JNL_WCMD.GCLOSE closes the writing master's group and offers it to the caddy. -/
  | gclose (m : Master)
  /-- RAW_READ (R432). A raw flash READ command reads one flash word. -/
  | rawRead (m : Master)
  /-- RAW_PROGRAM (R432). A raw flash PROGRAM command programs one flash word. -/
  | rawProgram (m : Master)
  /-- RAW_ERASE (R432). A raw flash ERASE command erases the segment holding WORD. -/
  | rawErase (m : Master)
  /-- RAW_FLASH_DONE (R432). A raw flash operation completes and its RESULT is shown. -/
  | rawFlashDone (ok : Bool)
  /-- EVENT_RECORD_WRITE (R443). A queued event is programmed as a record into LAST and, while it has room, FIRST. -/
  | eventRecordWrite
  /-- EVR_SWTRIG (R436). A write to EVR_SWTRIG raises a SOFTWARE event. -/
  | evrSwtrig (m : Master) (detail : BitVec 16)
  /-- EVR_CLEAR_ARM (R447). A write of EVR_CLEAR with KEY 0xA5A5 arms a clear of the named area. -/
  | evrClearArm (m : Master) (area : BitVec 2)
  /-- EVR_CLEAR_CONFIRM (R447). A second write with KEY 0x5A5A within 1 ms clears the area. -/
  | evrClearConfirm (m : Master) (area : BitVec 2)
  /-- EVR_CLEAR_DISARM (R447). The 1 ms window ends and the armed clear is disarmed. -/
  | evrClearDisarm
  /-- EVR_CLEAR_DONE (R447). The area's erasure ends and the KIND CLEAR record is written. -/
  | evrClearDone
  /-- EVR_SCAN (R445). After reset the recorder reads every slot and finds the next SEQ, the head of LAST and the fill of FIRST. -/
  | evrScan
  /-- EVR_WEND_READ (R446). A read of EVR_WEND returns the slot's SEQ and moves the cursor when AUTO is set. -/
  | evrWendRead (m : Master)
  /-- RTC_SHADOW_FREEZE (R459). A master's read of a time register while its shadows are released freezes all seven. -/
  | rtcShadowFreeze (m : Master) (field : TimeField)
  /-- RTC_YEAR_READ (R459). A read of RTC_YEAR returns the frozen year and releases the master's shadows. -/
  | rtcYearRead (m : Master)
  /-- SHADOW_TIMEOUT (R459). Shadows left frozen for 250 ms are released and SHADOW_TIMEOUT is set. -/
  | shadowTimeout (m : Master)
  /-- RTC_FIELD_STAGE (R461). A write to a time field other than the year is staged for the writing master. -/
  | rtcFieldStage (m : Master) (field : TimeField) (data : Word)
  /-- RTC_COMMIT (R462). A write of RTC_YEAR commits the staged fields through the gate, or sets COMMIT_ERR. -/
  | rtcCommit (m : Master) (data : Word)
  /-- RTC_LOAD (R458). The domain loads a transferred commit at the next oscillator edge and zeroes the prescaler. -/
  | rtcLoad
  /-- OSF_CLEAR (R464). A write of 1 to RTC_FCLR.OSF clears OSF where the oscillator runs. -/
  | osfClear (m : Master)
  /-- LBV_CLEAR (R464). A write of 1 to RTC_FCLR.LBV clears LBV where VBAT reads at least 2.3 V. -/
  | lbvClear (m : Master)
  /-- RTC_SECOND (R454). The prescaler overflows and the calendar advances one second. -/
  | rtcSecond
  /-- RTC_CALIBRATION (R455). Every 32 s the domain adds or removes CAL prescaler counts. -/
  | rtcCalibration
  /-- VBAT_READING (R452). Once per second the domain measures VBAT and sets LBV below 2.3 V. -/
  | vbatReading (mv : BitVec 12)
  /-- OSCILLATOR_STOP (R453). No 32.768 kHz edge for 2 ms sets OSF and the counters stop. -/
  | oscillatorStop
  /-- DOMAIN_RESET (R451). VBK falls below the reset threshold and the backup domain resets its time, calibration and flags. -/
  | domainReset
  /-- VBAT_SWITCHOVER (R450). The 3.3 V rail falls below the switchover threshold and the domain moves to VBAT. -/
  | vbatSwitchover
  /-- VBAT_SWITCHBACK (R450). The rail rises above the switchback threshold and the domain returns to it. -/
  | vbatSwitchback
  /-- GATE_CLOSE (R456). The RTC gate closes on lockout or logic failing and all shadows and staged values are discarded. -/
  | gateClose
  /-- GATE_OPEN (R457). The rail and power good have held for 2 ms and the RTC gate opens. -/
  | gateOpen
  /-- REFRESH_TICK (R470). Every 20 ms the panel driver writes targets, starts, drives and balances waveforms and updates the picture. -/
  | refreshTick (vp vn : BitVec 16)
  /-- PANEL_TEMP_READ (R473). Once per second the driver reads the panel thermistor and holds waveforms in a cold band. -/
  | panelTempRead (temp : BitVec 16) (ok : Bool)
  /-- REASSERT_PASS (R483). Every 24 h a re-assertion pass drives every settled segment at its level. -/
  | reassertPass
  /-- STRESS_RECORD (R484). Once an hour the panel stress counters are journaled. -/
  | stressRecord
  /-- WAVE_COMMIT (R475). A write of PNL_WCMD.COMMIT checks the staged waveform table and commits it when no segment runs. -/
  | waveCommit (m : Master)
  /-- PANEL_MODE_WRITE (R488). A write of PNL_CTRL.MODE brings up the panel rails, holds the clear step and starts recovery, or takes the panel down. -/
  | panelModeWrite (m : Master) (data : Word)
  /-- PANEL_CLEAR_END (R488). The clear step of at least 100 ms ends at a refresh tick and tick 0 begins recovery. -/
  | panelClearEnd
  /-- RAIL_FAULT (R493). A panel rail outside tolerance for 1 ms holds every electrode at VCOM. -/
  | railFault
  /-- SEG_FAULT (R493). A segment pin beyond 5 mA for 1 ms is held at VCOM until reset. -/
  | segFault (n : Segment)
  /-- PANEL_POWER_DOWN (R492). After the power-fail decision the driver holds the electrodes 2 ms, journals ledger and stress, and switches its rails off. -/
  | panelPowerDown
  /-- ETH_FRAME_RECEIVE (R501). A frame arrives on N0 or N1; the first copy is stamped and kept and the duplicate discarded. -/
  | ethFrameReceive (port : EthPort) (fcsOk : Bool) (src : BitVec 48) (ethertype : BitVec 16) (trailer : Option PrpTrailer) (body : List Byte)
  /-- HELLO (R515). A received HELLO chooses the association's version and moves it between OFFER, UP and REFUSED. -/
  | hello (a : Assoc)
  /-- HELLO_TIMER (R514). Every 10 s an enabled association sends a HELLO. -/
  | helloTimer (a : Assoc)
  /-- ASSOCIATION_TIMEOUT (R515). No HELLO for 35 s takes the association DOWN. -/
  | associationTimeout (a : Assoc)
  /-- POINT (R524). A received POINT element is delivered to the lanes as a ring-107 or ring-108 record. -/
  | point (a : Assoc)
  /-- ACK_ELEMENT (R524). A received SNX ACK element is delivered to the lanes as a record. -/
  | ackElement (a : Assoc)
  /-- ANSWER_ELEMENT (R524). A received SNX ANSWER element is delivered to the lanes as a record. -/
  | answerElement (a : Assoc)
  /-- MSG (R524). A received MSG element is delivered to the lanes as a record. -/
  | msg (a : Assoc)
  /-- SUBSCRIBE (R520). A received SUBSCRIBE replaces the partner's subscribed point ranges and flags. -/
  | subscribe (a : Assoc)
  /-- REG_RD (R525). A received REG_RD is executed as master 6 and answered with REG_RSP. -/
  | regRd (a : Assoc)
  /-- REG_WR (R525). A received REG_WR is executed as master 6 and answered with REG_RSP. -/
  | regWr (a : Assoc)
  /-- IMG_OPEN (R527). A received IMG_OPEN opens an image transfer and erases the inactive slot, or is refused. -/
  | imgOpen (a : Assoc)
  /-- IMG_DATA (R527). A received IMG_DATA at NEXT is written to the slot and NEXT advances. -/
  | imgData (a : Assoc)
  /-- IMG_CLOSE (R527). A received IMG_CLOSE starts verification or aborts the transfer. -/
  | imgClose (a : Assoc)
  /-- IMG_TIMEOUT (R527). 35 s without an element from the partner ends the transfer ABORTED. -/
  | imgTimeout
  /-- PRP_SUPERVISION (R501). Every LIFE ms a PRP supervision frame is sent. -/
  | prpSupervision
  /-- PATH_LOST (R499). A port without link or valid frames for 6 s is path lost with a DEGRADE fault. -/
  | pathLost (port : EthPort)
  /-- PORT_DISABLE (R499). A write of NET_PCFG.EN 0 disables the port and drops its frames at once. -/
  | portDisable (m : Master) (port : EthPort)
  /-- LINK_CHANGE (R499). A 10BASE-T1L port's link goes up or down. -/
  | linkChange (port : EthPort) (up low : Bool)
  /-- PTP_SYNC (R504). A Sync message measures θ and disciplines TBC's rate or steps OFS. -/
  | ptpSync (p : EthPort) (ident theta : BitVec 64) (rate : BitVec 32)
  /-- PTP_ANNOUNCE (R502). An Announce message feeds the best master clock algorithm and the UTC offset. -/
  | ptpAnnounce (p : EthPort) (d : PtpData) (utcValid : Bool) (utcOfs : BitVec 16)
  /-- SYNC_LOSS (R503). Sync is missed for several intervals; the clock changes port or enters HOLDOVER. -/
  | syncLoss (both : Bool)
  /-- HOLDOVER_EXPIRY (R504). Holdover validity runs out and the clock returns to FREE. -/
  | holdoverExpiry
  /-- RTC_SHIP_SET (R506). At the first LOCKED state and then hourly the lamp room sets the RTC from ship time. -/
  | rtcShipSet
  /-- TIME_ELEMENT_TIMER (R519). At each whole UTC second TIME elements are sent to version 1 partners and C ports. -/
  | timeElementTimer
  /-- CAN_FRAME_RECEIVE (R511). An SNX-C frame arrives on C0 or C1 and its element or segment is taken. -/
  | canFrameReceive (c : CanPort) (ext : Bool) (id : BitVec 29) (data : List Byte)
  /-- BUS_OFF (R508). A C port goes bus-off, reports a DEGRADE fault and discards its queue. -/
  | busOff (c : CanPort)
  /-- BUS_OFF_RECOVERY (R508). After 128 occurrences of 11 recessive bits a C port with AUTO 1 rejoins. -/
  | busOffRecovery (c : CanPort)
  /-- MDIO_ACCESS (R528). A write of NET_MDIO.REG runs a Clause 45 access to a PHY. -/
  | mdioAccess (m : Master) (data : Word)
  /-- ASSOCIATION_CONFIG (R529). A write of NET_ACFG reconfigures an association and takes it DOWN or resends HELLO. -/
  | associationConfig (m : Master) (a : Assoc) (data : Word)
  /-- LAMP_ROOM_RESET (R531). The lamp room resets; the boot ROM waits for recovery, loads the management slot and jumps to it. -/
  | lampRoomReset
  /-- READY (R532). A write of 1 to MGS_CTRL.READY lets the tally release frames. -/
  | ready (m : Master)
  /-- READY_TIMEOUT (R532). One second after a lamp room reset without READY, releases resume and NOT_READY is set. -/
  | readyTimeout
  /-- WATCHDOG_KICK (R533). A write of the key to MGS_WDOG restarts the watchdog. -/
  | watchdogKick (m : Master) (key : Word)
  /-- WATCHDOG_EXPIRY (R533). The watchdog expires, WDOG is set and the lamp room resets. -/
  | watchdogExpiry
  /-- WQPOP (R535). A write of MGS_WQPOP removes the oldest watch queue entry. -/
  | wqpop (m : Master)
  /-- SAVE (R537). A write of MGS_CFGJ_CMD.SAVE journals N register words as one register-set record. -/
  | save (m : Master) (n : BitVec 6)
  /-- SENSOR_SAMPLE (R539). Every 10 ms the lamp room sensors are sampled and compared with their limits. -/
  | sensorSample (temps tsw vmon : List (BitVec 16)) (vfld ifld : BitVec 16)
  /-- NODE_RECORD (R540). Every 360 s of operating time, at start-up and at input loss a node record is journaled. -/
  | nodeRecord
  /-- OPEN (R543). UPD_CMD OP OPEN starts a register transfer and erases the inactive slot, or is refused. -/
  | openTransfer (m : Master) (kind : BitVec 2)
  /-- UPD_DATA_WRITE (R543). A write to UPD_DATA stores four image bytes at NEXT. -/
  | updDataWrite (m : Master) (data : Word)
  /-- CLOSE (R543). UPD_CMD OP CLOSE starts verification once NEXT equals LENGTH. -/
  | closeTransfer (m : Master)
  /-- UPD_ABORT (R543). UPD_CMD OP ABORT ends the transfer as ABORTED. -/
  | updAbort (m : Master)
  /-- SLOT_ERASE_DONE (R543). The erasure of the inactive slot ends and the transfer reads OPEN. -/
  | slotEraseDone
  /-- VERIFICATION_DONE (R544). Verification ends; the slot reads verified with its digest, or rejected with a reason. -/
  | verificationDone
  /-- ACTIVATE (R547). UPD_CMD OP ACTIVATE checks and starts activation of the inactive slot. -/
  | activate (m : Master) (kind : BitVec 2)
  /-- ROLLBACK (R547). UPD_CMD OP ROLLBACK activates the inactive slot with a rollback record. -/
  | rollback (m : Master) (kind : BitVec 2)
  /-- CONFIRM (R549). UPD_CMD OP CONFIRM from trial firmware appends the commit record and ends the trial. -/
  | confirm (m : Master)
  /-- ACTIVATION_LANES_STOPPED (R548). The last frame's groups have committed, the lanes read stopped and code loading begins. -/
  | activationLanesStopped
  /-- CODE_LOAD_DONE (R548). Code memory and maps are loaded and the lanes' digests are checked. -/
  | codeLoadDone (agree : Bool)
  /-- KEEP_WRITE_DONE (R548). The lamp room has written keep memory and the commit or rollback record is appended. -/
  | keepWriteDone (ok : Bool)
  /-- TRIAL_EXPIRY (R549). Trial firmware is not confirmed in time; the boot ROM rolls back to the other slot. -/
  | trialExpiry
  /-- KEY (R546). A write of 0xF05E to UPD_KEYCMD programs the key hash into the fuses. -/
  | key (m : Master)
  /-- ERROR_ARRIVAL (R556). An error reaches the fault collector and enters its queue, or is lost with LOG_LOST. -/
  | errorArrival
  /-- FAULT_ENTRY (R557). The collector takes an error from its queue, logs it, captures it and posts its ring-115 record. -/
  | faultEntry
  /-- SAFE_RELEASE (R561). A write of 0x5AFE to FLT_SAFE releases the SAFE reaction unless the tally is split. -/
  | safeRelease (m : Master)
  /-- REARM_F (R557). A write of FLT_CTRL.REARM_F re-arms the FIRST capture. -/
  | rearmF (m : Master)
  /-- REARM_G (R557). A write of FLT_CTRL.REARM_G re-arms the GRAVE capture. -/
  | rearmG (m : Master)
  /-- UNHOLD (R562). A write of FLT_CTRL.UNHOLD clears RESET_HELD. -/
  | unhold (m : Master)
  /-- FLT_STATUS_CLEAR (R607). A matching write to FLT_STATUS clears flags and, with bit 1, returns DEGRADED to 0. -/
  | fltStatusClear (m : Master) (data : Word)
  /-- COLLECTOR_SELF_CHECK (R565). Every 1 ms the collector checks its parity and compares its two fast-path copies. -/
  | collectorSelfCheck (parityOk alone : Bool)
  /-- INPUT_PRESENT (R568). A supply input above 34.0 V for 10 ms becomes present. -/
  | inputPresent (x : SupplyInput) (v : BitVec 16)
  /-- INPUT_LOST (R568). A supply input below 31.0 V for 1 ms is lost, with a DEGRADE fault and a supply event. -/
  | inputLost (x : SupplyInput) (v : BitVec 16)
  /-- INPUT_LOSS (R577). No input is present; the node closes the hold switch, sheds loads and enters the power-fail phase. -/
  | inputLoss (hold : BitVec 16)
  /-- HOLD_SWITCH_CLOSE (R575). VBUS falls below 30.0 V and the hold switch connects HOLD to VLB. -/
  | holdSwitchClose
  /-- RIDE (R575). VBUS has been above 31.0 V for 1 ms without a declaration; the hold switch reopens. -/
  | ride (lowest : BitVec 16)
  /-- HOLD_READY (R574). HOLD reaches 68 V and HOLD_OK becomes 1. -/
  | holdReady (v : BitVec 16)
  /-- HOLD_LOW (R574). HOLD falls below 66 V outside power-fail and HOLD_OK becomes 0. -/
  | holdLow (v : BitVec 16)
  /-- LOGIC_FAILING (R578). HOLD below 32 V in power-fail declares the logic supply failing and holds the node in reset. -/
  | logicFailing (hold : BitVec 16)
  /-- POWER_RETURN (R579). An input becomes present during power-fail and the node resets once 60 ms have passed. -/
  | powerReturn
  /-- POWER_GOOD (R569). All four rails have been in tolerance for 1 ms and the start-up proceeds. -/
  | powerGood (fldExt : Bool)
  /-- LOGIC_RAIL_OUT (R570). A rail outside ±7 % for 10 µs reports a RESET-class error. -/
  | logicRailOut (rail : Fin 4)
  /-- BROWNOUT (R570). A rail below 88 % of nominal resets the node at once. -/
  | brownout
  /-- FLD_ILIM_BEGIN (R572). The field buck has limited for 100 µs; FLD_ILIM is set and every group is deferred. -/
  | fldIlimBegin (ifld : BitVec 16)
  /-- FLD_ILIM_END (R572). 1 ms without limiting ends the field current limit state. -/
  | fldIlimEnd (ifld : BitVec 16)
  /-- CRYSTAL_FAIL (R582). The crystal stops, drifts beyond 2 % or the PLL unlocks, reporting a RESET-class error. -/
  | crystalFail
  /-- XTAL_RETRY (R582). At start-up a crystal not running is restarted every 100 ms. -/
  | xtalRetry
  /-- ISLAND_CLOCK_MEASURE (R584). TMB measures an island clock and re-trims it or reports its failure. -/
  | islandClockMeasure (i : Fin 16) (edge : Bool) (err : BitVec 16) (dcos : List (BitVec 16))
  /-- PIN_RESET (R585). RSTN held low for 10 µs resets the node. -/
  | pinReset
  /-- SOFT_RESET (R585). A write of 0x5253 to SUP_RST resets the node. -/
  | softReset (m : Master)
  /-- COMMIT (R212). A write of SEQ_CTRL.COMMIT starts the check of the staging copy. -/
  | seqCommit (m : Master)
  /-- COPY (R212). A write of SEQ_CTRL.COPY copies the active set into the staging copy. -/
  | seqCopy (m : Master)
  /-- COMMIT_CHECK_DONE (R213). The commit check ends; the copy is rejected with a reason or waits for its seam. -/
  | commitCheckDone
  /-- COMMIT_APPLY (R214). At the first seam after a passed check the staging copy is applied and a new cycle begins. -/
  | commitApply
  /-- CYCLE_START (R215). At every CYCLE-th seam a scanned converter begins a new cycle, or CYCLE_LATE is set. -/
  | cycleStart (c : Conv)
  /-- POINT_SETUP_START (R215). A point's setup begins once its stage and sources are free and the previous point has its stage. -/
  | pointSetupStart (c : Conv)
  /-- CONVERTER_RELOCATE (R222). From the seam after a failure its plan carries the converter's points on the others. -/
  | converterRelocate (c : Conv)
  /-- CONVERTER_RESTORE (R223). From the seam after a carried converter is enabled again its own list is restored. -/
  | converterRestore (c : Conv)
  /-- HSP_BAD_FRAME (R66). A host SPI frame whose CMD is none of NOP, READ and WRITE, or that lacks exactly 80 rising edges, is answered BAD_CMD or FRAME_ERR and not executed. -/
  | hspBadFrame (edges : Nat) (cmd : Byte) (addr data : Word) (crc : Byte)
  /-- REMOTE_ACCESS_DONE (R525). A queued remote register access completes on the management bus as master 6, its REG_RSP is sent and the next queued access starts. -/
  | remoteAccessDone
  /-- TRANSMISSION_COMPLETE (R522). A frame on the Ethernet pair or a C port finishes transmission or loses arbitration, freeing transmit queue room for elements waiting at the tally crossing. -/
  | transmissionComplete (medium : Fin 3)
  /-- PTP_DELAY_RESPONSE (R502). A Delay_Resp message of the delay request-response mechanism arrives and the mean path delay is updated. -/
  | ptpDelayResponse (ns : BitVec 32)
  /-- OSCILLATOR_RESTART (R453). The 32.768 kHz oscillator starts giving edges again, OSC_OK becomes 1 and the counters resume from where they stood. -/
  | oscillatorRestart
  /-- RESET_RELEASE (R585). RSTN rises after holding the node in reset, and the start-up proceeds from stage 1. -/
  | resetRelease
  /-- POWER_ON (R569). An input rises above 34.0 V on an unpowered node and the supply manager starts the logic buck within 0.1 ms. -/
  | powerOn
  /-- PLL_LOCK (R581). The PLL locks to the running crystal within 1 ms, PLL_LOCK is set and island DCO trimming can proceed. -/
  | pllLock
  /-- FUSE_SENSING_END (R61). Fuse sensing ends, and the node either continues its start or holds itself in reset when SENSE_OK reads 0. -/
  | fuseSensingEnd (ok : Bool)
  /-- REFN_CHECK (R172). Every 100 ms two supervision converters measure each REFn against their bandgaps and update SVC_REFCHK and ASY_REFERR, setting REF_FAIL on agreement of a deviation. -/
  | refnCheck (c : Conv) (a b : BitVec 16)
  /-- KEY_PROGRAMMING_DONE (R546). The 20 ms programming of the key hash into the fuses ends and KEY_PROG is set. -/
  | keyProgrammingDone
  /-- INPUT_HANDOVER (R567). The other supply input rises above the one carrying VBUS, the ideal diodes hand over and B_CARRIES changes. -/
  | inputHandover
  deriving DecidableEq, Repr

end Sys2Proof
end

