-- ==== Sys2Proof/Machine/LaneState.lean ====
section
/-! DEFINITION. State of the Vupore machine: the register context an instruction acts on, lane threads, lanes, the
lamp room core, the active program image and the tally. Plain data. -/

namespace Sys2Proof.Machine

/-- One loop level: ACTIVE, START, END, REM, COUNT (R264). -/
structure LoopLvl where
  active : Bool
  start : Nat
  stop : Nat
  rem : Nat
  count : Nat
  deriving DecidableEq, Repr

/-- An inactive loop level (R265). -/
def LoopLvl.off : LoopLvl := ⟨false, 0, 0, 0, 0⟩

/-- What a Vupore instruction sees (R235, R264): w0 to w15, Z, N, L, CT, the four loop levels and PC. PC is a code
word address in a lane and a byte address on the lamp room core (R284). -/
structure Cpu where
  regs : List TWord
  z : Bool
  n : Bool
  l : Bool
  ct : Tag
  loops : List LoopLvl
  pc : Nat
  deriving DecidableEq, Repr

/-- The state at a frame release (R235, R265), at entry address `pc`. -/
def Cpu.fresh (pc : Nat) : Cpu :=
  ⟨List.replicate 16 TWord.zero, false, false, false, .good, List.replicate 4 LoopLvl.off, pc⟩

/-- *Table: Thread states* (R231). -/
inductive ThreadState where
  | idle | run | wait | done | halted | faulted
  deriving DecidableEq, Repr

/-- LN_TSTATE.STATE of a thread state (R231). -/
def ThreadState.code : ThreadState → Nat
  | .idle => 0
  | .run => 1
  | .wait => 2
  | .done => 3
  | .halted => 4
  | .faulted => 5

/-- A commit group a thread has open: its records and bytes so far, and whether a record exceeded a limit (R317). -/
structure OpenGroup where
  count : Nat
  bytes : Nat
  exceeded : Bool
  deriving DecidableEq, Repr

/-- A lane thread: its context and its thread control state (R231, R234, R255, R258, R259). -/
structure Thread where
  st : ThreadState
  cpu : Cpu
  used : Nat
  usedLast : Nat
  fcode : Nat
  lastPc : Nat
  overruns : Nat
  haltAt : Option Nat
  waiting : Option (Reg × Nat)
  group : Option OpenGroup
  deriving DecidableEq, Repr

/-- A thread with no image active (R231). -/
def Thread.idle : Thread :=
  ⟨.idle, Cpu.fresh 0, 0, 0, 0, 0, 0, none, none, none⟩

/-- One entry of a fixed ring: its 64 bits, and whether it is a head entry (R247, R248). -/
structure FixedEntry where
  bits : BitVec 64
  head : Bool
  deriving DecidableEq, Repr

/-- A thread fault report of a lane (R256). -/
structure FaultReport where
  thread : Nat
  fcode : Nat
  pc : Nat
  used : Nat
  deriving DecidableEq, Repr

/-- A lane's own fault: an uncorrectable memory error or a parity error (R241). -/
inductive LaneFault where
  | none | keepMemory | codeMemory | parity
  deriving DecidableEq, Repr

/-- One evaluator lane (R227). Keep memory and code memory list the words that differ from 0, GOOD and from 0. -/
structure LaneSt where
  threads : List Thread
  keep : List (Nat × TWord)
  code : List (Nat × Word)
  rings : List (List (BitVec 64))
  fixed : List (List FixedEntry)
  drops : List Nat
  outbox : List Txn
  outboxFull : Bool
  executing : Bool
  frame : Nat
  fPrev : Stamp
  fCur : Stamp
  period : Nat
  powerFail : Bool
  reports : List FaultReport
  fault : LaneFault
  deriving DecidableEq, Repr

/-- A lane after node reset: stopped, memories 0, rings empty. -/
def LaneSt.reset : LaneSt where
  threads := List.replicate 128 Thread.idle
  keep := []
  code := []
  rings := List.replicate 96 []
  fixed := List.replicate 32 []
  drops := List.replicate 128 0
  outbox := []
  outboxFull := false
  executing := false
  frame := 0
  fPrev := 0
  fCur := 0
  period := 0
  powerFail := false
  reports := []
  fault := .none

/-- A keep region of the keep map (R329); bit t of `threads` stands for thread t. -/
structure KeepRegion where
  first : Nat
  count : Nat
  threads : BitVec 128
  deriving DecidableEq, Repr

/-- A KEEPINIT block (R330). -/
structure KeepBlock where
  addr : Nat
  tag : Tag
  vals : List Word
  deriving DecidableEq, Repr

/-- A thread's entry in the thread table (R327). -/
structure ThreadEntry where
  entry : Nat
  budget : Nat
  stop : Bool
  deriving DecidableEq, Repr

/-- A thread's transaction declaration (R332). -/
structure TxnDecl where
  outputs : BitVec 64
  segments : BitVec 64
  zones : BitVec 16
  snx : Bool
  journal : Bool
  regRead : Bool
  regWrite : Bool
  deriving DecidableEq, Repr

/-- A register range declaration (R333). -/
structure RegDecl where
  thread : Nat
  read : Bool
  write : Bool
  base : Nat
  limit : Nat
  deriving DecidableEq, Repr

/-- What the node knows of a lane program image (R322, R327 to R333). -/
structure Image where
  isa : Nat
  version : Word
  lineage : Nat
  terms : BitVec 64
  groups : BitVec 8
  ports : BitVec 8
  panel : Bool
  abase : Nat
  gbase : Nat
  zbase : Nat
  nalm : Nat
  ngrp : Nat
  nzone : Nat
  code : List Word
  threads : List ThreadEntry
  posters : List (BitVec 128)
  takers : List (BitVec 128)
  regions : List KeepRegion
  keepInit : List KeepBlock
  decls : List TxnDecl
  regDecls : List RegDecl
  restore : BitVec 256
  deriving DecidableEq, Repr

/-- A queued thread command (R258). -/
structure ThreadCmd where
  halt : Bool
  after : Nat
  thread : Nat
  deriving DecidableEq, Repr

/-- The phases of a frame at the tally: the seam has passed, the input set is closed, the frame is released. -/
inductive FramePhase where
  | seam | cut | released
  deriving DecidableEq, Repr

/-- The frame in progress (R27): number, F(k), F(k-1), period in ticks; `f0` is the first seam once READY has set it
(R589), `running` whether F0 has passed, `held` whether an activation holds this frame's release (R548). -/
structure FrameSt where
  running : Bool
  f0 : Option Stamp
  k : Nat
  f : Stamp
  fPrev : Stamp
  period : Nat
  phase : FramePhase
  held : Bool
  deriving DecidableEq, Repr

/-- A lane's frame heartbeat (R343). -/
structure Heartbeat where
  frame : Nat
  cycles : Nat
  count : Nat
  digest : BitVec 64
  faults : BitVec 64
  deriving DecidableEq, Repr

/-- A repair in progress (R352): the lane, its donor, whether code memory is copied, the frame of the repair release
and whether the copy has ended. -/
structure Repair where
  lane : LaneId
  donor : LaneId
  code : Bool
  released : Option Nat
  copied : Bool
  deriving DecidableEq, Repr

/-- A transaction on its way from the voters to its destination, `beyond` where its kind's count for the frame deadline
is exceeded (R348). -/
structure HandOn where
  txn : Txn
  beyond : Bool
  deriving DecidableEq, Repr

/-- A commit group being assembled at the JNL crossing for a thread (R317, R348). -/
structure CrossGroup where
  thread : Nat
  recs : List JRec
  withheld : Bool
  deriving DecidableEq, Repr

/-- The tally (R338): records at its crossing, in its store, in the closed set and carried; lanes left out for INPUT and
lanes released into the frame; heartbeats sent and arrived; drifted lanes; the frames of each lane's out-votes and each
voter's disagreements, newest first; RETIRE and RETURN requests; the repair; what is being handed on; whether the last
voted frame was late; its number and seam; and the restore report that awaits the first release. -/
structure Tally where
  crossing : List InRec
  store : List InRec
  cutSet : List InRec
  carried : List InRec
  excluded : List LaneId
  inFrame : List LaneId
  sent : List (Option Heartbeat)
  arrived : List (Option Heartbeat)
  drifted : List LaneId
  history : List (List Nat)
  voterHistory : List (List Nat)
  retireReq : Option LaneId
  returnReq : Option LaneId
  repair : Option Repair
  handOn : List HandOn
  groups : List CrossGroup
  late : Bool
  votedFrame : Nat
  votedSeam : Stamp
  restore : List InRec
  deriving DecidableEq, Repr

/-- No frame yet: the period is the reset value of the scan set, 10 ms (R27). -/
def FrameSt.reset : FrameSt := ⟨false, none, 0, 0, 0, 1000000, .released, false⟩

/-- The tally after node reset. -/
def Tally.reset : Tally where
  crossing := []
  store := []
  cutSet := []
  carried := []
  excluded := []
  inFrame := []
  sent := [none, none, none]
  arrived := [none, none, none]
  drifted := []
  history := [[], [], []]
  voterHistory := [[], [], []]
  retireReq := none
  returnReq := none
  repair := none
  handOn := []
  groups := []
  late := false
  votedFrame := 0
  votedSeam := 0
  restore := []

/-- The lamp room core (R282 to R291). `bank` is the loop bank MSTAT.X does not select; SRAM and ROM list the bytes
that differ from 0, by their offset. -/
structure Core where
  cpu : Cpu
  bank : List LoopLvl
  keep : List (Nat × TWord)
  sram : List (Nat × Byte)
  rom : List (Nat × Byte)
  mstat : Word
  epc : Word
  ecause : Word
  eaddr : Word
  eflags : Word
  vbase : Word
  imask : Word
  ipend : Word
  tmr : Stamp
  tmrStaged : Option Word
  cycles : BitVec 64
  scratch : Word
  waiting : Bool
  deriving DecidableEq, Repr

/-- The core after a lamp room reset: supervisor state at 0xFFFF_0000, memories 0 (R285, R287, R531). -/
def Core.reset : Core where
  cpu := Cpu.fresh 0xFFFF0000
  bank := List.replicate 4 LoopLvl.off
  keep := []
  sram := []
  rom := []
  mstat := 1
  epc := 0
  ecause := 0
  eaddr := 0
  eflags := 0
  vbase := 0xFFFF0100
  imask := 0
  ipend := 0
  tmr := 0xFFFFFFFFFFFFFFFF
  tmrStaged := none
  cycles := 0
  scratch := 0
  waiting := false

end Sys2Proof.Machine
end

