-- ==== Sys2Proof/Config.lean ====
section
/-! DEFINITION. What the spec leaves open: constants without a body, so that nothing can be proved of their values. -/

namespace Sys2Proof.Config

open Sys2Proof.Machine

/-- The n-th free 32-bit value: a value the spec does not state (DESIGN CHOICE, assumption 2). -/
opaque freeWord : Nat → BitVec 32

/-- The CRC-64 of a frame's transactions in outbox order (R343); the spec does not give their byte layout
(DESIGN CHOICE, assumption 5). -/
opaque txnDigest : List Txn → BitVec 64

/-- The CRC-64 of a frame's thread fault reports (R343), whose byte layout the spec does not give (DESIGN CHOICE, assumption 5). -/
opaque faultDigest : List FaultReport → BitVec 64

/-- Whether a converted value between two representable ones is the upper one (DESIGN CHOICE, assumption 50). -/
opaque roundUp : Int → Nat → Bool

/-- The error of an inverted resistance in 1/65536 °C, used up to the 0.002 K that R134 allows (DESIGN CHOICE, assumption 51). -/
opaque rtdError : Int → Nat → Int

/-- The EMF in nV of thermocouple type `ty` at a temperature in Q16.16 °C, by the reference functions of IEC 60584-1,
which the spec names and does not print (R140, DESIGN CHOICE, assumption 52). -/
opaque tcEmf : Nat → Word → Int

/-- The temperature in Q16.16 °C of thermocouple type `ty` at an EMF of `num / den` nV, the inverse of the reference
functions within 0.02 K (R140, DESIGN CHOICE, assumption 52). -/
opaque tcTemp : Nat → Int → Nat → Word

end Sys2Proof.Config
end

