-- ==== Sys2Proof/Machine/Cpu.lean ====
section
/-! DEFINITION. The register context of a Vupore instruction: registers with their tags, pairs, flags, conditions and
loop levels (R235, R236, R264 to R275), and the arithmetic of R271. -/

namespace Sys2Proof.Machine

/-! ## Registers and pairs -/

/-- Register r; w0 reads as 0 with tag GOOD (R235). -/
def Cpu.get (c : Cpu) (r : Reg) : TWord := if r = 0 then TWord.zero else c.regs.getD r.val TWord.zero

/-- The context with register r set; a write to w0 is discarded (R235, R267). -/
def Cpu.set (c : Cpu) (r : Reg) (v : TWord) : Cpu := if r = 0 then c else { c with regs := c.regs.set r.val v }

/-- Whether r may name a pair: an even number from 2 to 14 (R267). -/
def isPair (r : Reg) : Bool := decide (r.val % 2 = 0 ∧ 2 ≤ r.val)

/-- The odd half of the pair r (R267). -/
def hiReg (r : Reg) : Reg := ⟨(r.val + 1) % 16, by omega⟩

/-- The 64-bit value of the pair r, low word in the even register (R267). -/
def Cpu.pair (c : Cpu) (r : Reg) : Nat := (c.get r).val.toNat + 2 ^ 32 * (c.get (hiReg r)).val.toNat

/-- The tag of the pair r as a source: the worse of its halves (R267). -/
def Cpu.pairTag (c : Cpu) (r : Reg) : Tag := (c.get r).tag.worst (c.get (hiReg r)).tag

/-- The context with the pair r set to the low 64 bits of n, both halves with tag t (R267). -/
def Cpu.setPair (c : Cpu) (r : Reg) (n : Nat) (t : Tag) : Cpu :=
  (c.set r ⟨BitVec.ofNat 32 n, t⟩).set (hiReg r) ⟨BitVec.ofNat 32 (n / 2 ^ 32), t⟩

/-- The pair r as a stamp. -/
def Cpu.stamp (c : Cpu) (r : Reg) : Stamp := BitVec.ofNat 64 (c.pair r)

/-- The context with flags Z, N, L and the condition tag set (R264, R269). -/
def Cpu.flags (c : Cpu) (z n l : Bool) (ct : Tag) : Cpu := { c with z := z, n := n, l := l, ct := ct }

/-! ## Conditions -/

/-- Whether the code is one of *Table: Condition codes* (R270). -/
def condOk (k : BitVec 4) : Bool := decide (k.toNat ≤ 10)

/-- *Table: Condition codes* (R270). -/
def Cpu.holds (c : Cpu) (k : BitVec 4) : Bool :=
  match k.toNat with
  | 0 => true
  | 1 => c.z
  | 2 => !c.z
  | 3 => c.n
  | 4 => !c.n
  | 5 => c.n || c.z
  | 6 => !c.n && !c.z
  | 7 => c.l
  | 8 => !c.l
  | 9 => c.l || c.z
  | 10 => !c.l && !c.z
  | _ => false

/-! ## Loop levels -/

/-- The completion rule of R274 for the levels below v, highest first: the levels after it, and where the innermost
unfinished level that ends at `a` loops back to. -/
def loopEnd (a : Nat) : Nat → List LoopLvl → List LoopLvl × Option Nat
  | 0, ls => (ls, none)
  | v + 1, ls =>
    let lv := ls.getD v LoopLvl.off
    if lv.active && lv.stop == a then
      if 1 < lv.rem then (ls.set v { lv with rem := lv.rem - 1 }, some lv.start)
      else loopEnd a v (ls.set v { lv with active := false })
    else loopEnd a v ls

/-- The context after an instruction at its PC completed without a transfer of control, PCs `step` apart (R274). -/
def Cpu.advance (c : Cpu) (step : Nat) : Cpu :=
  match loopEnd c.pc 4 c.loops with
  | (ls, some p) => { c with loops := ls, pc := p }
  | (ls, none) => { c with loops := ls, pc := c.pc + step }

/-! ## Arithmetic of R271 -/

/-- Sign extension of an 18-bit immediate, as an integer (R266). -/
def sext (imm : BitVec 18) : Int := imm.toInt

/-- An integer as a signed 32-bit result: saturated with tag BAD where it cannot be represented (R238). -/
def satS (n : Int) (t : Tag) : TWord :=
  if 0x7FFFFFFF < n then ⟨0x7FFFFFFF#32, .bad⟩
  else if n < -0x80000000 then ⟨0x80000000#32, .bad⟩
  else ⟨BitVec.ofInt 32 n, t⟩

/-- An integer as an unsigned 32-bit result: saturated with tag BAD where it cannot be represented (R238). -/
def satU (n : Int) (t : Tag) : TWord :=
  if 0xFFFFFFFF < n then ⟨0xFFFFFFFF#32, .bad⟩
  else if n < 0 then ⟨0#32, .bad⟩
  else ⟨BitVec.ofInt 32 n, t⟩

/-- An integer as an unsigned 64-bit result with its tag: saturated with tag BAD (R278). -/
def satU64 (n : Int) (t : Tag) : Nat × Tag :=
  if 0xFFFFFFFFFFFFFFFF < n then (0xFFFFFFFFFFFFFFFF, .bad)
  else if n < 0 then (0, .bad)
  else (n.toNat, t)

/-- The quotient n / d rounded to nearest, halves away from 0, for d > 0 (R271, R278). -/
def roundDiv (n : Int) (d : Nat) : Int :=
  if 0 ≤ n then (2 * n + d) / (2 * d) else -((2 * -n + d) / (2 * d))

/-- The Q16.16 product before saturation: (a × b + 2^15) shifted right 16, arithmetic (R271). -/
def mulQ (a b : Int) : Int := (a * b + 0x8000) / 0x10000

/-- What a division by zero gives: the bound on the side of the dividend's sign (R271). -/
def divZero (a : Int) : TWord := if 0 ≤ a then ⟨0x7FFFFFFF#32, .bad⟩ else ⟨0x80000000#32, .bad⟩

/-- An operation of two register operands: values and tag in, result out. -/
abbrev BinOp := TWord → TWord → TWord

/-- The worse tag of two operands. -/
def tags (a b : TWord) : Tag := a.tag.worst b.tag

/-- ADD (R271). -/
def opAdd : BinOp := fun a b => satS (a.val.toInt + b.val.toInt) (tags a b)
/-- SUB (R271). -/
def opSub : BinOp := fun a b => satS (a.val.toInt - b.val.toInt) (tags a b)
/-- ADDU (R271). -/
def opAddu : BinOp := fun a b => satU (a.val.toNat + b.val.toNat) (tags a b)
/-- SUBU (R271). -/
def opSubu : BinOp := fun a b => satU ((a.val.toNat : Int) - b.val.toNat) (tags a b)
/-- ADDW (R271). -/
def opAddw : BinOp := fun a b => ⟨a.val + b.val, tags a b⟩
/-- SUBW (R271). -/
def opSubw : BinOp := fun a b => ⟨a.val - b.val, tags a b⟩
/-- AND (R271). -/
def opAnd : BinOp := fun a b => ⟨a.val &&& b.val, tags a b⟩
/-- OR (R271). -/
def opOr : BinOp := fun a b => ⟨a.val ||| b.val, tags a b⟩
/-- XOR (R271). -/
def opXor : BinOp := fun a b => ⟨a.val ^^^ b.val, tags a b⟩
/-- SHL: 0 for a count of 32 or more (R271). -/
def opShl : BinOp := fun a b => ⟨if 32 ≤ b.val.toNat then 0 else a.val <<< b.val.toNat, tags a b⟩
/-- SHR: 0 for a count of 32 or more (R271). -/
def opShr : BinOp := fun a b => ⟨if 32 ≤ b.val.toNat then 0 else a.val >>> b.val.toNat, tags a b⟩
/-- SAR: the sign in every bit for a count of 32 or more (R271). -/
def opSar : BinOp := fun a b => ⟨a.val.sshiftRight (Nat.min b.val.toNat 31), tags a b⟩
/-- MIN (R271). -/
def opMin : BinOp := fun a b => ⟨if a.val.toInt ≤ b.val.toInt then a.val else b.val, tags a b⟩
/-- MAX (R271). -/
def opMax : BinOp := fun a b => ⟨if a.val.toInt ≤ b.val.toInt then b.val else a.val, tags a b⟩
/-- MINU (R271). -/
def opMinu : BinOp := fun a b => ⟨if a.val.toNat ≤ b.val.toNat then a.val else b.val, tags a b⟩
/-- MAXU (R271). -/
def opMaxu : BinOp := fun a b => ⟨if a.val.toNat ≤ b.val.toNat then b.val else a.val, tags a b⟩
/-- MUL (R271). -/
def opMul : BinOp := fun a b => satS (a.val.toInt * b.val.toInt) (tags a b)
/-- MULH: bits 63 to 32 of the signed product (R271). -/
def opMulh : BinOp := fun a b => ⟨BitVec.ofInt 32 (a.val.toInt * b.val.toInt / 0x100000000), tags a b⟩
/-- MULQ (R271). -/
def opMulq : BinOp := fun a b => satS (mulQ a.val.toInt b.val.toInt) (tags a b)
/-- DIV: truncated toward 0 (R271). -/
def opDiv : BinOp := fun a b =>
  if b.val = 0 then divZero a.val.toInt else satS (a.val.toInt.tdiv b.val.toInt) (tags a b)
/-- DIVU (R271). -/
def opDivu : BinOp := fun a b =>
  if b.val = 0 then ⟨0xFFFFFFFF#32, .bad⟩ else ⟨BitVec.ofNat 32 (a.val.toNat / b.val.toNat), tags a b⟩
/-- REM: the sign of the dividend (R271). -/
def opRem : BinOp := fun a b =>
  if b.val = 0 then ⟨0#32, .bad⟩ else ⟨BitVec.ofInt 32 (a.val.toInt.tmod b.val.toInt), tags a b⟩
/-- DIVQ: (a × 2^16) / b, truncated toward 0 (R271). -/
def opDivq : BinOp := fun a b =>
  if b.val = 0 then divZero a.val.toInt
  else satS ((a.val.toInt * 0x10000).tdiv b.val.toInt) (tags a b)

/-- ABS (R271). -/
def opAbs (a : TWord) : TWord := satS a.val.toInt.natAbs a.tag
/-- NEG (R271). -/
def opNeg (a : TWord) : TWord := satS (-a.val.toInt) a.tag
/-- QFI: integer to Q16.16 (R271). -/
def opQfi (a : TWord) : TWord := satS (a.val.toInt * 0x10000) a.tag
/-- QTI: Q16.16 to integer, rounded to nearest, halves away from 0 (R271). -/
def opQti (a : TWord) : TWord := ⟨BitVec.ofInt 32 (roundDiv a.val.toInt 0x10000), a.tag⟩

/-- LAG of the old result r, the input a and the factor b clamped to 0 to 0x0001_0000 (R271). -/
def opLag (r a b : TWord) : TWord :=
  let k : Int := if b.val.toInt < 0 then 0 else if 0x10000 < b.val.toInt then 0x10000 else b.val.toInt
  let t : Tag := if k = b.val.toInt then (r.tag.worst a.tag).worst b.tag else .bad
  ⟨BitVec.ofInt 32 (r.val.toInt + mulQ (a.val.toInt - r.val.toInt) k), t⟩

/-- The flags of CMP: equal, below signed, below unsigned (R272). -/
def Cpu.compare (c : Cpu) (a b : TWord) : Cpu :=
  c.flags (decide (a.val = b.val)) (decide (a.val.toInt < b.val.toInt)) (decide (a.val.toNat < b.val.toNat)) (tags a b)

end Sys2Proof.Machine
end

