-- ==== Sys2Proof/Machine/Map.lean ====
section
/-! DEFINITION. The management address map (R38, R40): the address of every register of the spec's register
tables, the place of every field, and one row per register with its type, reserved bits and reset value. -/

namespace Sys2Proof.Machine

/-- The place of a field in its register: bits `hi` down to `lo`, as the tables write FIELD[hi:lo]. -/
structure Fld where
  hi : Nat
  lo : Nat
  deriving DecidableEq, Repr

/-- The register types of *Table: Register types* (R48). -/
inductive RegKind where
  | ro | rw | wo | sq | lk
  deriving DecidableEq, Repr

/-- One row of the map: the address of the first instance, two strides with their counts, the type, the bits that are
not reserved, the bits a write stores, the masters that may write it (bit m for master m) and the reset value. -/
structure RegRow where
  base : Nat
  stride1 : Nat
  count1 : Nat
  stride2 : Nat
  count2 : Nat
  kind : RegKind
  legal : Nat
  stored : Nat
  writers : Nat
  reset : Nat
  deriving DecidableEq, Repr

namespace A

/-! Addresses of the ID registers. -/
def idBlkId : Nat := 0x00000000
def idPart : Nat := 0x00000004
def idVariant : Nat := 0x00000008
def idStepping : Nat := 0x0000000C
def idUniqueLo : Nat := 0x00000010
def idUniqueHi : Nat := 0x00000014
def idIsa : Nat := 0x00000018
def idFuse : Nat := 0x0000001C
def idKeyhash (n : Nat) : Nat := 0x00000040 + 0x4 * n

/-! Addresses of the HSP registers. -/
def hspBlkId : Nat := 0x00700000
def hspCtrl : Nat := 0x00700004
def hspStatus : Nat := 0x00700008
def hspErrcnt : Nat := 0x0070000C
def hspAttnMask : Nat := 0x00700010

/-! Addresses of the TRM registers. -/
def trmBlkId (n : Nat) : Nat := 0x00100000 + 0x100 * n
def trmMode (n : Nat) : Nat := 0x00100004 + 0x100 * n
def trmDi (n : Nat) : Nat := 0x00100008 + 0x100 * n
def trmDeb (n : Nat) : Nat := 0x0010000C + 0x100 * n
def trmDo (n : Nat) : Nat := 0x00100010 + 0x100 * n
def trmLoop (n : Nat) : Nat := 0x00100014 + 0x100 * n
def trmState (n : Nat) : Nat := 0x00100018 + 0x100 * n
def trmStatus (n : Nat) : Nat := 0x0010001C + 0x100 * n
def trmIout (n : Nat) : Nat := 0x00100020 + 0x100 * n
def trmCnt (n : Nat) : Nat := 0x00100024 + 0x100 * n
def trmGcfg (n : Nat) : Nat := 0x00100028 + 0x100 * n
def trmGmeas (n : Nat) : Nat := 0x0010002C + 0x100 * n
def trmGstate (n : Nat) : Nat := 0x00100030 + 0x100 * n
def trmGstatus (n : Nat) : Nat := 0x00100034 + 0x100 * n

/-! Addresses of the TSU registers. -/
def tsuBlkId : Nat := 0x00170000
def tsuCtrl : Nat := 0x00170004
def tsuStatus : Nat := 0x00170008
def tsuLevel : Nat := 0x0017000C

/-! Addresses of the MUX registers. -/
def muxBlkId : Nat := 0x00110000
def muxCtrl : Nat := 0x00110004
def muxStatus : Nat := 0x00110008
def muxRetLo : Nat := 0x0011000C
def muxRetHi : Nat := 0x00110010
def muxCmw (n : Nat) : Nat := 0x00110020 + 0x4 * n
def muxCjs (n : Nat) : Nat := 0x00110030 + 0x4 * n
def muxStg (n : Nat) : Nat := 0x00110080 + 0x4 * n
def muxTopt (n : Nat) : Nat := 0x00110100 + 0x4 * n
def muxRlead (n : Nat) : Nat := 0x00110200 + 0x4 * n

/-! Addresses of the EXC registers. -/
def excBlkId : Nat := 0x00120000
def excCtrl : Nat := 0x00120004
def excStatus : Nat := 0x00120008
def excComplNow : Nat := 0x0012000C
def excCalfailNow : Nat := 0x00120010
def excSrc (n : Nat) : Nat := 0x00120040 + 0x4 * n
def excState (n : Nat) : Nat := 0x00120080 + 0x4 * n
def excCal (n : Nat) : Nat := 0x001200C0 + 0x4 * n

/-! Addresses of the ASY registers. -/
def asyBlkId (n : Nat) : Nat := 0x00130000 + 0x1000 * n
def asyCtrl (n : Nat) : Nat := 0x00130004 + 0x1000 * n
def asyState (n : Nat) : Nat := 0x00130008 + 0x1000 * n
def asyStatus (n : Nat) : Nat := 0x0013000C + 0x1000 * n
def asyAr (n : Nat) : Nat := 0x00130010 + 0x1000 * n
def asyBlank (n : Nat) : Nat := 0x00130014 + 0x1000 * n
def asyLoad (n : Nat) : Nat := 0x00130018 + 0x1000 * n
def asyLast (n : Nat) : Nat := 0x00130020 + 0x1000 * n
def asyLastPoint (n : Nat) : Nat := 0x00130024 + 0x1000 * n
def asyLastStampLo (n : Nat) : Nat := 0x00130028 + 0x1000 * n
def asyLastStampHi (n : Nat) : Nat := 0x0013002C + 0x1000 * n
def asyCnt (n : Nat) : Nat := 0x00130030 + 0x1000 * n
def asyCnt2 (n : Nat) : Nat := 0x00130034 + 0x1000 * n
def asyGcal (n j : Nat) : Nat := 0x00130040 + 0x1000 * n + 0x4 * j
def asyReferr (n : Nat) : Nat := 0x00130050 + 0x1000 * n

/-! Addresses of the SVC registers. -/
def svcBlkId : Nat := 0x00140000
def svcCtrl : Nat := 0x00140004
def svcStatus : Nat := 0x00140008
def svcState : Nat := 0x0014000C
def svcLateCnt : Nat := 0x00140010
def svcRefchk (n : Nat) : Nat := 0x00140020 + 0x4 * n
def svcTv (n : Nat) : Nat := 0x00140100 + 0x4 * n
def svcIloop (n : Nat) : Nat := 0x00140200 + 0x4 * n

/-! Addresses of the HRT registers. -/
def hrtBlkId : Nat := 0x00150000
def hrtCtrl : Nat := 0x00150004
def hrtMcfg (n : Nat) : Nat := 0x00150100 + 0x200 * n
def hrtMcmd (n : Nat) : Nat := 0x00150104 + 0x200 * n
def hrtMstate (n : Nat) : Nat := 0x00150108 + 0x200 * n
def hrtMstatus (n : Nat) : Nat := 0x0015010C + 0x200 * n
def hrtMtxlen (n : Nat) : Nat := 0x00150110 + 0x200 * n
def hrtMtimeout (n : Nat) : Nat := 0x00150114 + 0x200 * n
def hrtMerr (n : Nat) : Nat := 0x00150118 + 0x200 * n
def hrtMtxbuf (n j : Nat) : Nat := 0x00150140 + 0x200 * n + 0x4 * j
def hrtMrxbuf (n j : Nat) : Nat := 0x001501C0 + 0x200 * n + 0x4 * j
def hrtLcfg (n : Nat) : Nat := 0x00151000 + 0x20 * n
def hrtLrb (n : Nat) : Nat := 0x00151004 + 0x20 * n
def hrtLgain (n : Nat) : Nat := 0x00151008 + 0x20 * n
def hrtLofs (n : Nat) : Nat := 0x0015100C + 0x20 * n
def hrtLcur (n : Nat) : Nat := 0x00151010 + 0x20 * n
def hrtLstate (n : Nat) : Nat := 0x00151014 + 0x20 * n
def hrtLstatus (n : Nat) : Nat := 0x00151018 + 0x20 * n

/-! Addresses of the SEQ registers. -/
def sdMode (n : Nat) : Nat := 0x00168000 + 0x20 * n
def sdTerm (n : Nat) : Nat := 0x00168004 + 0x20 * n
def sdLo (n : Nat) : Nat := 0x00168008 + 0x20 * n
def sdHi (n : Nat) : Nat := 0x0016800C + 0x20 * n
def sdVspan (n : Nat) : Nat := 0x00168010 + 0x20 * n
def sdExc (n : Nat) : Nat := 0x00168014 + 0x20 * n
def sdTime (n : Nat) : Nat := 0x00168018 + 0x20 * n
def seqBlkId : Nat := 0x00160000
def seqCtrl : Nat := 0x00160004
def seqStatus : Nat := 0x00160008
def seqCommit : Nat := 0x0016000C
def seqFrame : Nat := 0x00160010
def seqFrameAct : Nat := 0x00160014
def seqCommitHi : Nat := 0x00160018
def seqFrameCnt : Nat := 0x0016001C
def seqNextSeamLo : Nat := 0x00160020
def seqNextSeamHi : Nat := 0x00160024
def seqClist (n : Nat) : Nat := 0x00160040 + 0x4 * n
def seqClistAct (n : Nat) : Nat := 0x00160060 + 0x4 * n
def seqPlan (n : Nat) : Nat := 0x00160080 + 0x4 * n
def seqRun (n : Nat) : Nat := 0x001600A0 + 0x4 * n
def saMode (n : Nat) : Nat := 0x0016C000 + 0x20 * n
def saTerm (n : Nat) : Nat := 0x0016C004 + 0x20 * n
def saLo (n : Nat) : Nat := 0x0016C008 + 0x20 * n
def saHi (n : Nat) : Nat := 0x0016C00C + 0x20 * n
def saVspan (n : Nat) : Nat := 0x0016C010 + 0x20 * n
def saExc (n : Nat) : Nat := 0x0016C014 + 0x20 * n
def saTime (n : Nat) : Nat := 0x0016C018 + 0x20 * n

/-! Addresses of the LN registers. -/
def lnBlkId (n : Nat) : Nat := 0x00200000 + 0x40000 * n
def lnState (n : Nat) : Nat := 0x00200004 + 0x40000 * n
def lnStatus (n : Nat) : Nat := 0x00200008 + 0x40000 * n
def lnCycles (n : Nat) : Nat := 0x0020000C + 0x40000 * n
def lnFrameLo (n : Nat) : Nat := 0x00200010 + 0x40000 * n
def lnFrameHi (n : Nat) : Nat := 0x00200014 + 0x40000 * n
def lnCeil (n : Nat) : Nat := 0x00200018 + 0x40000 * n
def lnEcc (n : Nat) : Nat := 0x0020001C + 0x40000 * n
def lnCodedig (n : Nat) : Nat := 0x00200020 + 0x40000 * n
def lnInbuf (n : Nat) : Nat := 0x00200024 + 0x40000 * n
def lnUntaken (n : Nat) : Nat := 0x00200028 + 0x40000 * n
def lnTcmd (n : Nat) : Nat := 0x00200040 + 0x40000 * n
def lnTcmdq (n : Nat) : Nat := 0x00200044 + 0x40000 * n
def lnTstate (n j : Nat) : Nat := 0x00200400 + 0x40000 * n + 0x8 * j
def lnTpc (n j : Nat) : Nat := 0x00200404 + 0x40000 * n + 0x8 * j
def lnTbudget (n j : Nat) : Nat := 0x00200800 + 0x40000 * n + 0x4 * j
def lnRing (n j : Nat) : Nat := 0x00200C00 + 0x40000 * n + 0x4 * j
def lnKtag (n j : Nat) : Nat := 0x00210000 + 0x40000 * n + 0x4 * j
def lnKeep (n j : Nat) : Nat := 0x00220000 + 0x40000 * n + 0x4 * j

/-! Addresses of the TLY registers. -/
def tlyBlkId : Nat := 0x002C0000
def tlyCtrl : Nat := 0x002C0004
def tlyState : Nat := 0x002C0008
def tlyStatus : Nat := 0x002C000C
def tlyVframeLo : Nat := 0x002C0010
def tlyVframeHi : Nat := 0x002C0014
def tlyHandon : Nat := 0x002C0018
def tlyInset : Nat := 0x002C001C
def tlyRejoin : Nat := 0x002C0020
def tlyWithheld : Nat := 0x002C0024
def tlyLatein : Nat := 0x002C0028
def tlyLane (n : Nat) : Nat := 0x002C0040 + 0x4 * n
def tlyLast (n : Nat) : Nat := 0x002C0050 + 0x4 * n
def tlyClk (n : Nat) : Nat := 0x002C0060 + 0x4 * n
def tlyVoter (n : Nat) : Nat := 0x002C0070 + 0x4 * n

/-! Addresses of the TRP registers. -/
def trpBlkId : Nat := 0x00300000
def trpLock : Nat := 0x00300004
def trpStatus : Nat := 0x00300008
def trpAssert : Nat := 0x0030000C
def trpLatched : Nat := 0x00300010
def trpReset : Nat := 0x00300014
def trpCnt : Nat := 0x00300018
def trpCfg (n : Nat) : Nat := 0x00300100 + 0x20 * n
def trpLita (n : Nat) : Nat := 0x00300104 + 0x20 * n
def trpLitb (n : Nat) : Nat := 0x00300108 + 0x20 * n
def trpOutlo (n : Nat) : Nat := 0x0030010C + 0x20 * n
def trpOuthi (n : Nat) : Nat := 0x00300110 + 0x20 * n
def trpStampLo (n : Nat) : Nat := 0x00300114 + 0x20 * n
def trpStampHi (n : Nat) : Nat := 0x00300118 + 0x20 * n

/-! Addresses of the OUT registers. -/
def outBlkId : Nat := 0x00310000
def outStatus : Nat := 0x00310004
def outIgnored : Nat := 0x00310008
def outSafe : Nat := 0x0031000C
def outCfg (n : Nat) : Nat := 0x00310100 + 0x10 * n
def outState (n : Nat) : Nat := 0x00310104 + 0x10 * n

/-! Addresses of the SUP registers. -/
def supPmtCfg : Nat := 0x00010100
def supPmtState : Nat := 0x00010104
def supPmtStatus : Nat := 0x00010108
def supPmtCnt : Nat := 0x0001010C
def supBlkId : Nat := 0x00010000
def supCtrl : Nat := 0x00010004
def supState : Nat := 0x00010008
def supStatus : Nat := 0x0001000C
def supVin : Nat := 0x00010010
def supHold : Nat := 0x00010014
def supFld : Nat := 0x00010018
def supReset : Nat := 0x0001001C
def supRst : Nat := 0x00010020
def supBoot : Nat := 0x00010024
def supRides : Nat := 0x00010028

/-! Addresses of the MGS registers. -/
def mgsHcmdArg : Nat := 0x00070200
def mgsHcmd : Nat := 0x00070204
def mgsHcmdState : Nat := 0x00070208
def mgsBlkId : Nat := 0x00070000
def mgsCtrl : Nat := 0x00070004
def mgsStatus : Nat := 0x00070008
def mgsWdog : Nat := 0x0007000C
def mgsResets : Nat := 0x00070010
def mgsOpsecsLo : Nat := 0x00070014
def mgsOpsecsHi : Nat := 0x00070018
def mgsCycles : Nat := 0x0007001C
def mgsCfgskip : Nat := 0x00070020
def mgsTemp (n : Nat) : Nat := 0x00070040 + 0x4 * n
def mgsTlim : Nat := 0x00070070
def mgsVmon (n : Nat) : Nat := 0x00070080 + 0x4 * n
def mgsTsw (n : Nat) : Nat := 0x00070100 + 0x4 * n
def mgsCfgjAddr : Nat := 0x00070300
def mgsCfgjCmd : Nat := 0x00070304
def mgsCfgjState : Nat := 0x00070308
def mgsWatchBase (n : Nat) : Nat := 0x00070400 + 0x8 * n
def mgsWatchLim (n : Nat) : Nat := 0x00070404 + 0x8 * n
def mgsWq : Nat := 0x00070600
def mgsWqpop : Nat := 0x00070604

/-! Addresses of the JNL registers. -/
def jnlBlkId : Nat := 0x00060000
def jnlCtrl : Nat := 0x00060004
def jnlState : Nat := 0x00060008
def jnlStatus : Nat := 0x0006000C
def jnlSeqLo : Nat := 0x00060010
def jnlSeqHi : Nat := 0x00060014
def jnlMaxstampLo : Nat := 0x00060018
def jnlMaxstampHi : Nat := 0x0006001C
def jnlCaddy : Nat := 0x00060020
def jnlRecov : Nat := 0x00060024
def jnlCnt : Nat := 0x00060028
def jnlCompact : Nat := 0x0006002C
def jnlInLo : Nat := 0x00060030
def jnlInHi : Nat := 0x00060034
def jnlProgLo : Nat := 0x00060038
def jnlProgHi : Nat := 0x0006003C
def jnlLive : Nat := 0x00060040
def jnlIdent : Nat := 0x00060044
def jnlSeg (n : Nat) : Nat := 0x00060100 + 0x4 * n
def jnlKey0 : Nat := 0x00060400
def jnlKey1 : Nat := 0x00060404
def jnlLook : Nat := 0x00060408
def jnlLookState : Nat := 0x0006040C
def jnlLookSeqLo : Nat := 0x00060410
def jnlLookSeqHi : Nat := 0x00060414
def jnlRwin (n : Nat) : Nat := 0x00060500 + 0x4 * n
def jnlWhdr : Nat := 0x00060600
def jnlWsubj : Nat := 0x00060604
def jnlWstampLo : Nat := 0x00060608
def jnlWstampHi : Nat := 0x0006060C
def jnlWlen : Nat := 0x00060610
def jnlWcmd : Nat := 0x00060614
def jnlWstate : Nat := 0x00060618
def jnlWseq : Nat := 0x0006061C
def jnlWbuf (n : Nat) : Nat := 0x00060700 + 0x4 * n
def jnlFaddr : Nat := 0x00060800
def jnlFcmd : Nat := 0x00060804
def jnlFstate : Nat := 0x00060808
def jnlFdata (n : Nat) : Nat := 0x00060810 + 0x4 * n

/-! Addresses of the EVR registers. -/
def evrBlkId : Nat := 0x00050000
def evrCtrl : Nat := 0x00050004
def evrStatus : Nat := 0x00050008
def evrState : Nat := 0x0005000C
def evrNextseq : Nat := 0x00050010
def evrDrops : Nat := 0x00050014
def evrSwtrig : Nat := 0x00050018
def evrClear : Nat := 0x0005001C
def evrCursor : Nat := 0x00050020
def evrWseq : Nat := 0x00050024
def evrWend : Nat := 0x00050028
def evrWrptLo : Nat := 0x0005002C
def evrWrptHi : Nat := 0x00050030
def evrTrg (n : Nat) : Nat := 0x00050040 + 0x4 * n
def evrTmatch (n : Nat) : Nat := 0x000500C0 + 0x4 * n
def evrList (n j : Nat) : Nat := 0x00050200 + 0x40 * n + 0x4 * j
def evrWin (n : Nat) : Nat := 0x00050400 + 0x4 * n

/-! Addresses of the RTC registers. -/
def rtcBlkId : Nat := 0x00040000
def rtcSubsec : Nat := 0x00040004
def rtcSec : Nat := 0x00040008
def rtcMin : Nat := 0x0004000C
def rtcHour : Nat := 0x00040010
def rtcDate : Nat := 0x00040014
def rtcMonth : Nat := 0x00040018
def rtcYear : Nat := 0x0004001C
def rtcFlags : Nat := 0x00040020
def rtcFclr : Nat := 0x00040024
def rtcCal : Nat := 0x00040028
def rtcStatus : Nat := 0x0004002C
def rtcVbat : Nat := 0x00040030
def rtcStage : Nat := 0x00040034
def rtcGate : Nat := 0x00040038

/-! Addresses of the PNL registers. -/
def pnlBlkId : Nat := 0x00400000
def pnlCtrl : Nat := 0x00400004
def pnlStatus : Nat := 0x00400008
def pnlState : Nat := 0x0040000C
def pnlVcom : Nat := 0x00400010
def pnlTemp : Nat := 0x00400014
def pnlAge : Nat := 0x00400018
def pnlPfcfg : Nat := 0x0040001C
def pnlRecov : Nat := 0x00400020
def pnlWver : Nat := 0x00400024
def pnlWstg : Nat := 0x00400028
def pnlWcmd : Nat := 0x0040002C
def pnlCnt : Nat := 0x00400030
def pnlTscale (n : Nat) : Nat := 0x00400040 + 0x4 * n
def pnlTgt (n : Nat) : Nat := 0x00400080 + 0x4 * n
def pnlBel (n : Nat) : Nat := 0x004000C0 + 0x4 * n
def pnlSeg (n : Nat) : Nat := 0x00400100 + 0x4 * n
def pnlStress (n : Nat) : Nat := 0x00400200 + 0x4 * n
def pnlWave (n j : Nat) : Nat := 0x00400400 + 0x10 * n + 0x4 * j
def pnlWact (n j : Nat) : Nat := 0x00400800 + 0x10 * n + 0x4 * j

/-! Addresses of the NET registers. -/
def netBlkId : Nat := 0x00500000
def netCtrl : Nat := 0x00500004
def netStatus : Nat := 0x00500008
def netNodeid : Nat := 0x0050000C
def netMacLo : Nat := 0x00500010
def netMacHi : Nat := 0x00500014
def netVlan : Nat := 0x00500018
def netCnt : Nat := 0x0050001C
def netPcfg (n : Nat) : Nat := 0x00500020 + 0x10 * n
def netPstate (n : Nat) : Nat := 0x00500024 + 0x10 * n
def netPrx (n : Nat) : Nat := 0x00500028 + 0x10 * n
def netPerr (n : Nat) : Nat := 0x0050002C + 0x10 * n
def netPrpcfg : Nat := 0x00500040
def netPrp : Nat := 0x00500044
def netMdio : Nat := 0x00500048
def netMdioData : Nat := 0x0050004C
def netRcnt : Nat := 0x00500050
def netPtpcfg : Nat := 0x00500080
def netPtpstate : Nat := 0x00500084
def netOfsLo : Nat := 0x00500088
def netOfsHi : Nat := 0x0050008C
def netTheta : Nat := 0x00500090
def netRate : Nat := 0x00500094
def netPathdly : Nat := 0x00500098
def netGmLo : Nat := 0x005000A0
def netGmHi : Nat := 0x005000A4
def netCcfg (n : Nat) : Nat := 0x00500800 + 0x100 * n
def netCnbt (n : Nat) : Nat := 0x00500804 + 0x100 * n
def netCdbt (n : Nat) : Nat := 0x00500808 + 0x100 * n
def netCstate (n : Nat) : Nat := 0x0050080C + 0x100 * n
def netCcnt (n : Nat) : Nat := 0x00500810 + 0x100 * n
def netAcfg (n : Nat) : Nat := 0x00501000 + 0x10 * n
def netAsub (n : Nat) : Nat := 0x00501004 + 0x10 * n
def netAstate (n : Nat) : Nat := 0x00501008 + 0x10 * n
def netAcnt (n : Nat) : Nat := 0x0050100C + 0x10 * n

/-! Addresses of the UPD registers. -/
def updBlkId : Nat := 0x00600000
def updCfg : Nat := 0x00600004
def updCmd : Nat := 0x00600008
def updLen : Nat := 0x0060000C
def updData : Nat := 0x00600010
def updState : Nat := 0x00600014
def updNext : Nat := 0x00600018
def updStatus : Nat := 0x0060001C
def updDetail : Nat := 0x00600020
def updSlot (n : Nat) : Nat := 0x00600040 + 0x10 * n
def updSver (n : Nat) : Nat := 0x00600044 + 0x10 * n
def updSlen (n : Nat) : Nat := 0x00600048 + 0x10 * n
def updDig (n j : Nat) : Nat := 0x00600100 + 0x20 * n + 0x4 * j
def updKeystg (n : Nat) : Nat := 0x00600200 + 0x4 * n
def updKeycmd : Nat := 0x00600220

/-! Addresses of the FLT registers. -/
def fltBlkId : Nat := 0x00030000
def fltCtrl : Nat := 0x00030004
def fltStatus : Nat := 0x00030008
def fltState : Nat := 0x0003000C
def fltSafe : Nat := 0x00030010
def fltRescnt : Nat := 0x00030014
def fltNotice : Nat := 0x00030018
def fltCnt (n : Nat) : Nat := 0x00030020 + 0x4 * n
def fltFirst (n : Nat) : Nat := 0x00030040 + 0x4 * n
def fltGrave (n : Nat) : Nat := 0x00030060 + 0x4 * n
def fltLogsel : Nat := 0x00030080
def fltLseq : Nat := 0x00030084
def fltLe (n : Nat) : Nat := 0x000300A0 + 0x4 * n
def fltSrc (n : Nat) : Nat := 0x00030200 + 0x4 * n

/-! Addresses of the TMB registers. -/
def tmbBlkId : Nat := 0x00020000
def tmbState : Nat := 0x00020004
def tmbStatus : Nat := 0x00020008
def tmbTbcLo : Nat := 0x00020010
def tmbTbcHi : Nat := 0x00020014
def tmbStartLo : Nat := 0x00020018
def tmbStartHi : Nat := 0x0002001C
def tmbRate : Nat := 0x00020020
def tmbIsl (n : Nat) : Nat := 0x00020040 + 0x4 * n
def tmbRetrims (n : Nat) : Nat := 0x00020080 + 0x4 * n

end A

namespace F

/-! Fields of *Table: ID block registers* (R59). -/
def idPart_vendor : Fld := ⟨31, 16⟩
def idPart_family : Fld := ⟨15, 0⟩
def idStepping_majorstep : Fld := ⟨15, 8⟩
def idStepping_minorstep : Fld := ⟨7, 0⟩
def idUniqueLo_serial : Fld := ⟨31, 0⟩
def idUniqueHi_serial : Fld := ⟨31, 0⟩
def idIsa_isam : Fld := ⟨15, 8⟩
def idIsa_isa : Fld := ⟨7, 0⟩
def idFuse_keyset : Fld := ⟨1, 1⟩
def idFuse_senseok : Fld := ⟨0, 0⟩
def idKeyhash_hash : Fld := ⟨31, 0⟩

/-! Fields of *Table: HSP registers* (R71). -/
def hspCtrl_access : Fld := ⟨1, 0⟩
def hspStatus_seq : Fld := ⟨31, 24⟩
def hspStatus_fault : Fld := ⟨6, 6⟩
def hspStatus_pending : Fld := ⟨5, 5⟩
def hspStatus_denied : Fld := ⟨4, 4⟩
def hspStatus_buserr : Fld := ⟨3, 3⟩
def hspStatus_badcmd : Fld := ⟨2, 2⟩
def hspStatus_frameerr : Fld := ⟨1, 1⟩
def hspStatus_crcerr : Fld := ⟨0, 0⟩
def hspErrcnt_frames : Fld := ⟨31, 16⟩
def hspErrcnt_crcs : Fld := ⟨15, 0⟩
def hspAttnMask_mask : Fld := ⟨6, 0⟩

/-! Fields of *Table: TRM registers* (R112). -/
def trmMode_mode : Fld := ⟨3, 0⟩
def trmDi_thr : Fld := ⟨16, 8⟩
def trmDi_edge : Fld := ⟨7, 6⟩
def trmDi_hyst : Fld := ⟨5, 3⟩
def trmDi_sink : Fld := ⟨2, 2⟩
def trmDi_type : Fld := ⟨1, 0⟩
def trmDeb_deb : Fld := ⟨15, 0⟩
def trmDo_limittime : Fld := ⟨15, 8⟩
def trmDo_oloff : Fld := ⟨7, 7⟩
def trmDo_olon : Fld := ⟨6, 6⟩
def trmDo_retry : Fld := ⟨5, 4⟩
def trmDo_par : Fld := ⟨3, 2⟩
def trmDo_slew : Fld := ⟨1, 0⟩
def trmLoop_pwr : Fld := ⟨0, 0⟩
def trmState_gov : Fld := ⟨17, 16⟩
def trmState_modeact : Fld := ⟨15, 12⟩
def trmState_busy : Fld := ⟨11, 11⟩
def trmState_overtempnow : Fld := ⟨10, 10⟩
def trmState_offlatched : Fld := ⟨9, 9⟩
def trmState_miswirenow : Fld := ⟨8, 8⟩
def trmState_loopsw : Fld := ⟨7, 7⟩
def trmState_permitwait : Fld := ⟨6, 6⟩
def trmState_demag : Fld := ⟨5, 5⟩
def trmState_limit : Fld := ⟨4, 4⟩
def trmState_sw : Fld := ⟨3, 3⟩
def trmState_cmd : Fld := ⟨2, 2⟩
def trmState_level : Fld := ⟨1, 1⟩
def trmState_di : Fld := ⟨0, 0⟩
def trmStatus_seq : Fld := ⟨31, 24⟩
def trmStatus_modedone : Fld := ⟨8, 8⟩
def trmStatus_loopshort : Fld := ⟨7, 7⟩
def trmStatus_orphan : Fld := ⟨6, 6⟩
def trmStatus_share : Fld := ⟨5, 5⟩
def trmStatus_openload : Fld := ⟨4, 4⟩
def trmStatus_overtemp : Fld := ⟨3, 3⟩
def trmStatus_overload : Fld := ⟨2, 2⟩
def trmStatus_miswire : Fld := ⟨1, 1⟩
def trmStatus_dichange : Fld := ⟨0, 0⟩
def trmIout_iout : Fld := ⟨15, 0⟩
def trmCnt_overloads : Fld := ⟨31, 16⟩
def trmCnt_glitches : Fld := ⟨15, 0⟩
def trmGcfg_uv : Fld := ⟨4, 0⟩
def trmGmeas_ifld : Fld := ⟨31, 16⟩
def trmGmeas_vfld : Fld := ⟨15, 0⟩
def trmGstate_overnow : Fld := ⟨1, 1⟩
def trmGstate_fldok : Fld := ⟨0, 0⟩
def trmGstatus_seq : Fld := ⟨31, 24⟩
def trmGstatus_grpover : Fld := ⟨2, 2⟩
def trmGstatus_fldret : Fld := ⟨1, 1⟩
def trmGstatus_fldlow : Fld := ⟨0, 0⟩

/-! Fields of *Table: TSU registers* (R114). -/
def tsuCtrl_en : Fld := ⟨0, 0⟩
def tsuStatus_seq : Fld := ⟨31, 24⟩
def tsuStatus_overflow : Fld := ⟨0, 0⟩
def tsuLevel_lost : Fld := ⟨31, 16⟩
def tsuLevel_level : Fld := ⟨8, 0⟩

/-! Fields of *Table: MUX registers* (R144). -/
def muxCtrl_disch : Fld := ⟨25, 16⟩
def muxCtrl_gap : Fld := ⟨7, 0⟩
def muxStatus_seq : Fld := ⟨31, 24⟩
def muxStatus_cjsfail : Fld := ⟨1, 1⟩
def muxStatus_retlimit : Fld := ⟨0, 0⟩
def muxRetLo_ret : Fld := ⟨31, 0⟩
def muxRetHi_ret : Fld := ⟨15, 0⟩
def muxCmw_hi : Fld := ⟨31, 16⟩
def muxCmw_lo : Fld := ⟨15, 0⟩
def muxCjs_temp : Fld := ⟨31, 0⟩
def muxStg_state : Fld := ⟨18, 16⟩
def muxStg_psel : Fld := ⟨13, 8⟩
def muxStg_nsel : Fld := ⟨5, 0⟩
def muxTopt_cj : Fld := ⟨21, 16⟩
def muxTopt_cext : Fld := ⟨15, 12⟩
def muxTopt_rsrc : Fld := ⟨11, 8⟩
def muxTopt_otest : Fld := ⟨4, 4⟩
def muxTopt_bias : Fld := ⟨3, 2⟩
def muxTopt_cmw : Fld := ⟨1, 0⟩
def muxRlead_rlead : Fld := ⟨23, 0⟩

/-! Fields of *Table: EXC registers* (R146). -/
def excCtrl_calnow : Fld := ⟨16, 16⟩
def excCtrl_calperiod : Fld := ⟨15, 0⟩
def excStatus_seq : Fld := ⟨31, 24⟩
def excStatus_calfail : Fld := ⟨16, 16⟩
def excStatus_compl : Fld := ⟨15, 0⟩
def excComplNow_compl : Fld := ⟨15, 0⟩
def excCalfailNow_fail : Fld := ⟨15, 0⟩
def excSrc_mode : Fld := ⟨31, 30⟩
def excSrc_manen : Fld := ⟨29, 29⟩
def excSrc_manterm : Fld := ⟨21, 16⟩
def excSrc_mancode : Fld := ⟨7, 0⟩
def excState_on : Fld := ⟨31, 31⟩
def excState_owner : Fld := ⟨27, 24⟩
def excState_term : Fld := ⟨21, 16⟩
def excState_code : Fld := ⟨7, 0⟩
def excCal_err : Fld := ⟨15, 0⟩

/-! Fields of *Table: ASY registers* (R182). -/
def asyCtrl_lead : Fld := ⟨27, 16⟩
def asyCtrl_divlog : Fld := ⟨10, 8⟩
def asyCtrl_selftest : Fld := ⟨1, 1⟩
def asyCtrl_en : Fld := ⟨0, 0⟩
def asyState_state : Fld := ⟨31, 30⟩
def asyState_rangeb : Fld := ⟨25, 24⟩
def asyState_rangea : Fld := ⟨21, 20⟩
def asyState_blanknow : Fld := ⟨19, 19⟩
def asyState_ovlnow : Fld := ⟨18, 18⟩
def asyState_stgbout : Fld := ⟨17, 17⟩
def asyState_stgaout : Fld := ⟨16, 16⟩
def asyState_modstg : Fld := ⟨8, 8⟩
def asyStatus_seq : Fld := ⟨31, 24⟩
def asyStatus_selftestdone : Fld := ⟨8, 8⟩
def asyStatus_stagefail : Fld := ⟨7, 7⟩
def asyStatus_parity : Fld := ⟨6, 6⟩
def asyStatus_stuck : Fld := ⟨5, 5⟩
def asyStatus_xchk : Fld := ⟨4, 4⟩
def asyStatus_reffail : Fld := ⟨3, 3⟩
def asyStatus_failed : Fld := ⟨2, 2⟩
def asyStatus_blanked : Fld := ⟨1, 1⟩
def asyStatus_overrange : Fld := ⟨0, 0⟩
def asyAr_upthr : Fld := ⟨23, 16⟩
def asyAr_dnthr : Fld := ⟨15, 8⟩
def asyAr_dwell : Fld := ⟨3, 0⟩
def asyBlank_tail : Fld := ⟨25, 16⟩
def asyBlank_hart : Fld := ⟨3, 3⟩
def asyBlank_dogrp : Fld := ⟨2, 2⟩
def asyBlank_pin1 : Fld := ⟨1, 1⟩
def asyBlank_pin0 : Fld := ⟨0, 0⟩
def asyLoad_peak : Fld := ⟨31, 16⟩
def asyLoad_load : Fld := ⟨15, 0⟩
def asyLast_status : Fld := ⟨31, 28⟩
def asyLast_stage : Fld := ⟨27, 27⟩
def asyLast_range : Fld := ⟨25, 24⟩
def asyLast_code : Fld := ⟨23, 0⟩
def asyLastPoint_index : Fld := ⟨5, 0⟩
def asyLastStampLo_stamp : Fld := ⟨31, 0⟩
def asyLastStampHi_stamp : Fld := ⟨31, 0⟩
def asyCnt_overranges : Fld := ⟨31, 16⟩
def asyCnt_blankeds : Fld := ⟨15, 0⟩
def asyCnt2_abandons : Fld := ⟨31, 16⟩
def asyCnt2_rangings : Fld := ⟨15, 0⟩
def asyGcal_ppm : Fld := ⟨15, 0⟩
def asyReferr_ppm : Fld := ⟨15, 0⟩

/-! Fields of *Table: SVC registers* (R184). -/
def svcCtrl_sweep : Fld := ⟨15, 0⟩
def svcStatus_seq : Fld := ⟨31, 24⟩
def svcStatus_scfail : Fld := ⟨7, 4⟩
def svcStatus_caldisagree : Fld := ⟨1, 1⟩
def svcStatus_late : Fld := ⟨0, 0⟩
def svcState_load : Fld := ⟨15, 8⟩
def svcState_alive : Fld := ⟨3, 0⟩
def svcLateCnt_count : Fld := ⟨15, 0⟩
def svcRefchk_ppm : Fld := ⟨15, 0⟩
def svcTv_volt : Fld := ⟨15, 0⟩
def svcIloop_current : Fld := ⟨15, 0⟩

/-! Fields of *Table: HRT registers* (R206). -/
def hrtCtrl_owner : Fld := ⟨0, 0⟩
def hrtMcfg_term : Fld := ⟨21, 16⟩
def hrtMcfg_pre : Fld := ⟨12, 8⟩
def hrtMcfg_rxblank : Fld := ⟨0, 0⟩
def hrtMcmd_rxclr : Fld := ⟨2, 2⟩
def hrtMcmd_abort : Fld := ⟨1, 1⟩
def hrtMcmd_send : Fld := ⟨0, 0⟩
def hrtMstate_cd : Fld := ⟨19, 19⟩
def hrtMstate_state : Fld := ⟨18, 16⟩
def hrtMstate_erridx : Fld := ⟨15, 8⟩
def hrtMstate_rxlen : Fld := ⟨7, 0⟩
def hrtMstatus_seq : Fld := ⟨31, 24⟩
def hrtMstatus_termlost : Fld := ⟨5, 5⟩
def hrtMstatus_aborted : Fld := ⟨4, 4⟩
def hrtMstatus_rxerr : Fld := ⟨3, 3⟩
def hrtMstatus_noreply : Fld := ⟨2, 2⟩
def hrtMstatus_rxdone : Fld := ⟨1, 1⟩
def hrtMstatus_txdone : Fld := ⟨0, 0⟩
def hrtMtxlen_len : Fld := ⟨7, 0⟩
def hrtMtimeout_chars : Fld := ⟨7, 0⟩
def hrtMerr_rxerrs : Fld := ⟨31, 16⟩
def hrtMerr_noreplies : Fld := ⟨15, 0⟩
def hrtMtxbuf_data : Fld := ⟨31, 0⟩
def hrtMrxbuf_data : Fld := ⟨31, 0⟩
def hrtLcfg_warm : Fld := ⟨31, 24⟩
def hrtLcfg_sup : Fld := ⟨21, 16⟩
def hrtLcfg_hmin : Fld := ⟨15, 8⟩
def hrtLcfg_hpoll : Fld := ⟨7, 4⟩
def hrtLcfg_dir : Fld := ⟨0, 0⟩
def hrtLrb_rb : Fld := ⟨23, 0⟩
def hrtLgain_gain : Fld := ⟨15, 0⟩
def hrtLofs_ofs : Fld := ⟨15, 0⟩
def hrtLcur_ia : Fld := ⟨31, 16⟩
def hrtLcur_ir : Fld := ⟨15, 0⟩
def hrtLstate_head : Fld := ⟨31, 16⟩
def hrtLstate_class : Fld := ⟨10, 8⟩
def hrtLstate_sat : Fld := ⟨3, 3⟩
def hrtLstate_lowheadnow : Fld := ⟨2, 2⟩
def hrtLstate_xmisnow : Fld := ⟨1, 1⟩
def hrtLstate_warmnow : Fld := ⟨0, 0⟩
def hrtLstatus_seq : Fld := ⟨31, 24⟩
def hrtLstatus_devstatus : Fld := ⟨6, 6⟩
def hrtLstatus_damismatch : Fld := ⟨5, 5⟩
def hrtLstatus_xmismatch : Fld := ⟨4, 4⟩
def hrtLstatus_lowheadroom : Fld := ⟨3, 3⟩
def hrtLstatus_loopfault : Fld := ⟨2, 2⟩
def hrtLstatus_failsignal : Fld := ⟨1, 1⟩
def hrtLstatus_open : Fld := ⟨0, 0⟩

/-! Fields of *Table: Point descriptor* (R210). -/
def sdMode_en : Fld := ⟨31, 31⟩
def sdMode_kind : Fld := ⟨27, 24⟩
def sdMode_form : Fld := ⟨22, 20⟩
def sdMode_rev : Fld := ⟨19, 19⟩
def sdMode_tctype : Fld := ⟨18, 16⟩
def sdMode_win : Fld := ⟨15, 14⟩
def sdMode_auto : Fld := ⟨13, 13⟩
def sdMode_rwide : Fld := ⟨11, 10⟩
def sdMode_rnarrow : Fld := ⟨9, 8⟩
def sdMode_elem : Fld := ⟨7, 6⟩
def sdMode_unit : Fld := ⟨5, 5⟩
def sdTerm_psel : Fld := ⟨29, 24⟩
def sdTerm_nsel : Fld := ⟨21, 16⟩
def sdTerm_rsel : Fld := ⟨13, 8⟩
def sdTerm_fsel : Fld := ⟨5, 0⟩
def sdLo_lo : Fld := ⟨31, 0⟩
def sdHi_hi : Fld := ⟨31, 0⟩
def sdVspan_vhi : Fld := ⟨31, 16⟩
def sdVspan_vlo : Fld := ⟨15, 0⟩
def sdExc_srca : Fld := ⟨28, 24⟩
def sdExc_srcb : Fld := ⟨20, 16⟩
def sdExc_code : Fld := ⟨7, 0⟩
def sdTime_steep : Fld := ⟨31, 16⟩
def sdTime_disch : Fld := ⟨9, 0⟩

/-! Fields of *Table: SEQ registers* (R226). -/
def seqCtrl_copy : Fld := ⟨1, 1⟩
def seqCtrl_commit : Fld := ⟨0, 0⟩
def seqStatus_seq : Fld := ⟨31, 24⟩
def seqStatus_restored : Fld := ⟨5, 5⟩
def seqStatus_relocated : Fld := ⟨4, 4⟩
def seqStatus_modeskip : Fld := ⟨3, 3⟩
def seqStatus_cyclelate : Fld := ⟨2, 2⟩
def seqStatus_rejected : Fld := ⟨1, 1⟩
def seqStatus_applied : Fld := ⟨0, 0⟩
def seqCommit_busy : Fld := ⟨16, 16⟩
def seqCommit_reason : Fld := ⟨15, 8⟩
def seqCommit_where : Fld := ⟨7, 0⟩
def seqFrame_period : Fld := ⟨19, 0⟩
def seqFrameAct_period : Fld := ⟨19, 0⟩
def seqCommitHi_where8 : Fld := ⟨0, 0⟩
def seqFrameCnt_count : Fld := ⟨31, 0⟩
def seqNextSeamLo_tbc : Fld := ⟨31, 0⟩
def seqNextSeamHi_tbc : Fld := ⟨31, 0⟩
def seqClist_dedic : Fld := ⟨31, 31⟩
def seqClist_cycle : Fld := ⟨7, 0⟩
def seqPlan_standin : Fld := ⟨27, 24⟩
def seqPlan_recip : Fld := ⟨23, 16⟩
def seqPlan_pred : Fld := ⟨8, 0⟩
def seqRun_dedicfor : Fld := ⟨11, 8⟩
def seqRun_hosts : Fld := ⟨7, 0⟩

/-! Fields of *Table: Lane registers* (R261). -/
def lnState_isa : Fld := ⟨23, 16⟩
def lnState_framedone : Fld := ⟨7, 7⟩
def lnState_lane : Fld := ⟨1, 0⟩
def lnStatus_seq : Fld := ⟨31, 24⟩
def lnStatus_carry : Fld := ⟨5, 5⟩
def lnStatus_late : Fld := ⟨4, 4⟩
def lnStatus_eccuncorr : Fld := ⟨3, 3⟩
def lnStatus_ecccorr : Fld := ⟨2, 2⟩
def lnStatus_overrun : Fld := ⟨1, 1⟩
def lnStatus_tfault : Fld := ⟨0, 0⟩
def lnCycles_cycles : Fld := ⟨31, 0⟩
def lnFrameLo_frame : Fld := ⟨31, 0⟩
def lnFrameHi_frame : Fld := ⟨31, 0⟩
def lnCeil_s : Fld := ⟨23, 0⟩
def lnEcc_corr : Fld := ⟨31, 16⟩
def lnEcc_uncorr : Fld := ⟨15, 0⟩
def lnCodedig_digest : Fld := ⟨31, 0⟩
def lnInbuf_peak : Fld := ⟨31, 16⟩
def lnInbuf_last : Fld := ⟨15, 0⟩
def lnUntaken_general : Fld := ⟨31, 16⟩
def lnUntaken_fixed : Fld := ⟨15, 0⟩
def lnTcmd_op : Fld := ⟨31, 30⟩
def lnTcmd_at : Fld := ⟨29, 8⟩
def lnTcmd_thread : Fld := ⟨6, 0⟩
def lnTcmdq_pending : Fld := ⟨4, 0⟩
def lnTstate_state : Fld := ⟨31, 29⟩
def lnTstate_fcode : Fld := ⟨28, 24⟩
def lnTstate_used : Fld := ⟨23, 0⟩
def lnTpc_overruns : Fld := ⟨23, 16⟩
def lnTpc_pc : Fld := ⟨15, 0⟩
def lnTbudget_fpol : Fld := ⟨24, 24⟩
def lnTbudget_budget : Fld := ⟨23, 0⟩
def lnRing_count : Fld := ⟨21, 16⟩
def lnRing_drops : Fld := ⟨15, 0⟩
def lnKtag_tags : Fld := ⟨31, 0⟩
def lnKeep_value : Fld := ⟨31, 0⟩

/-! Fields of *Table: TLY registers* (R360). -/
def tlyCtrl_return : Fld := ⟨6, 4⟩
def tlyCtrl_retire : Fld := ⟨2, 0⟩
def tlyState_mode : Fld := ⟨31, 30⟩
def tlyState_lanec : Fld := ⟨21, 20⟩
def tlyState_laneb : Fld := ⟨19, 18⟩
def tlyState_lanea : Fld := ⟨17, 16⟩
def tlyState_donor : Fld := ⟨13, 12⟩
def tlyState_voters : Fld := ⟨10, 8⟩
def tlyState_dco : Fld := ⟨6, 4⟩
def tlyState_dist : Fld := ⟨2, 0⟩
def tlyStatus_seq : Fld := ⟨31, 24⟩
def tlyStatus_handonlate : Fld := ⟨11, 11⟩
def tlyStatus_inputlate : Fld := ⟨10, 10⟩
def tlyStatus_rejoinfail : Fld := ⟨9, 9⟩
def tlyStatus_voterret : Fld := ⟨8, 8⟩
def tlyStatus_voterdis : Fld := ⟨7, 7⟩
def tlyStatus_split : Fld := ⟨6, 6⟩
def tlyStatus_retired : Fld := ⟨5, 5⟩
def tlyStatus_rejoined : Fld := ⟨4, 4⟩
def tlyStatus_drift : Fld := ⟨3, 3⟩
def tlyStatus_late : Fld := ⟨2, 2⟩
def tlyStatus_outboxfull : Fld := ⟨1, 1⟩
def tlyStatus_outvote : Fld := ⟨0, 0⟩
def tlyVframeLo_frame : Fld := ⟨31, 0⟩
def tlyVframeHi_frame : Fld := ⟨31, 0⟩
def tlyHandon_peak : Fld := ⟨31, 16⟩
def tlyHandon_last : Fld := ⟨15, 0⟩
def tlyInset_peak : Fld := ⟨31, 16⟩
def tlyInset_last : Fld := ⟨15, 0⟩
def tlyRejoin_copy : Fld := ⟨15, 0⟩
def tlyWithheld_count : Fld := ⟨31, 0⟩
def tlyLatein_count : Fld := ⟨15, 0⟩
def tlyLane_total : Fld := ⟨31, 24⟩
def tlyLane_cause : Fld := ⟨19, 16⟩
def tlyLane_win : Fld := ⟨1, 0⟩
def tlyLast_frame : Fld := ⟨31, 0⟩
def tlyClk_ppm : Fld := ⟨15, 0⟩
def tlyVoter_total : Fld := ⟨31, 24⟩
def tlyVoter_retired : Fld := ⟨8, 8⟩
def tlyVoter_win : Fld := ⟨1, 0⟩

/-! Fields of *Table: TRP registers* (R382). -/
def trpLock_lock : Fld := ⟨0, 0⟩
def trpStatus_seq : Fld := ⟨31, 24⟩
def trpStatus_conflict : Fld := ⟨3, 3⟩
def trpStatus_latchcorr : Fld := ⟨2, 2⟩
def trpStatus_dupmismatch : Fld := ⟨1, 1⟩
def trpStatus_assert : Fld := ⟨0, 0⟩
def trpAssert_terms : Fld := ⟨31, 0⟩
def trpLatched_terms : Fld := ⟨31, 0⟩
def trpReset_terms : Fld := ⟨31, 0⟩
def trpCnt_mismatches : Fld := ⟨31, 16⟩
def trpCnt_corrections : Fld := ⟨15, 0⟩
def trpCfg_latch : Fld := ⟨3, 3⟩
def trpCfg_sense : Fld := ⟨2, 2⟩
def trpCfg_op : Fld := ⟨1, 1⟩
def trpCfg_en : Fld := ⟨0, 0⟩
def trpLita_lit03 : Fld := ⟨31, 0⟩
def trpLitb_lit47 : Fld := ⟨31, 0⟩
def trpOutlo_outs : Fld := ⟨31, 0⟩
def trpOuthi_outs : Fld := ⟨15, 0⟩
def trpStampLo_tbc : Fld := ⟨31, 0⟩
def trpStampHi_tbc : Fld := ⟨31, 0⟩

/-! Fields of *Table: OUT registers* (R383). -/
def outStatus_seq : Fld := ⟨31, 24⟩
def outStatus_restoredone : Fld := ⟨2, 2⟩
def outStatus_keptmissing : Fld := ⟨1, 1⟩
def outStatus_ignored : Fld := ⟨0, 0⟩
def outIgnored_count : Fld := ⟨31, 16⟩
def outIgnored_term : Fld := ⟨5, 0⟩
def outSafe_safenow : Fld := ⟨0, 0⟩
def outCfg_lprio : Fld := ⟨9, 8⟩
def outCfg_prio : Fld := ⟨5, 4⟩
def outCfg_restore : Fld := ⟨2, 2⟩
def outCfg_safepol : Fld := ⟨1, 0⟩
def outState_keptvalid : Fld := ⟨13, 13⟩
def outState_kept : Fld := ⟨12, 12⟩
def outState_pending : Fld := ⟨11, 11⟩
def outState_ordered : Fld := ⟨10, 10⟩
def outState_gov : Fld := ⟨9, 8⟩
def outState_latch : Fld := ⟨6, 4⟩
def outState_voted : Fld := ⟨3, 3⟩

/-! Fields of *Table: Permit registers* (R384). -/
def supPmtCfg_margin : Fld := ⟨31, 24⟩
def supPmtCfg_stagger : Fld := ⟨19, 16⟩
def supPmtCfg_period : Fld := ⟨15, 8⟩
def supPmtCfg_units : Fld := ⟨4, 0⟩
def supPmtState_defer : Fld := ⟨21, 16⟩
def supPmtState_queued : Fld := ⟨14, 8⟩
def supPmtState_granted : Fld := ⟨4, 0⟩
def supPmtStatus_seq : Fld := ⟨31, 24⟩
def supPmtStatus_staggerdone : Fld := ⟨1, 1⟩
def supPmtStatus_deferlong : Fld := ⟨0, 0⟩
def supPmtCnt_defers : Fld := ⟨31, 16⟩
def supPmtCnt_grants : Fld := ⟨15, 0⟩

/-! Fields of *Table: Host command registers* (R390). -/
def mgsHcmdArg_arg : Fld := ⟨31, 0⟩
def mgsHcmd_code : Fld := ⟨31, 24⟩
def mgsHcmd_subject : Fld := ⟨15, 0⟩
def mgsHcmdState_posted : Fld := ⟨31, 16⟩
def mgsHcmdState_pending : Fld := ⟨4, 0⟩

/-! Fields of *Table: JNL registers* (R433). -/
def jnlCtrl_age : Fld := ⟨31, 16⟩
def jnlCtrl_compactnow : Fld := ⟨0, 0⟩
def jnlState_phase : Fld := ⟨31, 30⟩
def jnlState_compact : Fld := ⟨29, 28⟩
def jnlState_head : Fld := ⟨23, 16⟩
def jnlState_free : Fld := ⟨6, 0⟩
def jnlStatus_seq : Fld := ⟨31, 24⟩
def jnlStatus_flasherr : Fld := ⟨8, 8⟩
def jnlStatus_ecccorr : Fld := ⟨7, 7⟩
def jnlStatus_indexfull : Fld := ⟨6, 6⟩
def jnlStatus_full : Fld := ⟨5, 5⟩
def jnlStatus_refused : Fld := ⟨4, 4⟩
def jnlStatus_corrupt : Fld := ⟨3, 3⟩
def jnlStatus_compactrestart : Fld := ⟨2, 2⟩
def jnlStatus_compactdone : Fld := ⟨1, 1⟩
def jnlStatus_recovered : Fld := ⟨0, 0⟩
def jnlSeqLo_seq : Fld := ⟨31, 0⟩
def jnlSeqHi_seq : Fld := ⟨31, 0⟩
def jnlMaxstampLo_tbc : Fld := ⟨31, 0⟩
def jnlMaxstampHi_tbc : Fld := ⟨31, 0⟩
def jnlCaddy_peak : Fld := ⟨31, 16⟩
def jnlCaddy_fill : Fld := ⟨15, 0⟩
def jnlRecov_formatted : Fld := ⟨31, 31⟩
def jnlRecov_time : Fld := ⟨15, 0⟩
def jnlCnt_corrupt : Fld := ⟨31, 16⟩
def jnlCnt_refused : Fld := ⟨15, 0⟩
def jnlCompact_count : Fld := ⟨31, 16⟩
def jnlCompact_last : Fld := ⟨15, 0⟩
def jnlInLo_bytes : Fld := ⟨31, 0⟩
def jnlInHi_bytes : Fld := ⟨31, 0⟩
def jnlProgLo_bytes : Fld := ⟨31, 0⟩
def jnlProgHi_bytes : Fld := ⟨31, 0⟩
def jnlLive_bytes : Fld := ⟨31, 0⟩
def jnlIdent_count : Fld := ⟨14, 0⟩
def jnlSeg_state : Fld := ⟨31, 29⟩
def jnlSeg_part : Fld := ⟨28, 26⟩
def jnlSeg_erases : Fld := ⟨25, 0⟩
def jnlKey0_kind : Fld := ⟨31, 24⟩
def jnlKey0_subt : Fld := ⟨23, 16⟩
def jnlKey0_subj : Fld := ⟨15, 0⟩
def jnlKey1_ext : Fld := ⟨31, 0⟩
def jnlLook_cmd : Fld := ⟨1, 0⟩
def jnlLookState_found : Fld := ⟨31, 31⟩
def jnlLookState_busy : Fld := ⟨30, 30⟩
def jnlLookState_ver : Fld := ⟨23, 16⟩
def jnlLookState_len : Fld := ⟨8, 0⟩
def jnlLookSeqLo_seq : Fld := ⟨31, 0⟩
def jnlLookSeqHi_seq : Fld := ⟨31, 0⟩
def jnlRwin_data : Fld := ⟨31, 0⟩
def jnlWhdr_kind : Fld := ⟨31, 24⟩
def jnlWhdr_ver : Fld := ⟨23, 16⟩
def jnlWhdr_subt : Fld := ⟨15, 8⟩
def jnlWsubj_subj : Fld := ⟨15, 0⟩
def jnlWstampLo_tbc : Fld := ⟨31, 0⟩
def jnlWstampHi_tbc : Fld := ⟨31, 0⟩
def jnlWlen_plen : Fld := ⟨7, 0⟩
def jnlWcmd_gclose : Fld := ⟨2, 2⟩
def jnlWcmd_gopen : Fld := ⟨1, 1⟩
def jnlWcmd_append : Fld := ⟨0, 0⟩
def jnlWstate_open : Fld := ⟨31, 31⟩
def jnlWstate_count : Fld := ⟨30, 25⟩
def jnlWstate_result : Fld := ⟨17, 16⟩
def jnlWseq_seq : Fld := ⟨31, 0⟩
def jnlWbuf_data : Fld := ⟨31, 0⟩
def jnlFaddr_word : Fld := ⟨22, 4⟩
def jnlFcmd_cmd : Fld := ⟨1, 0⟩
def jnlFstate_busy : Fld := ⟨31, 31⟩
def jnlFstate_result : Fld := ⟨1, 0⟩
def jnlFdata_data : Fld := ⟨31, 0⟩

/-! Fields of *Table: EVR registers* (R448). -/
def evrCtrl_rptwindow : Fld := ⟨15, 8⟩
def evrCtrl_en : Fld := ⟨0, 0⟩
def evrStatus_seq : Fld := ⟨31, 24⟩
def evrStatus_cleared : Fld := ⟨4, 4⟩
def evrStatus_corrupt : Fld := ⟨3, 3⟩
def evrStatus_dropped : Fld := ⟨2, 2⟩
def evrStatus_caperr : Fld := ⟨1, 1⟩
def evrStatus_recorded : Fld := ⟨0, 0⟩
def evrState_phase : Fld := ⟨31, 30⟩
def evrState_nfirst : Fld := ⟨24, 16⟩
def evrState_queued : Fld := ⟨5, 0⟩
def evrNextseq_seq : Fld := ⟨31, 0⟩
def evrDrops_corrupts : Fld := ⟨31, 16⟩
def evrDrops_drops : Fld := ⟨15, 0⟩
def evrSwtrig_detail : Fld := ⟨15, 0⟩
def evrClear_key : Fld := ⟨31, 16⟩
def evrClear_area : Fld := ⟨1, 0⟩
def evrCursor_area : Fld := ⟨31, 31⟩
def evrCursor_auto : Fld := ⟨30, 30⟩
def evrCursor_dir : Fld := ⟨29, 29⟩
def evrCursor_slot : Fld := ⟨11, 0⟩
def evrWseq_seq : Fld := ⟨31, 0⟩
def evrWend_seq : Fld := ⟨31, 0⟩
def evrWrptLo_tbc : Fld := ⟨31, 0⟩
def evrWrptHi_tbc : Fld := ⟨31, 0⟩
def evrTrg_en : Fld := ⟨31, 31⟩
def evrTrg_nocap : Fld := ⟨30, 30⟩
def evrTrg_list : Fld := ⟨29, 27⟩
def evrTrg_kind : Fld := ⟨23, 20⟩
def evrTrg_minclass : Fld := ⟨17, 16⟩
def evrTmatch_mask : Fld := ⟨31, 16⟩
def evrTmatch_value : Fld := ⟨15, 0⟩
def evrList_type : Fld := ⟨31, 30⟩
def evrList_addr : Fld := ⟨23, 0⟩
def evrWin_data : Fld := ⟨31, 0⟩

/-! Fields of *Table: RTC registers* (R467). -/
def rtcSubsec_subsec : Fld := ⟨7, 0⟩
def rtcSec_sec : Fld := ⟨5, 0⟩
def rtcMin_min : Fld := ⟨5, 0⟩
def rtcHour_hour : Fld := ⟨4, 0⟩
def rtcDate_date : Fld := ⟨4, 0⟩
def rtcMonth_month : Fld := ⟨3, 0⟩
def rtcYear_year : Fld := ⟨6, 0⟩
def rtcFlags_oscok : Fld := ⟨2, 2⟩
def rtcFlags_lbv : Fld := ⟨1, 1⟩
def rtcFlags_osf : Fld := ⟨0, 0⟩
def rtcFclr_lbv : Fld := ⟨1, 1⟩
def rtcFclr_osf : Fld := ⟨0, 0⟩
def rtcCal_cal : Fld := ⟨9, 0⟩
def rtcStatus_seq : Fld := ⟨31, 24⟩
def rtcStatus_commiterr : Fld := ⟨4, 4⟩
def rtcStatus_committed : Fld := ⟨3, 3⟩
def rtcStatus_shadowtimeout : Fld := ⟨2, 2⟩
def rtcStatus_lbvset : Fld := ⟨1, 1⟩
def rtcStatus_osfset : Fld := ⟨0, 0⟩
def rtcVbat_mv : Fld := ⟨11, 0⟩
def rtcStage_frozen : Fld := ⟨8, 8⟩
def rtcStage_staged : Fld := ⟨4, 0⟩
def rtcGate_open : Fld := ⟨0, 0⟩

/-! Fields of *Table: PNL registers* (R496). -/
def pnlCtrl_reasserten : Fld := ⟨16, 16⟩
def pnlCtrl_fllevel : Fld := ⟨15, 8⟩
def pnlCtrl_flen : Fld := ⟨2, 2⟩
def pnlCtrl_mode : Fld := ⟨1, 0⟩
def pnlStatus_seq : Fld := ⟨31, 24⟩
def pnlStatus_ledgersat : Fld := ⟨12, 12⟩
def pnlStatus_intentfail : Fld := ⟨11, 11⟩
def pnlStatus_tempfault : Fld := ⟨10, 10⟩
def pnlStatus_wavereject : Fld := ⟨9, 9⟩
def pnlStatus_segfault : Fld := ⟨8, 8⟩
def pnlStatus_railfault : Fld := ⟨7, 7⟩
def pnlStatus_cold : Fld := ⟨6, 6⟩
def pnlStatus_ledgerlost : Fld := ⟨5, 5⟩
def pnlStatus_recovered : Fld := ⟨4, 4⟩
def pnlStatus_pfstopped : Fld := ⟨3, 3⟩
def pnlStatus_pfbalanced : Fld := ⟨2, 2⟩
def pnlStatus_replaced : Fld := ⟨1, 1⟩
def pnlStatus_updatedone : Fld := ⟨0, 0⟩
def pnlState_phase : Fld := ⟨31, 29⟩
def pnlState_updating : Fld := ⟨28, 28⟩
def pnlState_intentwait : Fld := ⟨27, 27⟩
def pnlState_flon : Fld := ⟨26, 26⟩
def pnlState_pidx : Fld := ⟨23, 16⟩
def pnlState_driving : Fld := ⟨5, 0⟩
def pnlVcom_vcom : Fld := ⟨7, 0⟩
def pnlTemp_tsok : Fld := ⟨16, 16⟩
def pnlTemp_temp : Fld := ⟨15, 0⟩
def pnlAge_agestep : Fld := ⟨15, 0⟩
def pnlPfcfg_tmax : Fld := ⟨15, 8⟩
def pnlPfcfg_floor : Fld := ⟨7, 0⟩
def pnlRecov_phase : Fld := ⟨23, 16⟩
def pnlRecov_source : Fld := ⟨1, 0⟩
def pnlWver_wver : Fld := ⟨15, 0⟩
def pnlWstg_wver : Fld := ⟨15, 0⟩
def pnlWcmd_commit : Fld := ⟨0, 0⟩
def pnlCnt_updates : Fld := ⟨31, 16⟩
def pnlCnt_replaces : Fld := ⟨15, 0⟩
def pnlTscale_factor : Fld := ⟨7, 0⟩
def pnlSeg_ledger : Fld := ⟨31, 16⟩
def pnlSeg_state : Fld := ⟨15, 12⟩
def pnlSeg_step : Fld := ⟨11, 8⟩
def pnlSeg_left : Fld := ⟨7, 0⟩
def pnlStress_vs : Fld := ⟨31, 0⟩
def pnlWave_steps : Fld := ⟨31, 0⟩
def pnlWact_steps : Fld := ⟨31, 0⟩

/-! Fields of *Table: NET registers* (R528). -/
def netCtrl_ctime : Fld := ⟨3, 3⟩
def netCtrl_rtcset : Fld := ⟨2, 2⟩
def netCtrl_remote : Fld := ⟨1, 1⟩
def netCtrl_en : Fld := ⟨0, 0⟩
def netStatus_seq : Fld := ⟨31, 24⟩
def netStatus_busoff : Fld := ⟨8, 8⟩
def netStatus_img : Fld := ⟨7, 7⟩
def netStatus_txdrop : Fld := ⟨6, 6⟩
def netStatus_ofsstep : Fld := ⟨5, 5⟩
def netStatus_ptplost : Fld := ⟨4, 4⟩
def netStatus_ptplock : Fld := ⟨3, 3⟩
def netStatus_pathlost : Fld := ⟨2, 2⟩
def netStatus_assocdown : Fld := ⟨1, 1⟩
def netStatus_assocup : Fld := ⟨0, 0⟩
def netNodeid_canaddr : Fld := ⟨23, 16⟩
def netNodeid_node : Fld := ⟨15, 0⟩
def netMacLo_mac : Fld := ⟨31, 0⟩
def netMacHi_mac : Fld := ⟨15, 0⟩
def netVlan_en : Fld := ⟨16, 16⟩
def netVlan_pcp : Fld := ⟨15, 13⟩
def netVlan_vid : Fld := ⟨11, 0⟩
def netCnt_unknown : Fld := ⟨31, 16⟩
def netCnt_skipped : Fld := ⟨15, 0⟩
def netPcfg_amp : Fld := ⟨2, 1⟩
def netPcfg_en : Fld := ⟨0, 0⟩
def netPstate_lost : Fld := ⟨2, 2⟩
def netPstate_ampact : Fld := ⟨1, 1⟩
def netPstate_link : Fld := ⟨0, 0⟩
def netPrx_frames : Fld := ⟨31, 0⟩
def netPerr_crcerr : Fld := ⟨31, 16⟩
def netPerr_wronglan : Fld := ⟨15, 0⟩
def netPrpcfg_life : Fld := ⟨15, 0⟩
def netPrp_dups : Fld := ⟨31, 16⟩
def netPrp_nodes : Fld := ⟨7, 0⟩
def netMdio_wr : Fld := ⟨31, 31⟩
def netMdio_port : Fld := ⟨30, 30⟩
def netMdio_mmd : Fld := ⟨20, 16⟩
def netMdio_reg : Fld := ⟨15, 0⟩
def netMdioData_data : Fld := ⟨15, 0⟩
def netRcnt_denied : Fld := ⟨31, 16⟩
def netRcnt_done : Fld := ⟨15, 0⟩
def netPtpcfg_hold : Fld := ⟨31, 16⟩
def netPtpcfg_domain : Fld := ⟨6, 0⟩
def netPtpstate_state : Fld := ⟨31, 30⟩
def netPtpstate_port : Fld := ⟨29, 29⟩
def netPtpstate_valid : Fld := ⟨28, 28⟩
def netPtpstate_utcv : Fld := ⟨27, 27⟩
def netPtpstate_utcofs : Fld := ⟨15, 0⟩
def netOfsLo_ofs : Fld := ⟨31, 0⟩
def netOfsHi_ofs : Fld := ⟨31, 0⟩
def netTheta_ns : Fld := ⟨31, 0⟩
def netRate_ppb : Fld := ⟨31, 0⟩
def netPathdly_ns : Fld := ⟨31, 0⟩
def netGmLo_id : Fld := ⟨31, 0⟩
def netGmHi_id : Fld := ⟨31, 0⟩
def netCcfg_brs : Fld := ⟨2, 2⟩
def netCcfg_auto : Fld := ⟨1, 1⟩
def netCcfg_en : Fld := ⟨0, 0⟩
def netCnbt_tseg1 : Fld := ⟨31, 23⟩
def netCnbt_tseg2 : Fld := ⟨22, 16⟩
def netCnbt_sjw : Fld := ⟨15, 9⟩
def netCnbt_brp : Fld := ⟨4, 0⟩
def netCdbt_tseg1 : Fld := ⟨21, 16⟩
def netCdbt_tseg2 : Fld := ⟨15, 12⟩
def netCdbt_sjw : Fld := ⟨11, 8⟩
def netCdbt_brp : Fld := ⟨4, 0⟩
def netCstate_state : Fld := ⟨17, 16⟩
def netCstate_rec : Fld := ⟨15, 8⟩
def netCstate_tec : Fld := ⟨7, 0⟩
def netCcnt_rx : Fld := ⟨31, 16⟩
def netCcnt_discard : Fld := ⟨15, 0⟩
def netAcfg_en : Fld := ⟨31, 31⟩
def netAcfg_medium : Fld := ⟨30, 29⟩
def netAcfg_vmax : Fld := ⟨28, 27⟩
def netAcfg_acc : Fld := ⟨26, 25⟩
def netAcfg_img : Fld := ⟨24, 24⟩
def netAcfg_calls : Fld := ⟨23, 23⟩
def netAcfg_alarms : Fld := ⟨22, 22⟩
def netAcfg_lanes : Fld := ⟨21, 21⟩
def netAcfg_partner : Fld := ⟨15, 0⟩
def netAsub_last : Fld := ⟨27, 16⟩
def netAsub_first : Fld := ⟨11, 0⟩
def netAstate_state : Fld := ⟨31, 30⟩
def netAstate_ver : Fld := ⟨29, 28⟩
def netAstate_ranges : Fld := ⟨11, 8⟩
def netAstate_pcaps : Fld := ⟨4, 0⟩
def netAcnt_txdrop : Fld := ⟨31, 16⟩
def netAcnt_rx : Fld := ⟨15, 0⟩

/-! Fields of *Table: MGS registers* (R552). -/
def mgsCtrl_wdt : Fld := ⟨15, 8⟩
def mgsCtrl_ready : Fld := ⟨0, 0⟩
def mgsStatus_seq : Fld := ⟨31, 24⟩
def mgsStatus_notready : Fld := ⟨6, 6⟩
def mgsStatus_cfgskip : Fld := ⟨5, 5⟩
def mgsStatus_watchovf : Fld := ⟨4, 4⟩
def mgsStatus_rail : Fld := ⟨3, 3⟩
def mgsStatus_tempalarm : Fld := ⟨2, 2⟩
def mgsStatus_tempwarn : Fld := ⟨1, 1⟩
def mgsStatus_wdog : Fld := ⟨0, 0⟩
def mgsWdog_key : Fld := ⟨31, 0⟩
def mgsResets_badkey : Fld := ⟨31, 16⟩
def mgsResets_count : Fld := ⟨15, 0⟩
def mgsOpsecsLo_secs : Fld := ⟨31, 0⟩
def mgsOpsecsHi_secs : Fld := ⟨15, 0⟩
def mgsCycles_count : Fld := ⟨31, 0⟩
def mgsCfgskip_count : Fld := ⟨15, 0⟩
def mgsTemp_temp : Fld := ⟨15, 0⟩
def mgsTlim_alarm : Fld := ⟨15, 8⟩
def mgsTlim_warn : Fld := ⟨7, 0⟩
def mgsVmon_value : Fld := ⟨15, 0⟩
def mgsTsw_temp : Fld := ⟨15, 0⟩
def mgsCfgjAddr_addr : Fld := ⟨31, 2⟩
def mgsCfgjCmd_save : Fld := ⟨31, 31⟩
def mgsCfgjCmd_n : Fld := ⟨5, 0⟩
def mgsCfgjState_busy : Fld := ⟨31, 31⟩
def mgsCfgjState_result : Fld := ⟨1, 0⟩
def mgsWatchBase_base : Fld := ⟨31, 2⟩
def mgsWatchBase_en : Fld := ⟨0, 0⟩
def mgsWatchLim_limit : Fld := ⟨31, 2⟩
def mgsWq_addr : Fld := ⟨31, 2⟩
def mgsWq_valid : Fld := ⟨0, 0⟩
def mgsWqpop_pop : Fld := ⟨0, 0⟩

/-! Fields of *Table: UPD registers* (R553). -/
def updCfg_trial : Fld := ⟨7, 0⟩
def updCmd_kind : Fld := ⟨9, 8⟩
def updCmd_op : Fld := ⟨2, 0⟩
def updLen_length : Fld := ⟨31, 0⟩
def updData_data : Fld := ⟨31, 0⟩
def updState_xfer : Fld := ⟨31, 28⟩
def updState_act : Fld := ⟨27, 24⟩
def updState_reason : Fld := ⟨23, 16⟩
def updState_unkeyed : Fld := ⟨15, 15⟩
def updState_trial : Fld := ⟨14, 14⟩
def updState_xkind : Fld := ⟨13, 12⟩
def updState_xmaster : Fld := ⟨10, 8⟩
def updNext_next : Fld := ⟨31, 0⟩
def updStatus_seq : Fld := ⟨31, 24⟩
def updStatus_keyprog : Fld := ⟨7, 7⟩
def updStatus_noimage : Fld := ⟨6, 6⟩
def updStatus_actrefused : Fld := ⟨5, 5⟩
def updStatus_rolledback : Fld := ⟨4, 4⟩
def updStatus_activated : Fld := ⟨3, 3⟩
def updStatus_aborted : Fld := ⟨2, 2⟩
def updStatus_rejected : Fld := ⟨1, 1⟩
def updStatus_xferdone : Fld := ⟨0, 0⟩
def updDetail_detail : Fld := ⟨31, 0⟩
def updSlot_state : Fld := ⟨31, 29⟩
def updSlot_lineage : Fld := ⟨15, 0⟩
def updSver_imgver : Fld := ⟨31, 0⟩
def updSlen_length : Fld := ⟨31, 0⟩
def updDig_hash : Fld := ⟨31, 0⟩
def updKeystg_hash : Fld := ⟨31, 0⟩
def updKeycmd_key : Fld := ⟨15, 0⟩

/-! Fields of *Table: FLT registers* (R566). -/
def fltCtrl_unhold : Fld := ⟨2, 2⟩
def fltCtrl_rearmg : Fld := ⟨1, 1⟩
def fltCtrl_rearmf : Fld := ⟨0, 0⟩
def fltStatus_seq : Fld := ⟨31, 24⟩
def fltStatus_loglost : Fld := ⟨5, 5⟩
def fltStatus_held : Fld := ⟨4, 4⟩
def fltStatus_reset : Fld := ⟨3, 3⟩
def fltStatus_safe : Fld := ⟨2, 2⟩
def fltStatus_degrade : Fld := ⟨1, 1⟩
def fltStatus_note : Fld := ⟨0, 0⟩
def fltState_degraded : Fld := ⟨4, 4⟩
def fltState_resetheld : Fld := ⟨3, 3⟩
def fltState_safenow : Fld := ⟨2, 2⟩
def fltState_gravevalid : Fld := ⟨1, 1⟩
def fltState_firstvalid : Fld := ⟨0, 0⟩
def fltSafe_key : Fld := ⟨31, 16⟩
def fltRescnt_window : Fld := ⟨15, 8⟩
def fltRescnt_total : Fld := ⟨7, 0⟩
def fltNotice_drops : Fld := ⟨31, 16⟩
def fltCnt_count : Fld := ⟨31, 0⟩
def fltFirst_entry : Fld := ⟨31, 0⟩
def fltGrave_entry : Fld := ⟨31, 0⟩
def fltLogsel_age : Fld := ⟨5, 0⟩
def fltLseq_seq : Fld := ⟨31, 0⟩
def fltLe_entry : Fld := ⟨31, 0⟩
def fltSrc_code : Fld := ⟨31, 16⟩
def fltSrc_count : Fld := ⟨15, 8⟩
def fltSrc_default : Fld := ⟨5, 4⟩
def fltSrc_mask : Fld := ⟨3, 3⟩
def fltSrc_class : Fld := ⟨1, 0⟩

/-! Fields of *Table: SUP registers* (R590). -/
def supCtrl_vset : Fld := ⟨15, 8⟩
def supCtrl_chgen : Fld := ⟨1, 1⟩
def supCtrl_flden : Fld := ⟨0, 0⟩
def supState_phase : Fld := ⟨31, 29⟩
def supState_stage : Fld := ⟨26, 24⟩
def supState_fldext : Fld := ⟨8, 8⟩
def supState_fldilimnow : Fld := ⟨7, 7⟩
def supState_holdsw : Fld := ⟨6, 6⟩
def supState_holdok : Fld := ⟨5, 5⟩
def supState_railsok : Fld := ⟨4, 4⟩
def supState_bcarries : Fld := ⟨3, 3⟩
def supState_vinbok : Fld := ⟨1, 1⟩
def supState_vinaok : Fld := ⟨0, 0⟩
def supStatus_seq : Fld := ⟨31, 24⟩
def supStatus_holdlow : Fld := ⟨7, 7⟩
def supStatus_holdready : Fld := ⟨6, 6⟩
def supStatus_ride : Fld := ⟨5, 5⟩
def supStatus_fldilim : Fld := ⟨4, 4⟩
def supStatus_vinbret : Fld := ⟨3, 3⟩
def supStatus_vinaret : Fld := ⟨2, 2⟩
def supStatus_vinblost : Fld := ⟨1, 1⟩
def supStatus_vinalost : Fld := ⟨0, 0⟩
def supVin_vinb : Fld := ⟨31, 16⟩
def supVin_vina : Fld := ⟨15, 0⟩
def supHold_low : Fld := ⟨31, 16⟩
def supHold_hold : Fld := ⟨15, 0⟩
def supFld_ifld : Fld := ⟨31, 16⟩
def supFld_vfld : Fld := ⟨15, 0⟩
def supReset_count : Fld := ⟨31, 16⟩
def supReset_cause : Fld := ⟨7, 0⟩
def supRst_key : Fld := ⟨31, 16⟩
def supBoot_ms : Fld := ⟨15, 0⟩
def supRides_count : Fld := ⟨15, 0⟩

/-! Fields of *Table: TMB registers* (R591). -/
def tmbState_disc : Fld := ⟨4, 4⟩
def tmbState_tbcrun : Fld := ⟨3, 3⟩
def tmbState_plllock : Fld := ⟨2, 2⟩
def tmbState_xtalwait : Fld := ⟨1, 1⟩
def tmbState_xtalok : Fld := ⟨0, 0⟩
def tmbStatus_seq : Fld := ⟨31, 24⟩
def tmbStatus_xtalretry : Fld := ⟨2, 2⟩
def tmbStatus_retrim : Fld := ⟨1, 1⟩
def tmbStatus_tbcstart : Fld := ⟨0, 0⟩
def tmbTbcLo_tbc : Fld := ⟨31, 0⟩
def tmbTbcHi_tbc : Fld := ⟨31, 0⟩
def tmbStartLo_tbc : Fld := ⟨31, 0⟩
def tmbStartHi_tbc : Fld := ⟨31, 0⟩
def tmbRate_ppb : Fld := ⟨31, 0⟩
def tmbIsl_state : Fld := ⟨31, 30⟩
def tmbIsl_trim : Fld := ⟨23, 16⟩
def tmbIsl_err : Fld := ⟨15, 0⟩
def tmbRetrims_count : Fld := ⟨15, 0⟩

end F

/-- Rows of the ID registers (R59). -/
def rowsId : List RegRow := [
  ⟨0x0, 0x4, 1, 0x4, 1, .ro, 0x0, 0x0, 0xF8, 0x10100⟩,  -- ID_BLK_ID
  ⟨0x4, 0x4, 1, 0x4, 1, .ro, 0x0, 0x0, 0xF8, 0xC3D0530⟩,  -- ID_PART
  ⟨0x8, 0x4, 1, 0x4, 1, .ro, 0x0, 0x0, 0xF8, 0x330⟩,  -- ID_VARIANT
  ⟨0xC, 0x4, 1, 0x4, 1, .ro, 0x0, 0x0, 0xF8, 0x100⟩,  -- ID_STEPPING
  ⟨0x10, 0x4, 1, 0x4, 1, .ro, 0x0, 0x0, 0xF8, 0x0⟩,  -- ID_UNIQUE_LO
  ⟨0x14, 0x4, 1, 0x4, 1, .ro, 0x0, 0x0, 0xF8, 0x0⟩,  -- ID_UNIQUE_HI
  ⟨0x18, 0x4, 1, 0x4, 1, .ro, 0x0, 0x0, 0xF8, 0x101⟩,  -- ID_ISA
  ⟨0x1C, 0x4, 1, 0x4, 1, .ro, 0x0, 0x0, 0xF8, 0x1⟩,  -- ID_FUSE
  ⟨0x40, 0x4, 8, 0x4, 1, .ro, 0x0, 0x0, 0xF8, 0x0⟩  -- ID_KEYHASH
]

/-- Rows of the HSP registers (R71). -/
def rowsHsp : List RegRow := [
  ⟨0x700000, 0x4, 1, 0x4, 1, .ro, 0x0, 0x0, 0xF8, 0x800100⟩,  -- HSP_BLK_ID
  ⟨0x700004, 0x4, 1, 0x4, 1, .rw, 0x3, 0x3, 0x10, 0x0⟩,  -- HSP_CTRL
  ⟨0x700008, 0x4, 1, 0x4, 1, .sq, 0xFF00007F, 0x0, 0xF8, 0x0⟩,  -- HSP_STATUS
  ⟨0x70000C, 0x4, 1, 0x4, 1, .ro, 0x0, 0x0, 0xF8, 0x0⟩,  -- HSP_ERRCNT
  ⟨0x700010, 0x4, 1, 0x4, 1, .rw, 0x7F, 0x7F, 0xF8, 0x40⟩  -- HSP_ATTN_MASK
]

/-- Rows of the TRM registers (R112). -/
def rowsTrm : List RegRow := [
  ⟨0x100000, 0x100, 48, 0x100, 1, .ro, 0x0, 0x0, 0xF8, 0x200100⟩,  -- TRM_BLK_ID
  ⟨0x100004, 0x100, 48, 0x100, 1, .rw, 0xF, 0xF, 0xF8, 0x0⟩,  -- TRM_MODE
  ⟨0x100008, 0x100, 48, 0x100, 1, .rw, 0x1FFFF, 0x1FFFF, 0xF8, 0x501C⟩,  -- TRM_DI
  ⟨0x10000C, 0x100, 48, 0x100, 1, .rw, 0xFFFF, 0xFFFF, 0xF8, 0x3E8⟩,  -- TRM_DEB
  ⟨0x100010, 0x100, 48, 0x100, 1, .rw, 0xFFFF, 0xFFFF, 0xF8, 0xA41⟩,  -- TRM_DO
  ⟨0x100014, 0x100, 48, 0x100, 1, .rw, 0x1, 0x1, 0xF8, 0x1⟩,  -- TRM_LOOP
  ⟨0x100018, 0x100, 48, 0x100, 1, .ro, 0x0, 0x0, 0xF8, 0x0⟩,  -- TRM_STATE
  ⟨0x10001C, 0x100, 48, 0x100, 1, .sq, 0xFF0001FF, 0x0, 0xF8, 0x0⟩,  -- TRM_STATUS
  ⟨0x100020, 0x100, 48, 0x100, 1, .ro, 0x0, 0x0, 0xF8, 0x0⟩,  -- TRM_IOUT
  ⟨0x100024, 0x100, 48, 0x100, 1, .ro, 0x0, 0x0, 0xF8, 0x0⟩,  -- TRM_CNT
  ⟨0x100028, 0x100, 48, 0x100, 1, .rw, 0x1F, 0x1F, 0xF8, 0x8⟩,  -- TRM_GCFG
  ⟨0x10002C, 0x100, 48, 0x100, 1, .ro, 0x0, 0x0, 0xF8, 0x0⟩,  -- TRM_GMEAS
  ⟨0x100030, 0x100, 48, 0x100, 1, .ro, 0x0, 0x0, 0xF8, 0x0⟩,  -- TRM_GSTATE
  ⟨0x100034, 0x100, 48, 0x100, 1, .sq, 0xFF000007, 0x0, 0xF8, 0x0⟩  -- TRM_GSTATUS
]

/-- Rows of the TSU registers (R114). -/
def rowsTsu : List RegRow := [
  ⟨0x170000, 0x4, 1, 0x4, 1, .ro, 0x0, 0x0, 0xF8, 0x270100⟩,  -- TSU_BLK_ID
  ⟨0x170004, 0x4, 1, 0x4, 1, .rw, 0x1, 0x1, 0xF8, 0x0⟩,  -- TSU_CTRL
  ⟨0x170008, 0x4, 1, 0x4, 1, .sq, 0xFF000001, 0x0, 0xF8, 0x0⟩,  -- TSU_STATUS
  ⟨0x17000C, 0x4, 1, 0x4, 1, .ro, 0x0, 0x0, 0xF8, 0x0⟩  -- TSU_LEVEL
]

/-- Rows of the MUX registers (R144). -/
def rowsMux : List RegRow := [
  ⟨0x110000, 0x4, 1, 0x4, 1, .ro, 0x0, 0x0, 0xF8, 0x210100⟩,  -- MUX_BLK_ID
  ⟨0x110004, 0x4, 1, 0x4, 1, .rw, 0x3FF00FF, 0x3FF00FF, 0xF8, 0x140000⟩,  -- MUX_CTRL
  ⟨0x110008, 0x4, 1, 0x4, 1, .sq, 0xFF000003, 0x0, 0xF8, 0x0⟩,  -- MUX_STATUS
  ⟨0x11000C, 0x4, 1, 0x4, 1, .ro, 0x0, 0x0, 0xF8, 0x0⟩,  -- MUX_RET_LO
  ⟨0x110010, 0x4, 1, 0x4, 1, .ro, 0x0, 0x0, 0xF8, 0x0⟩,  -- MUX_RET_HI
  ⟨0x110020, 0x4, 4, 0x4, 1, .rw, 0xFFFFFFFF, 0xFFFFFFFF, 0xF8, 0x0⟩,  -- MUX_CMW
  ⟨0x110030, 0x4, 6, 0x4, 1, .ro, 0x0, 0x0, 0xF8, 0x0⟩,  -- MUX_CJS
  ⟨0x110080, 0x4, 16, 0x4, 1, .ro, 0x0, 0x0, 0xF8, 0x3F3F⟩,  -- MUX_STG
  ⟨0x110100, 0x4, 48, 0x4, 1, .rw, 0x3FFF1F, 0x3FFF1F, 0xF8, 0x380200⟩,  -- MUX_TOPT
  ⟨0x110200, 0x4, 48, 0x4, 1, .rw, 0xFFFFFF, 0xFFFFFF, 0xF8, 0x0⟩  -- MUX_RLEAD
]

/-- Rows of the EXC registers (R146). -/
def rowsExc : List RegRow := [
  ⟨0x120000, 0x4, 1, 0x4, 1, .ro, 0x0, 0x0, 0xF8, 0x220100⟩,  -- EXC_BLK_ID
  ⟨0x120004, 0x4, 1, 0x4, 1, .rw, 0x1FFFF, 0xFFFF, 0xF8, 0x258⟩,  -- EXC_CTRL
  ⟨0x120008, 0x4, 1, 0x4, 1, .sq, 0xFF01FFFF, 0x0, 0xF8, 0x0⟩,  -- EXC_STATUS
  ⟨0x12000C, 0x4, 1, 0x4, 1, .ro, 0x0, 0x0, 0xF8, 0x0⟩,  -- EXC_COMPL_NOW
  ⟨0x120010, 0x4, 1, 0x4, 1, .ro, 0x0, 0x0, 0xF8, 0x0⟩,  -- EXC_CALFAIL_NOW
  ⟨0x120040, 0x4, 16, 0x4, 1, .rw, 0xE03F00FF, 0xE03F00FF, 0xF8, 0x3F0064⟩,  -- EXC_SRC
  ⟨0x120080, 0x4, 16, 0x4, 1, .ro, 0x0, 0x0, 0xF8, 0xF3F0000⟩,  -- EXC_STATE
  ⟨0x1200C0, 0x4, 16, 0x4, 1, .ro, 0x0, 0x0, 0xF8, 0x0⟩  -- EXC_CAL
]

/-- Rows of the ASY registers (R182). -/
def rowsAsy : List RegRow := [
  ⟨0x130000, 0x1000, 8, 0x1000, 1, .ro, 0x0, 0x0, 0xF8, 0x230100⟩,  -- ASY_BLK_ID
  ⟨0x130004, 0x1000, 8, 0x1000, 1, .rw, 0xFFF0703, 0xFFF0701, 0xF8, 0x280001⟩,  -- ASY_CTRL
  ⟨0x130008, 0x1000, 8, 0x1000, 1, .ro, 0x0, 0x0, 0xF8, 0x0⟩,  -- ASY_STATE
  ⟨0x13000C, 0x1000, 8, 0x1000, 1, .sq, 0xFF0001FF, 0x0, 0xF8, 0x0⟩,  -- ASY_STATUS
  ⟨0x130010, 0x1000, 8, 0x1000, 1, .rw, 0xFFFF0F, 0xFFFF0F, 0xF8, 0x5A1404⟩,  -- ASY_AR
  ⟨0x130014, 0x1000, 8, 0x1000, 1, .rw, 0x3FF000F, 0x3FF000F, 0xF8, 0x14000C⟩,  -- ASY_BLANK
  ⟨0x130018, 0x1000, 8, 0x1000, 1, .ro, 0x0, 0x0, 0xF8, 0x0⟩,  -- ASY_LOAD
  ⟨0x130020, 0x1000, 8, 0x1000, 1, .ro, 0x0, 0x0, 0xF8, 0x0⟩,  -- ASY_LAST
  ⟨0x130024, 0x1000, 8, 0x1000, 1, .ro, 0x0, 0x0, 0xF8, 0x0⟩,  -- ASY_LAST_POINT
  ⟨0x130028, 0x1000, 8, 0x1000, 1, .ro, 0x0, 0x0, 0xF8, 0x0⟩,  -- ASY_LAST_STAMP_LO
  ⟨0x13002C, 0x1000, 8, 0x1000, 1, .ro, 0x0, 0x0, 0xF8, 0x0⟩,  -- ASY_LAST_STAMP_HI
  ⟨0x130030, 0x1000, 8, 0x1000, 1, .ro, 0x0, 0x0, 0xF8, 0x0⟩,  -- ASY_CNT
  ⟨0x130034, 0x1000, 8, 0x1000, 1, .ro, 0x0, 0x0, 0xF8, 0x0⟩,  -- ASY_CNT2
  ⟨0x130040, 0x1000, 8, 0x4, 4, .ro, 0x0, 0x0, 0xF8, 0x0⟩,  -- ASY_GCAL
  ⟨0x130050, 0x1000, 8, 0x1000, 1, .ro, 0x0, 0x0, 0xF8, 0x0⟩  -- ASY_REFERR
]

/-- Rows of the SVC registers (R184). -/
def rowsSvc : List RegRow := [
  ⟨0x140000, 0x4, 1, 0x4, 1, .ro, 0x0, 0x0, 0xF8, 0x240100⟩,  -- SVC_BLK_ID
  ⟨0x140004, 0x4, 1, 0x4, 1, .rw, 0xFFFF, 0xFFFF, 0xF8, 0x3E8⟩,  -- SVC_CTRL
  ⟨0x140008, 0x4, 1, 0x4, 1, .sq, 0xFF0000F3, 0x0, 0xF8, 0x0⟩,  -- SVC_STATUS
  ⟨0x14000C, 0x4, 1, 0x4, 1, .ro, 0x0, 0x0, 0xF8, 0xF⟩,  -- SVC_STATE
  ⟨0x140010, 0x4, 1, 0x4, 1, .ro, 0x0, 0x0, 0xF8, 0x0⟩,  -- SVC_LATE_CNT
  ⟨0x140020, 0x4, 8, 0x4, 1, .ro, 0x0, 0x0, 0xF8, 0x0⟩,  -- SVC_REFCHK
  ⟨0x140100, 0x4, 48, 0x4, 1, .ro, 0x0, 0x0, 0xF8, 0x0⟩,  -- SVC_TV
  ⟨0x140200, 0x4, 48, 0x4, 1, .ro, 0x0, 0x0, 0xF8, 0x0⟩  -- SVC_ILOOP
]

/-- Rows of the HRT registers (R206). -/
def rowsHrt : List RegRow := [
  ⟨0x150000, 0x4, 1, 0x4, 1, .ro, 0x0, 0x0, 0xF8, 0x250100⟩,  -- HRT_BLK_ID
  ⟨0x150004, 0x4, 1, 0x4, 1, .rw, 0x1, 0x1, 0xF8, 0x0⟩,  -- HRT_CTRL
  ⟨0x150100, 0x200, 4, 0x200, 1, .rw, 0x3F1F01, 0x3F1F01, 0xF8, 0x3F0500⟩,  -- HRT_MCFG
  ⟨0x150104, 0x200, 4, 0x200, 1, .wo, 0x7, 0x0, 0xF8, 0x0⟩,  -- HRT_MCMD
  ⟨0x150108, 0x200, 4, 0x200, 1, .ro, 0x0, 0x0, 0xF8, 0xFF00⟩,  -- HRT_MSTATE
  ⟨0x15010C, 0x200, 4, 0x200, 1, .sq, 0xFF00003F, 0x0, 0xF8, 0x0⟩,  -- HRT_MSTATUS
  ⟨0x150110, 0x200, 4, 0x200, 1, .rw, 0xFF, 0xFF, 0xF8, 0x0⟩,  -- HRT_MTXLEN
  ⟨0x150114, 0x200, 4, 0x200, 1, .rw, 0xFF, 0xFF, 0xF8, 0x29⟩,  -- HRT_MTIMEOUT
  ⟨0x150118, 0x200, 4, 0x200, 1, .ro, 0x0, 0x0, 0xF8, 0x0⟩,  -- HRT_MERR
  ⟨0x150140, 0x200, 4, 0x4, 32, .rw, 0xFFFFFFFF, 0xFFFFFFFF, 0xF8, 0x0⟩,  -- HRT_MTXBUF
  ⟨0x1501C0, 0x200, 4, 0x4, 32, .ro, 0x0, 0x0, 0xF8, 0x0⟩,  -- HRT_MRXBUF
  ⟨0x151000, 0x20, 48, 0x20, 1, .rw, 0xFF3FFFF1, 0xFF3FFFF1, 0xF8, 0x323F6900⟩,  -- HRT_LCFG
  ⟨0x151004, 0x20, 48, 0x20, 1, .rw, 0xFFFFFF, 0xFFFFFF, 0xF8, 0x186A0⟩,  -- HRT_LRB
  ⟨0x151008, 0x20, 48, 0x20, 1, .rw, 0xFFFF, 0xFFFF, 0xF8, 0x0⟩,  -- HRT_LGAIN
  ⟨0x15100C, 0x20, 48, 0x20, 1, .rw, 0xFFFF, 0xFFFF, 0xF8, 0x0⟩,  -- HRT_LOFS
  ⟨0x151010, 0x20, 48, 0x20, 1, .ro, 0x0, 0x0, 0xF8, 0x0⟩,  -- HRT_LCUR
  ⟨0x151014, 0x20, 48, 0x20, 1, .ro, 0x0, 0x0, 0xF8, 0xFFFF0700⟩,  -- HRT_LSTATE
  ⟨0x151018, 0x20, 48, 0x20, 1, .sq, 0xFF00007F, 0x0, 0xF8, 0x0⟩  -- HRT_LSTATUS
]

/-- Rows of the SEQ registers (R210, R226). -/
def rowsSeq : List RegRow := [
  ⟨0x168000, 0x20, 512, 0x20, 1, .rw, 0x8F7FEFE0, 0x8F7FEFE0, 0xF8, 0x0⟩,  -- SD_MODE
  ⟨0x168004, 0x20, 512, 0x20, 1, .rw, 0x3F3F3F3F, 0x3F3F3F3F, 0xF8, 0x3F3F3F3F⟩,  -- SD_TERM
  ⟨0x168008, 0x20, 512, 0x20, 1, .rw, 0xFFFFFFFF, 0xFFFFFFFF, 0xF8, 0x0⟩,  -- SD_LO
  ⟨0x16800C, 0x20, 512, 0x20, 1, .rw, 0xFFFFFFFF, 0xFFFFFFFF, 0xF8, 0x0⟩,  -- SD_HI
  ⟨0x168010, 0x20, 512, 0x20, 1, .rw, 0xFFFFFFFF, 0xFFFFFFFF, 0xF8, 0x0⟩,  -- SD_VSPAN
  ⟨0x168014, 0x20, 512, 0x20, 1, .rw, 0x1F1F00FF, 0x1F1F00FF, 0xF8, 0x1F1F0000⟩,  -- SD_EXC
  ⟨0x168018, 0x20, 512, 0x20, 1, .rw, 0xFFFF03FF, 0xFFFF03FF, 0xF8, 0x0⟩,  -- SD_TIME
  ⟨0x160000, 0x4, 1, 0x4, 1, .ro, 0x0, 0x0, 0xF8, 0x260100⟩,  -- SEQ_BLK_ID
  ⟨0x160004, 0x4, 1, 0x4, 1, .wo, 0x3, 0x0, 0xF8, 0x0⟩,  -- SEQ_CTRL
  ⟨0x160008, 0x4, 1, 0x4, 1, .sq, 0xFF00003F, 0x0, 0xF8, 0x0⟩,  -- SEQ_STATUS
  ⟨0x16000C, 0x4, 1, 0x4, 1, .ro, 0x0, 0x0, 0xF8, 0x0⟩,  -- SEQ_COMMIT
  ⟨0x160010, 0x4, 1, 0x4, 1, .rw, 0xFFFFF, 0xFFFFF, 0xF8, 0x2710⟩,  -- SEQ_FRAME
  ⟨0x160014, 0x4, 1, 0x4, 1, .ro, 0x0, 0x0, 0xF8, 0x2710⟩,  -- SEQ_FRAME_ACT
  ⟨0x160018, 0x4, 1, 0x4, 1, .ro, 0x0, 0x0, 0xF8, 0x0⟩,  -- SEQ_COMMIT_HI
  ⟨0x16001C, 0x4, 1, 0x4, 1, .ro, 0x0, 0x0, 0xF8, 0x0⟩,  -- SEQ_FRAME_CNT
  ⟨0x160020, 0x4, 1, 0x4, 1, .ro, 0x0, 0x0, 0xF8, 0x0⟩,  -- SEQ_NEXT_SEAM_LO
  ⟨0x160024, 0x4, 1, 0x4, 1, .ro, 0x0, 0x0, 0xF8, 0x0⟩,  -- SEQ_NEXT_SEAM_HI
  ⟨0x160040, 0x4, 8, 0x4, 1, .rw, 0x800000FF, 0x800000FF, 0xF8, 0x1⟩,  -- SEQ_CLIST
  ⟨0x160060, 0x4, 8, 0x4, 1, .ro, 0x0, 0x0, 0xF8, 0x1⟩,  -- SEQ_CLIST_ACT
  ⟨0x160080, 0x4, 8, 0x4, 1, .ro, 0x0, 0x0, 0xF8, 0xF000000⟩,  -- SEQ_PLAN
  ⟨0x1600A0, 0x4, 8, 0x4, 1, .ro, 0x0, 0x0, 0xF8, 0xF00⟩,  -- SEQ_RUN
  ⟨0x16C000, 0x20, 512, 0x20, 1, .ro, 0x0, 0x0, 0xF8, 0x0⟩,  -- SA_MODE
  ⟨0x16C004, 0x20, 512, 0x20, 1, .ro, 0x0, 0x0, 0xF8, 0x3F3F3F3F⟩,  -- SA_TERM
  ⟨0x16C008, 0x20, 512, 0x20, 1, .ro, 0x0, 0x0, 0xF8, 0x0⟩,  -- SA_LO
  ⟨0x16C00C, 0x20, 512, 0x20, 1, .ro, 0x0, 0x0, 0xF8, 0x0⟩,  -- SA_HI
  ⟨0x16C010, 0x20, 512, 0x20, 1, .ro, 0x0, 0x0, 0xF8, 0x0⟩,  -- SA_VSPAN
  ⟨0x16C014, 0x20, 512, 0x20, 1, .ro, 0x0, 0x0, 0xF8, 0x1F1F0000⟩,  -- SA_EXC
  ⟨0x16C018, 0x20, 512, 0x20, 1, .ro, 0x0, 0x0, 0xF8, 0x0⟩  -- SA_TIME
]

/-- Rows of the LN registers (R261). -/
def rowsLn : List RegRow := [
  ⟨0x200000, 0x40000, 3, 0x40000, 1, .ro, 0x0, 0x0, 0xF8, 0x300100⟩,  -- LN_BLK_ID
  ⟨0x200004, 0x40000, 3, 0x40000, 1, .ro, 0x0, 0x0, 0xF8, 0x0⟩,  -- LN_STATE
  ⟨0x200008, 0x40000, 3, 0x40000, 1, .sq, 0xFF00003F, 0x0, 0xF8, 0x0⟩,  -- LN_STATUS
  ⟨0x20000C, 0x40000, 3, 0x40000, 1, .ro, 0x0, 0x0, 0xF8, 0x0⟩,  -- LN_CYCLES
  ⟨0x200010, 0x40000, 3, 0x40000, 1, .ro, 0x0, 0x0, 0xF8, 0x0⟩,  -- LN_FRAME_LO
  ⟨0x200014, 0x40000, 3, 0x40000, 1, .ro, 0x0, 0x0, 0xF8, 0x0⟩,  -- LN_FRAME_HI
  ⟨0x200018, 0x40000, 3, 0x40000, 1, .ro, 0x0, 0x0, 0xF8, 0x3C46⟩,  -- LN_CEIL
  ⟨0x20001C, 0x40000, 3, 0x40000, 1, .ro, 0x0, 0x0, 0xF8, 0x0⟩,  -- LN_ECC
  ⟨0x200020, 0x40000, 3, 0x40000, 1, .ro, 0x0, 0x0, 0xF8, 0x0⟩,  -- LN_CODEDIG
  ⟨0x200024, 0x40000, 3, 0x40000, 1, .ro, 0x0, 0x0, 0xF8, 0x0⟩,  -- LN_INBUF
  ⟨0x200028, 0x40000, 3, 0x40000, 1, .ro, 0x0, 0x0, 0xF8, 0x0⟩,  -- LN_UNTAKEN
  ⟨0x200040, 0x40000, 3, 0x40000, 1, .wo, 0xFFFFFF7F, 0x0, 0x78, 0x0⟩,  -- LN_TCMD
  ⟨0x200044, 0x40000, 3, 0x40000, 1, .ro, 0x0, 0x0, 0xF8, 0x0⟩,  -- LN_TCMDQ
  ⟨0x200400, 0x40000, 3, 0x8, 128, .ro, 0x0, 0x0, 0xF8, 0x0⟩,  -- LN_TSTATE
  ⟨0x200404, 0x40000, 3, 0x8, 128, .ro, 0x0, 0x0, 0xF8, 0x0⟩,  -- LN_TPC
  ⟨0x200800, 0x40000, 3, 0x4, 128, .ro, 0x0, 0x0, 0xF8, 0x0⟩,  -- LN_TBUDGET
  ⟨0x200C00, 0x40000, 3, 0x4, 128, .ro, 0x0, 0x0, 0xF8, 0x0⟩,  -- LN_RING
  ⟨0x210000, 0x40000, 3, 0x4, 2048, .rw, 0xFFFFFFFF, 0xFFFFFFFF, 0x10, 0x0⟩,  -- LN_KTAG
  ⟨0x220000, 0x40000, 3, 0x4, 32768, .rw, 0xFFFFFFFF, 0xFFFFFFFF, 0x10, 0x0⟩  -- LN_KEEP
]

/-- Rows of the TLY registers (R360). -/
def rowsTly : List RegRow := [
  ⟨0x2C0000, 0x4, 1, 0x4, 1, .ro, 0x0, 0x0, 0xF8, 0x330100⟩,  -- TLY_BLK_ID
  ⟨0x2C0004, 0x4, 1, 0x4, 1, .wo, 0x77, 0x0, 0x10, 0x0⟩,  -- TLY_CTRL
  ⟨0x2C0008, 0x4, 1, 0x4, 1, .ro, 0x0, 0x0, 0xF8, 0x3770⟩,  -- TLY_STATE
  ⟨0x2C000C, 0x4, 1, 0x4, 1, .sq, 0xFF000FFF, 0x0, 0xF8, 0x0⟩,  -- TLY_STATUS
  ⟨0x2C0010, 0x4, 1, 0x4, 1, .ro, 0x0, 0x0, 0xF8, 0x0⟩,  -- TLY_VFRAME_LO
  ⟨0x2C0014, 0x4, 1, 0x4, 1, .ro, 0x0, 0x0, 0xF8, 0x0⟩,  -- TLY_VFRAME_HI
  ⟨0x2C0018, 0x4, 1, 0x4, 1, .ro, 0x0, 0x0, 0xF8, 0x0⟩,  -- TLY_HANDON
  ⟨0x2C001C, 0x4, 1, 0x4, 1, .ro, 0x0, 0x0, 0xF8, 0x0⟩,  -- TLY_INSET
  ⟨0x2C0020, 0x4, 1, 0x4, 1, .ro, 0x0, 0x0, 0xF8, 0x0⟩,  -- TLY_REJOIN
  ⟨0x2C0024, 0x4, 1, 0x4, 1, .ro, 0x0, 0x0, 0xF8, 0x0⟩,  -- TLY_WITHHELD
  ⟨0x2C0028, 0x4, 1, 0x4, 1, .ro, 0x0, 0x0, 0xF8, 0x0⟩,  -- TLY_LATEIN
  ⟨0x2C0040, 0x4, 3, 0x4, 1, .ro, 0x0, 0x0, 0xF8, 0x0⟩,  -- TLY_LANE
  ⟨0x2C0050, 0x4, 3, 0x4, 1, .ro, 0x0, 0x0, 0xF8, 0x0⟩,  -- TLY_LAST
  ⟨0x2C0060, 0x4, 3, 0x4, 1, .ro, 0x0, 0x0, 0xF8, 0x0⟩,  -- TLY_CLK
  ⟨0x2C0070, 0x4, 3, 0x4, 1, .ro, 0x0, 0x0, 0xF8, 0x0⟩  -- TLY_VOTER
]

/-- Rows of the TRP registers (R382). -/
def rowsTrp : List RegRow := [
  ⟨0x300000, 0x4, 1, 0x4, 1, .ro, 0x0, 0x0, 0xF8, 0x400100⟩,  -- TRP_BLK_ID
  ⟨0x300004, 0x4, 1, 0x4, 1, .lk, 0x1, 0x1, 0xF8, 0x0⟩,  -- TRP_LOCK
  ⟨0x300008, 0x4, 1, 0x4, 1, .sq, 0xFF00000F, 0x0, 0xF8, 0x0⟩,  -- TRP_STATUS
  ⟨0x30000C, 0x4, 1, 0x4, 1, .ro, 0x0, 0x0, 0xF8, 0x0⟩,  -- TRP_ASSERT
  ⟨0x300010, 0x4, 1, 0x4, 1, .ro, 0x0, 0x0, 0xF8, 0x0⟩,  -- TRP_LATCHED
  ⟨0x300014, 0x4, 1, 0x4, 1, .wo, 0xFFFFFFFF, 0x0, 0xF8, 0x0⟩,  -- TRP_RESET
  ⟨0x300018, 0x4, 1, 0x4, 1, .ro, 0x0, 0x0, 0xF8, 0x0⟩,  -- TRP_CNT
  ⟨0x300100, 0x20, 32, 0x20, 1, .rw, 0xF, 0xF, 0xF8, 0x0⟩,  -- TRP_CFG
  ⟨0x300104, 0x20, 32, 0x20, 1, .rw, 0xFFFFFFFF, 0xFFFFFFFF, 0xF8, 0x0⟩,  -- TRP_LITA
  ⟨0x300108, 0x20, 32, 0x20, 1, .rw, 0xFFFFFFFF, 0xFFFFFFFF, 0xF8, 0x0⟩,  -- TRP_LITB
  ⟨0x30010C, 0x20, 32, 0x20, 1, .rw, 0xFFFFFFFF, 0xFFFFFFFF, 0xF8, 0x0⟩,  -- TRP_OUTLO
  ⟨0x300110, 0x20, 32, 0x20, 1, .rw, 0xFFFF, 0xFFFF, 0xF8, 0x0⟩,  -- TRP_OUTHI
  ⟨0x300114, 0x20, 32, 0x20, 1, .ro, 0x0, 0x0, 0xF8, 0x0⟩,  -- TRP_STAMP_LO
  ⟨0x300118, 0x20, 32, 0x20, 1, .ro, 0x0, 0x0, 0xF8, 0x0⟩  -- TRP_STAMP_HI
]

/-- Rows of the OUT registers (R383). -/
def rowsOut : List RegRow := [
  ⟨0x310000, 0x4, 1, 0x4, 1, .ro, 0x0, 0x0, 0xF8, 0x410100⟩,  -- OUT_BLK_ID
  ⟨0x310004, 0x4, 1, 0x4, 1, .sq, 0xFF000007, 0x0, 0xF8, 0x0⟩,  -- OUT_STATUS
  ⟨0x310008, 0x4, 1, 0x4, 1, .ro, 0x0, 0x0, 0xF8, 0x0⟩,  -- OUT_IGNORED
  ⟨0x31000C, 0x4, 1, 0x4, 1, .ro, 0x0, 0x0, 0xF8, 0x0⟩,  -- OUT_SAFE
  ⟨0x310100, 0x10, 48, 0x10, 1, .rw, 0x337, 0x337, 0xF8, 0x120⟩,  -- OUT_CFG
  ⟨0x310104, 0x10, 48, 0x10, 1, .ro, 0x0, 0x0, 0xF8, 0x0⟩  -- OUT_STATE
]

/-- Rows of the SUP registers (R384, R590). -/
def rowsSup : List RegRow := [
  ⟨0x10100, 0x4, 1, 0x4, 1, .rw, 0xFF0FFF1F, 0xFF0FFF1F, 0xF8, 0x14020A04⟩,  -- SUP_PMT_CFG
  ⟨0x10104, 0x4, 1, 0x4, 1, .ro, 0x0, 0x0, 0xF8, 0x0⟩,  -- SUP_PMT_STATE
  ⟨0x10108, 0x4, 1, 0x4, 1, .sq, 0xFF000003, 0x0, 0xF8, 0x0⟩,  -- SUP_PMT_STATUS
  ⟨0x1010C, 0x4, 1, 0x4, 1, .ro, 0x0, 0x0, 0xF8, 0x0⟩,  -- SUP_PMT_CNT
  ⟨0x10000, 0x4, 1, 0x4, 1, .ro, 0x0, 0x0, 0xF8, 0x100100⟩,  -- SUP_BLK_ID
  ⟨0x10004, 0x4, 1, 0x4, 1, .rw, 0xFF03, 0xFF03, 0x10, 0x2803⟩,  -- SUP_CTRL
  ⟨0x10008, 0x4, 1, 0x4, 1, .ro, 0x0, 0x0, 0xF8, 0x0⟩,  -- SUP_STATE
  ⟨0x1000C, 0x4, 1, 0x4, 1, .sq, 0xFF0000FF, 0x0, 0xF8, 0x0⟩,  -- SUP_STATUS
  ⟨0x10010, 0x4, 1, 0x4, 1, .ro, 0x0, 0x0, 0xF8, 0x0⟩,  -- SUP_VIN
  ⟨0x10014, 0x4, 1, 0x4, 1, .ro, 0x0, 0x0, 0xF8, 0x0⟩,  -- SUP_HOLD
  ⟨0x10018, 0x4, 1, 0x4, 1, .ro, 0x0, 0x0, 0xF8, 0x0⟩,  -- SUP_FLD
  ⟨0x1001C, 0x4, 1, 0x4, 1, .ro, 0x0, 0x0, 0xF8, 0x1⟩,  -- SUP_RESET
  ⟨0x10020, 0x4, 1, 0x4, 1, .wo, 0xFFFF0000, 0x0, 0x30, 0x0⟩,  -- SUP_RST
  ⟨0x10024, 0x4, 1, 0x4, 1, .ro, 0x0, 0x0, 0xF8, 0x0⟩,  -- SUP_BOOT
  ⟨0x10028, 0x4, 1, 0x4, 1, .ro, 0x0, 0x0, 0xF8, 0x0⟩  -- SUP_RIDES
]

/-- Rows of the MGS registers (R390, R552). -/
def rowsMgs : List RegRow := [
  ⟨0x70200, 0x4, 1, 0x4, 1, .rw, 0xFFFFFFFF, 0xFFFFFFFF, 0x30, 0x0⟩,  -- MGS_HCMD_ARG
  ⟨0x70204, 0x4, 1, 0x4, 1, .wo, 0xFF00FFFF, 0x0, 0x30, 0x0⟩,  -- MGS_HCMD
  ⟨0x70208, 0x4, 1, 0x4, 1, .ro, 0x0, 0x0, 0x30, 0x0⟩,  -- MGS_HCMD_STATE
  ⟨0x70000, 0x4, 1, 0x4, 1, .ro, 0x0, 0x0, 0xF8, 0x160100⟩,  -- MGS_BLK_ID
  ⟨0x70004, 0x4, 1, 0x4, 1, .rw, 0xFF01, 0xFF01, 0x10, 0x3200⟩,  -- MGS_CTRL
  ⟨0x70008, 0x4, 1, 0x4, 1, .sq, 0xFF00007F, 0x0, 0xF8, 0x0⟩,  -- MGS_STATUS
  ⟨0x7000C, 0x4, 1, 0x4, 1, .wo, 0xFFFFFFFF, 0x0, 0x10, 0x0⟩,  -- MGS_WDOG
  ⟨0x70010, 0x4, 1, 0x4, 1, .ro, 0x0, 0x0, 0xF8, 0x0⟩,  -- MGS_RESETS
  ⟨0x70014, 0x4, 1, 0x4, 1, .ro, 0x0, 0x0, 0xF8, 0x0⟩,  -- MGS_OPSECS_LO
  ⟨0x70018, 0x4, 1, 0x4, 1, .ro, 0x0, 0x0, 0xF8, 0x0⟩,  -- MGS_OPSECS_HI
  ⟨0x7001C, 0x4, 1, 0x4, 1, .ro, 0x0, 0x0, 0xF8, 0x0⟩,  -- MGS_CYCLES
  ⟨0x70020, 0x4, 1, 0x4, 1, .ro, 0x0, 0x0, 0xF8, 0x0⟩,  -- MGS_CFGSKIP
  ⟨0x70040, 0x4, 12, 0x4, 1, .ro, 0x0, 0x0, 0xF8, 0x0⟩,  -- MGS_TEMP
  ⟨0x70070, 0x4, 1, 0x4, 1, .rw, 0xFFFF, 0xFFFF, 0x10, 0x7D73⟩,  -- MGS_TLIM
  ⟨0x70080, 0x4, 7, 0x4, 1, .ro, 0x0, 0x0, 0xF8, 0x0⟩,  -- MGS_VMON
  ⟨0x70100, 0x4, 48, 0x4, 1, .ro, 0x0, 0x0, 0xF8, 0x0⟩,  -- MGS_TSW
  ⟨0x70300, 0x4, 1, 0x4, 1, .rw, 0xFFFFFFFC, 0xFFFFFFFC, 0x78, 0x0⟩,  -- MGS_CFGJ_ADDR
  ⟨0x70304, 0x4, 1, 0x4, 1, .wo, 0x8000003F, 0x0, 0x78, 0x0⟩,  -- MGS_CFGJ_CMD
  ⟨0x70308, 0x4, 1, 0x4, 1, .ro, 0x0, 0x0, 0x78, 0x0⟩,  -- MGS_CFGJ_STATE
  ⟨0x70400, 0x8, 64, 0x8, 1, .rw, 0xFFFFFFFD, 0xFFFFFFFD, 0x10, 0x0⟩,  -- MGS_WATCH_BASE
  ⟨0x70404, 0x8, 64, 0x8, 1, .rw, 0xFFFFFFFC, 0xFFFFFFFC, 0x10, 0x0⟩,  -- MGS_WATCH_LIM
  ⟨0x70600, 0x4, 1, 0x4, 1, .ro, 0x0, 0x0, 0xF8, 0x0⟩,  -- MGS_WQ
  ⟨0x70604, 0x4, 1, 0x4, 1, .wo, 0x1, 0x0, 0x10, 0x0⟩  -- MGS_WQPOP
]

/-- Rows of the JNL registers, part 1 (R433). -/
def rowsJnl0 : List RegRow := [
  ⟨0x60000, 0x4, 1, 0x4, 1, .ro, 0x0, 0x0, 0xF8, 0x150100⟩,  -- JNL_BLK_ID
  ⟨0x60004, 0x4, 1, 0x4, 1, .rw, 0xFFFF0001, 0xFFFF0000, 0xF8, 0x16D0000⟩,  -- JNL_CTRL
  ⟨0x60008, 0x4, 1, 0x4, 1, .ro, 0x0, 0x0, 0xF8, 0x0⟩,  -- JNL_STATE
  ⟨0x6000C, 0x4, 1, 0x4, 1, .sq, 0xFF0001FF, 0x0, 0xF8, 0x0⟩,  -- JNL_STATUS
  ⟨0x60010, 0x4, 1, 0x4, 1, .ro, 0x0, 0x0, 0xF8, 0x0⟩,  -- JNL_SEQ_LO
  ⟨0x60014, 0x4, 1, 0x4, 1, .ro, 0x0, 0x0, 0xF8, 0x0⟩,  -- JNL_SEQ_HI
  ⟨0x60018, 0x4, 1, 0x4, 1, .ro, 0x0, 0x0, 0xF8, 0x0⟩,  -- JNL_MAXSTAMP_LO
  ⟨0x6001C, 0x4, 1, 0x4, 1, .ro, 0x0, 0x0, 0xF8, 0x0⟩,  -- JNL_MAXSTAMP_HI
  ⟨0x60020, 0x4, 1, 0x4, 1, .ro, 0x0, 0x0, 0xF8, 0x0⟩,  -- JNL_CADDY
  ⟨0x60024, 0x4, 1, 0x4, 1, .ro, 0x0, 0x0, 0xF8, 0x0⟩,  -- JNL_RECOV
  ⟨0x60028, 0x4, 1, 0x4, 1, .ro, 0x0, 0x0, 0xF8, 0x0⟩,  -- JNL_CNT
  ⟨0x6002C, 0x4, 1, 0x4, 1, .ro, 0x0, 0x0, 0xF8, 0x0⟩,  -- JNL_COMPACT
  ⟨0x60030, 0x4, 1, 0x4, 1, .ro, 0x0, 0x0, 0xF8, 0x0⟩,  -- JNL_IN_LO
  ⟨0x60034, 0x4, 1, 0x4, 1, .ro, 0x0, 0x0, 0xF8, 0x0⟩,  -- JNL_IN_HI
  ⟨0x60038, 0x4, 1, 0x4, 1, .ro, 0x0, 0x0, 0xF8, 0x0⟩,  -- JNL_PROG_LO
  ⟨0x6003C, 0x4, 1, 0x4, 1, .ro, 0x0, 0x0, 0xF8, 0x0⟩,  -- JNL_PROG_HI
  ⟨0x60040, 0x4, 1, 0x4, 1, .ro, 0x0, 0x0, 0xF8, 0x0⟩,  -- JNL_LIVE
  ⟨0x60044, 0x4, 1, 0x4, 1, .ro, 0x0, 0x0, 0xF8, 0x0⟩,  -- JNL_IDENT
  ⟨0x60100, 0x4, 128, 0x4, 1, .ro, 0x0, 0x0, 0xF8, 0x0⟩,  -- JNL_SEG
  ⟨0x60400, 0x4, 1, 0x4, 1, .rw, 0xFFFFFFFF, 0xFFFFFFFF, 0xF8, 0x0⟩,  -- JNL_KEY0
  ⟨0x60404, 0x4, 1, 0x4, 1, .rw, 0xFFFFFFFF, 0xFFFFFFFF, 0xF8, 0x0⟩,  -- JNL_KEY1
  ⟨0x60408, 0x4, 1, 0x4, 1, .wo, 0x3, 0x0, 0xF8, 0x0⟩,  -- JNL_LOOK
  ⟨0x6040C, 0x4, 1, 0x4, 1, .ro, 0x0, 0x0, 0xF8, 0x0⟩,  -- JNL_LOOK_STATE
  ⟨0x60410, 0x4, 1, 0x4, 1, .ro, 0x0, 0x0, 0xF8, 0x0⟩,  -- JNL_LOOK_SEQ_LO
  ⟨0x60414, 0x4, 1, 0x4, 1, .ro, 0x0, 0x0, 0xF8, 0x0⟩,  -- JNL_LOOK_SEQ_HI
  ⟨0x60500, 0x4, 64, 0x4, 1, .ro, 0x0, 0x0, 0xF8, 0x0⟩,  -- JNL_RWIN
  ⟨0x60600, 0x4, 1, 0x4, 1, .rw, 0xFFFFFF00, 0xFFFFFF00, 0x90, 0x10000⟩,  -- JNL_WHDR
  ⟨0x60604, 0x4, 1, 0x4, 1, .rw, 0xFFFF, 0xFFFF, 0x90, 0x0⟩,  -- JNL_WSUBJ
  ⟨0x60608, 0x4, 1, 0x4, 1, .rw, 0xFFFFFFFF, 0xFFFFFFFF, 0x90, 0x0⟩,  -- JNL_WSTAMP_LO
  ⟨0x6060C, 0x4, 1, 0x4, 1, .rw, 0xFFFFFFFF, 0xFFFFFFFF, 0x90, 0x0⟩  -- JNL_WSTAMP_HI
]

/-- Rows of the JNL registers, part 2 (R433). -/
def rowsJnl1 : List RegRow := [
  ⟨0x60610, 0x4, 1, 0x4, 1, .rw, 0xFF, 0xFF, 0x90, 0x0⟩,  -- JNL_WLEN
  ⟨0x60614, 0x4, 1, 0x4, 1, .wo, 0x7, 0x0, 0x90, 0x0⟩,  -- JNL_WCMD
  ⟨0x60618, 0x4, 1, 0x4, 1, .ro, 0x0, 0x0, 0x90, 0x0⟩,  -- JNL_WSTATE
  ⟨0x6061C, 0x4, 1, 0x4, 1, .ro, 0x0, 0x0, 0x90, 0x0⟩,  -- JNL_WSEQ
  ⟨0x60700, 0x4, 57, 0x4, 1, .rw, 0xFFFFFFFF, 0xFFFFFFFF, 0x90, 0x0⟩,  -- JNL_WBUF
  ⟨0x60800, 0x4, 1, 0x4, 1, .rw, 0x7FFFF0, 0x7FFFF0, 0xF8, 0x0⟩,  -- JNL_FADDR
  ⟨0x60804, 0x4, 1, 0x4, 1, .wo, 0x3, 0x0, 0xF8, 0x0⟩,  -- JNL_FCMD
  ⟨0x60808, 0x4, 1, 0x4, 1, .ro, 0x0, 0x0, 0xF8, 0x0⟩,  -- JNL_FSTATE
  ⟨0x60810, 0x4, 4, 0x4, 1, .rw, 0xFFFFFFFF, 0xFFFFFFFF, 0xF8, 0x0⟩  -- JNL_FDATA
]

/-- Rows of the JNL registers. -/
def rowsJnl : List RegRow := rowsJnl0 ++ rowsJnl1

/-- Rows of the EVR registers (R448). -/
def rowsEvr : List RegRow := [
  ⟨0x50000, 0x4, 1, 0x4, 1, .ro, 0x0, 0x0, 0xF8, 0x140100⟩,  -- EVR_BLK_ID
  ⟨0x50004, 0x4, 1, 0x4, 1, .rw, 0xFF01, 0xFF01, 0x10, 0x3C01⟩,  -- EVR_CTRL
  ⟨0x50008, 0x4, 1, 0x4, 1, .sq, 0xFF00001F, 0x0, 0xF8, 0x0⟩,  -- EVR_STATUS
  ⟨0x5000C, 0x4, 1, 0x4, 1, .ro, 0x0, 0x0, 0xF8, 0x0⟩,  -- EVR_STATE
  ⟨0x50010, 0x4, 1, 0x4, 1, .ro, 0x0, 0x0, 0xF8, 0x0⟩,  -- EVR_NEXTSEQ
  ⟨0x50014, 0x4, 1, 0x4, 1, .ro, 0x0, 0x0, 0xF8, 0x0⟩,  -- EVR_DROPS
  ⟨0x50018, 0x4, 1, 0x4, 1, .wo, 0xFFFF, 0x0, 0x38, 0x0⟩,  -- EVR_SWTRIG
  ⟨0x5001C, 0x4, 1, 0x4, 1, .wo, 0xFFFF0003, 0x0, 0x10, 0x0⟩,  -- EVR_CLEAR
  ⟨0x50020, 0x4, 1, 0x4, 1, .rw, 0xE0000FFF, 0xE0000FFF, 0x70, 0x0⟩,  -- EVR_CURSOR
  ⟨0x50024, 0x4, 1, 0x4, 1, .ro, 0x0, 0x0, 0xF8, 0x0⟩,  -- EVR_WSEQ
  ⟨0x50028, 0x4, 1, 0x4, 1, .ro, 0x0, 0x0, 0xF8, 0x0⟩,  -- EVR_WEND
  ⟨0x5002C, 0x4, 1, 0x4, 1, .ro, 0x0, 0x0, 0xF8, 0x0⟩,  -- EVR_WRPT_LO
  ⟨0x50030, 0x4, 1, 0x4, 1, .ro, 0x0, 0x0, 0xF8, 0x0⟩,  -- EVR_WRPT_HI
  ⟨0x50040, 0x4, 32, 0x4, 1, .rw, 0xF8F30000, 0xF8F30000, 0x10, 0x0⟩,  -- EVR_TRG
  ⟨0x500C0, 0x4, 32, 0x4, 1, .rw, 0xFFFFFFFF, 0xFFFFFFFF, 0x10, 0x0⟩,  -- EVR_TMATCH
  ⟨0x50200, 0x40, 8, 0x4, 16, .rw, 0xC0FFFFFF, 0xC0FFFFFF, 0x10, 0x0⟩,  -- EVR_LIST
  ⟨0x50400, 0x4, 24, 0x4, 1, .ro, 0x0, 0x0, 0xF8, 0x0⟩  -- EVR_WIN
]

/-- Rows of the RTC registers (R467). -/
def rowsRtc : List RegRow := [
  ⟨0x40000, 0x4, 1, 0x4, 1, .ro, 0x0, 0x0, 0xF8, 0x130100⟩,  -- RTC_BLK_ID
  ⟨0x40004, 0x4, 1, 0x4, 1, .ro, 0x0, 0x0, 0xF8, 0x0⟩,  -- RTC_SUBSEC
  ⟨0x40008, 0x4, 1, 0x4, 1, .rw, 0x3F, 0x3F, 0x78, 0x0⟩,  -- RTC_SEC
  ⟨0x4000C, 0x4, 1, 0x4, 1, .rw, 0x3F, 0x3F, 0x78, 0x0⟩,  -- RTC_MIN
  ⟨0x40010, 0x4, 1, 0x4, 1, .rw, 0x1F, 0x1F, 0x78, 0x0⟩,  -- RTC_HOUR
  ⟨0x40014, 0x4, 1, 0x4, 1, .rw, 0x1F, 0x1F, 0x78, 0x0⟩,  -- RTC_DATE
  ⟨0x40018, 0x4, 1, 0x4, 1, .rw, 0xF, 0xF, 0x78, 0x0⟩,  -- RTC_MONTH
  ⟨0x4001C, 0x4, 1, 0x4, 1, .rw, 0x7F, 0x7F, 0x78, 0x0⟩,  -- RTC_YEAR
  ⟨0x40020, 0x4, 1, 0x4, 1, .ro, 0x0, 0x0, 0xF8, 0x0⟩,  -- RTC_FLAGS
  ⟨0x40024, 0x4, 1, 0x4, 1, .wo, 0x3, 0x0, 0x78, 0x0⟩,  -- RTC_FCLR
  ⟨0x40028, 0x4, 1, 0x4, 1, .rw, 0x3FF, 0x3FF, 0x78, 0x0⟩,  -- RTC_CAL
  ⟨0x4002C, 0x4, 1, 0x4, 1, .sq, 0xFF00001F, 0x0, 0x78, 0x0⟩,  -- RTC_STATUS
  ⟨0x40030, 0x4, 1, 0x4, 1, .ro, 0x0, 0x0, 0xF8, 0x0⟩,  -- RTC_VBAT
  ⟨0x40034, 0x4, 1, 0x4, 1, .ro, 0x0, 0x0, 0xF8, 0x0⟩,  -- RTC_STAGE
  ⟨0x40038, 0x4, 1, 0x4, 1, .ro, 0x0, 0x0, 0xF8, 0x0⟩  -- RTC_GATE
]

/-- Rows of the PNL registers (R496). -/
def rowsPnl : List RegRow := [
  ⟨0x400000, 0x4, 1, 0x4, 1, .ro, 0x0, 0x0, 0xF8, 0x500100⟩,  -- PNL_BLK_ID
  ⟨0x400004, 0x4, 1, 0x4, 1, .rw, 0x1FF07, 0x1FF07, 0x10, 0x10000⟩,  -- PNL_CTRL
  ⟨0x400008, 0x4, 1, 0x4, 1, .sq, 0xFF001FFF, 0x0, 0xF8, 0x0⟩,  -- PNL_STATUS
  ⟨0x40000C, 0x4, 1, 0x4, 1, .ro, 0x0, 0x0, 0xF8, 0xFF0000⟩,  -- PNL_STATE
  ⟨0x400010, 0x4, 1, 0x4, 1, .rw, 0xFF, 0xFF, 0x10, 0x0⟩,  -- PNL_VCOM
  ⟨0x400014, 0x4, 1, 0x4, 1, .ro, 0x0, 0x0, 0xF8, 0x0⟩,  -- PNL_TEMP
  ⟨0x400018, 0x4, 1, 0x4, 1, .rw, 0xFFFF, 0xFFFF, 0x10, 0x2710⟩,  -- PNL_AGE
  ⟨0x40001C, 0x4, 1, 0x4, 1, .rw, 0xFFFF, 0xFFFF, 0x10, 0xF2D⟩,  -- PNL_PFCFG
  ⟨0x400020, 0x4, 1, 0x4, 1, .ro, 0x0, 0x0, 0xF8, 0xFF0000⟩,  -- PNL_RECOV
  ⟨0x400024, 0x4, 1, 0x4, 1, .ro, 0x0, 0x0, 0xF8, 0x0⟩,  -- PNL_WVER
  ⟨0x400028, 0x4, 1, 0x4, 1, .rw, 0xFFFF, 0xFFFF, 0x10, 0x0⟩,  -- PNL_WSTG
  ⟨0x40002C, 0x4, 1, 0x4, 1, .wo, 0x1, 0x0, 0x10, 0x0⟩,  -- PNL_WCMD
  ⟨0x400030, 0x4, 1, 0x4, 1, .ro, 0x0, 0x0, 0xF8, 0x0⟩,  -- PNL_CNT
  ⟨0x400040, 0x4, 8, 0x4, 1, .rw, 0xFF, 0xFF, 0x10, 0x0⟩,  -- PNL_TSCALE
  ⟨0x400080, 0x4, 14, 0x4, 1, .ro, 0x0, 0x0, 0xF8, 0x0⟩,  -- PNL_TGT
  ⟨0x4000C0, 0x4, 14, 0x4, 1, .ro, 0x0, 0x0, 0xF8, 0x0⟩,  -- PNL_BEL
  ⟨0x400100, 0x4, 56, 0x4, 1, .ro, 0x0, 0x0, 0xF8, 0x0⟩,  -- PNL_SEG
  ⟨0x400200, 0x4, 56, 0x4, 1, .ro, 0x0, 0x0, 0xF8, 0x0⟩,  -- PNL_STRESS
  ⟨0x400400, 0x10, 22, 0x4, 4, .rw, 0xFFFFFFFF, 0xFFFFFFFF, 0x10, 0x0⟩,  -- PNL_WAVE
  ⟨0x400800, 0x10, 22, 0x4, 4, .ro, 0x0, 0x0, 0xF8, 0x0⟩  -- PNL_WACT
]

/-- Rows of the NET registers, part 1 (R528). -/
def rowsNet0 : List RegRow := [
  ⟨0x500000, 0x4, 1, 0x4, 1, .ro, 0x0, 0x0, 0xF8, 0x600100⟩,  -- NET_BLK_ID
  ⟨0x500004, 0x4, 1, 0x4, 1, .rw, 0xF, 0xF, 0x10, 0x0⟩,  -- NET_CTRL
  ⟨0x500008, 0x4, 1, 0x4, 1, .sq, 0xFF0001FF, 0x0, 0xF8, 0x0⟩,  -- NET_STATUS
  ⟨0x50000C, 0x4, 1, 0x4, 1, .rw, 0xFFFFFF, 0xFFFFFF, 0x10, 0x10001⟩,  -- NET_NODEID
  ⟨0x500010, 0x4, 1, 0x4, 1, .rw, 0xFFFFFFFF, 0xFFFFFFFF, 0x10, 0x0⟩,  -- NET_MAC_LO
  ⟨0x500014, 0x4, 1, 0x4, 1, .rw, 0xFFFF, 0xFFFF, 0x10, 0x0⟩,  -- NET_MAC_HI
  ⟨0x500018, 0x4, 1, 0x4, 1, .rw, 0x1EFFF, 0x1EFFF, 0x10, 0x0⟩,  -- NET_VLAN
  ⟨0x50001C, 0x4, 1, 0x4, 1, .ro, 0x0, 0x0, 0xF8, 0x0⟩,  -- NET_CNT
  ⟨0x500020, 0x10, 2, 0x10, 1, .rw, 0x7, 0x7, 0x10, 0x1⟩,  -- NET_PCFG
  ⟨0x500024, 0x10, 2, 0x10, 1, .ro, 0x0, 0x0, 0xF8, 0x0⟩,  -- NET_PSTATE
  ⟨0x500028, 0x10, 2, 0x10, 1, .ro, 0x0, 0x0, 0xF8, 0x0⟩,  -- NET_PRX
  ⟨0x50002C, 0x10, 2, 0x10, 1, .ro, 0x0, 0x0, 0xF8, 0x0⟩,  -- NET_PERR
  ⟨0x500040, 0x4, 1, 0x4, 1, .rw, 0xFFFF, 0xFFFF, 0x10, 0x7D0⟩,  -- NET_PRPCFG
  ⟨0x500044, 0x4, 1, 0x4, 1, .ro, 0x0, 0x0, 0xF8, 0x0⟩,  -- NET_PRP
  ⟨0x500048, 0x4, 1, 0x4, 1, .rw, 0xC01FFFFF, 0xC01FFFFF, 0x10, 0x10000⟩,  -- NET_MDIO
  ⟨0x50004C, 0x4, 1, 0x4, 1, .rw, 0xFFFF, 0xFFFF, 0x10, 0x0⟩,  -- NET_MDIO_DATA
  ⟨0x500050, 0x4, 1, 0x4, 1, .ro, 0x0, 0x0, 0xF8, 0x0⟩,  -- NET_RCNT
  ⟨0x500080, 0x4, 1, 0x4, 1, .rw, 0xFFFF007F, 0xFFFF007F, 0x10, 0x12C0000⟩,  -- NET_PTPCFG
  ⟨0x500084, 0x4, 1, 0x4, 1, .ro, 0x0, 0x0, 0xF8, 0x0⟩,  -- NET_PTPSTATE
  ⟨0x500088, 0x4, 1, 0x4, 1, .ro, 0x0, 0x0, 0xF8, 0x0⟩,  -- NET_OFS_LO
  ⟨0x50008C, 0x4, 1, 0x4, 1, .ro, 0x0, 0x0, 0xF8, 0x0⟩,  -- NET_OFS_HI
  ⟨0x500090, 0x4, 1, 0x4, 1, .ro, 0x0, 0x0, 0xF8, 0x0⟩,  -- NET_THETA
  ⟨0x500094, 0x4, 1, 0x4, 1, .ro, 0x0, 0x0, 0xF8, 0x0⟩,  -- NET_RATE
  ⟨0x500098, 0x4, 1, 0x4, 1, .ro, 0x0, 0x0, 0xF8, 0x0⟩,  -- NET_PATHDLY
  ⟨0x5000A0, 0x4, 1, 0x4, 1, .ro, 0x0, 0x0, 0xF8, 0x0⟩,  -- NET_GM_LO
  ⟨0x5000A4, 0x4, 1, 0x4, 1, .ro, 0x0, 0x0, 0xF8, 0x0⟩,  -- NET_GM_HI
  ⟨0x500800, 0x100, 2, 0x100, 1, .rw, 0x7, 0x7, 0x10, 0x6⟩,  -- NET_CCFG
  ⟨0x500804, 0x100, 2, 0x100, 1, .rw, 0xFFFFFE1F, 0xFFFFFE1F, 0x10, 0x27942801⟩,  -- NET_CNBT
  ⟨0x500808, 0x100, 2, 0x100, 1, .rw, 0x3FFF1F, 0x3FFF1F, 0x10, 0x27AA01⟩,  -- NET_CDBT
  ⟨0x50080C, 0x100, 2, 0x100, 1, .ro, 0x0, 0x0, 0xF8, 0x0⟩  -- NET_CSTATE
]

/-- Rows of the NET registers, part 2 (R528). -/
def rowsNet1 : List RegRow := [
  ⟨0x500810, 0x100, 2, 0x100, 1, .ro, 0x0, 0x0, 0xF8, 0x0⟩,  -- NET_CCNT
  ⟨0x501000, 0x10, 64, 0x10, 1, .rw, 0xFFE0FFFF, 0xFFE0FFFF, 0x10, 0x18200000⟩,  -- NET_ACFG
  ⟨0x501004, 0x10, 64, 0x10, 1, .rw, 0xFFF0FFF, 0xFFF0FFF, 0x10, 0xFFF⟩,  -- NET_ASUB
  ⟨0x501008, 0x10, 64, 0x10, 1, .ro, 0x0, 0x0, 0xF8, 0x0⟩,  -- NET_ASTATE
  ⟨0x50100C, 0x10, 64, 0x10, 1, .ro, 0x0, 0x0, 0xF8, 0x0⟩  -- NET_ACNT
]

/-- Rows of the NET registers. -/
def rowsNet : List RegRow := rowsNet0 ++ rowsNet1

/-- Rows of the UPD registers (R553). -/
def rowsUpd : List RegRow := [
  ⟨0x600000, 0x4, 1, 0x4, 1, .ro, 0x0, 0x0, 0xF8, 0x700100⟩,  -- UPD_BLK_ID
  ⟨0x600004, 0x4, 1, 0x4, 1, .rw, 0xFF, 0xFF, 0x10, 0x3C⟩,  -- UPD_CFG
  ⟨0x600008, 0x4, 1, 0x4, 1, .wo, 0x307, 0x0, 0xF8, 0x0⟩,  -- UPD_CMD
  ⟨0x60000C, 0x4, 1, 0x4, 1, .rw, 0xFFFFFFFF, 0xFFFFFFFF, 0xF8, 0x0⟩,  -- UPD_LEN
  ⟨0x600010, 0x4, 1, 0x4, 1, .wo, 0xFFFFFFFF, 0x0, 0xF8, 0x0⟩,  -- UPD_DATA
  ⟨0x600014, 0x4, 1, 0x4, 1, .ro, 0x0, 0x0, 0xF8, 0x0⟩,  -- UPD_STATE
  ⟨0x600018, 0x4, 1, 0x4, 1, .ro, 0x0, 0x0, 0xF8, 0x0⟩,  -- UPD_NEXT
  ⟨0x60001C, 0x4, 1, 0x4, 1, .sq, 0xFF0000FF, 0x0, 0xF8, 0x0⟩,  -- UPD_STATUS
  ⟨0x600020, 0x4, 1, 0x4, 1, .ro, 0x0, 0x0, 0xF8, 0x0⟩,  -- UPD_DETAIL
  ⟨0x600040, 0x10, 4, 0x10, 1, .ro, 0x0, 0x0, 0xF8, 0x0⟩,  -- UPD_SLOT
  ⟨0x600044, 0x10, 4, 0x10, 1, .ro, 0x0, 0x0, 0xF8, 0x0⟩,  -- UPD_SVER
  ⟨0x600048, 0x10, 4, 0x10, 1, .ro, 0x0, 0x0, 0xF8, 0x0⟩,  -- UPD_SLEN
  ⟨0x600100, 0x20, 4, 0x4, 8, .ro, 0x0, 0x0, 0xF8, 0x0⟩,  -- UPD_DIG
  ⟨0x600200, 0x4, 8, 0x4, 1, .rw, 0xFFFFFFFF, 0xFFFFFFFF, 0x10, 0x0⟩,  -- UPD_KEYSTG
  ⟨0x600220, 0x4, 1, 0x4, 1, .wo, 0xFFFF, 0x0, 0x10, 0x0⟩  -- UPD_KEYCMD
]

/-- Rows of the FLT registers (R566). -/
def rowsFlt : List RegRow := [
  ⟨0x30000, 0x4, 1, 0x4, 1, .ro, 0x0, 0x0, 0xF8, 0x120100⟩,  -- FLT_BLK_ID
  ⟨0x30004, 0x4, 1, 0x4, 1, .wo, 0x7, 0x0, 0x70, 0x0⟩,  -- FLT_CTRL
  ⟨0x30008, 0x4, 1, 0x4, 1, .sq, 0xFF00003F, 0x0, 0xF8, 0x0⟩,  -- FLT_STATUS
  ⟨0x3000C, 0x4, 1, 0x4, 1, .ro, 0x0, 0x0, 0xF8, 0x0⟩,  -- FLT_STATE
  ⟨0x30010, 0x4, 1, 0x4, 1, .wo, 0xFFFF0000, 0x0, 0x38, 0x0⟩,  -- FLT_SAFE
  ⟨0x30014, 0x4, 1, 0x4, 1, .ro, 0x0, 0x0, 0xF8, 0x0⟩,  -- FLT_RESCNT
  ⟨0x30018, 0x4, 1, 0x4, 1, .ro, 0x0, 0x0, 0xF8, 0x0⟩,  -- FLT_NOTICE
  ⟨0x30020, 0x4, 4, 0x4, 1, .ro, 0x0, 0x0, 0xF8, 0x0⟩,  -- FLT_CNT
  ⟨0x30040, 0x4, 5, 0x4, 1, .ro, 0x0, 0x0, 0xF8, 0x0⟩,  -- FLT_FIRST
  ⟨0x30060, 0x4, 5, 0x4, 1, .ro, 0x0, 0x0, 0xF8, 0x0⟩,  -- FLT_GRAVE
  ⟨0x30080, 0x4, 1, 0x4, 1, .rw, 0x3F, 0x3F, 0xF8, 0x0⟩,  -- FLT_LOGSEL
  ⟨0x30084, 0x4, 1, 0x4, 1, .ro, 0x0, 0x0, 0xF8, 0x0⟩,  -- FLT_LSEQ
  ⟨0x300A0, 0x4, 5, 0x4, 1, .ro, 0x0, 0x0, 0xF8, 0x0⟩,  -- FLT_LE
  ⟨0x30200, 0x4, 76, 0x4, 1, .rw, 0xFFFFFF3B, 0xB, 0x10, 0x0⟩  -- FLT_SRC
]

/-- Rows of the TMB registers (R591). -/
def rowsTmb : List RegRow := [
  ⟨0x20000, 0x4, 1, 0x4, 1, .ro, 0x0, 0x0, 0xF8, 0x110100⟩,  -- TMB_BLK_ID
  ⟨0x20004, 0x4, 1, 0x4, 1, .ro, 0x0, 0x0, 0xF8, 0x0⟩,  -- TMB_STATE
  ⟨0x20008, 0x4, 1, 0x4, 1, .sq, 0xFF000007, 0x0, 0xF8, 0x0⟩,  -- TMB_STATUS
  ⟨0x20010, 0x4, 1, 0x4, 1, .ro, 0x0, 0x0, 0xF8, 0x0⟩,  -- TMB_TBC_LO
  ⟨0x20014, 0x4, 1, 0x4, 1, .ro, 0x0, 0x0, 0xF8, 0x0⟩,  -- TMB_TBC_HI
  ⟨0x20018, 0x4, 1, 0x4, 1, .ro, 0x0, 0x0, 0xF8, 0x0⟩,  -- TMB_START_LO
  ⟨0x2001C, 0x4, 1, 0x4, 1, .ro, 0x0, 0x0, 0xF8, 0x0⟩,  -- TMB_START_HI
  ⟨0x20020, 0x4, 1, 0x4, 1, .ro, 0x0, 0x0, 0xF8, 0x0⟩,  -- TMB_RATE
  ⟨0x20040, 0x4, 16, 0x4, 1, .ro, 0x0, 0x0, 0xF8, 0x0⟩,  -- TMB_ISL
  ⟨0x20080, 0x4, 16, 0x4, 1, .ro, 0x0, 0x0, 0xF8, 0x0⟩  -- TMB_RETRIMS
]

end Sys2Proof.Machine
end

