-- ==== Sys2Proof/Machine/FaultState.lean ====
section
/-! DEFINITION. State of the fault collector (R554 to R565). Plain data. -/

namespace Sys2Proof.Machine

/-- An error on its way to the collector (R554, R556): the index of its source, INST, ACCESS, MASTER, ADDR, the stamp
of detection, and the class in force at detection with its mask (R556, R563, R564). -/
structure ErrRec where
  src : Nat
  inst : Nat
  access : Nat
  master : Nat
  addr : Word
  stamp : Stamp
  cls : Nat
  masked : Bool
  deriving DecidableEq, Repr

/-- The fault collector: errors at its crossing, its queue of 32, the log of the newest 64 entries with their sequence
numbers (newest first), which captures are armed, the operating seconds of its RESET-class resets, the ring-115
records posted in this input interval (R556 to R562). -/
structure FltSt where
  crossing : List ErrRec
  queue : List ErrRec
  log : List (Nat × ErrRec)
  nextSeq : Nat
  firstArmed : Bool
  graveArmed : Bool
  resets : List Nat
  notices : Nat
  deriving DecidableEq, Repr

/-- The collector at its first start: nothing recorded, both captures armed. -/
def FltSt.reset : FltSt := ⟨[], [], [], 1, true, true, [], 0⟩

end Sys2Proof.Machine
end

