-- ==== Sys2Proof/Machine/FieldState.lean ====
section
/-! DEFINITION. State of the field side outside its registers: terminal cells, permit queue, stages and converters,
points, excitation calibration, loops, modems and the sequencer's copies (chapters 03 to 07 and 13). Plain data. -/

namespace Sys2Proof.Machine

/-- An open debounce episode (R87): its stamp and the DEB it runs under (R113). -/
structure Episode where
  stamp : Stamp
  deb : Nat
  deriving DecidableEq, Repr

/-- What a terminal cell holds outside its registers: the raw comparator level and the stamps of its last rising and
falling crossing (R88), the debounce episode, whether the confirmed level has still to be taken (R89), the SAFE value captured at the
SAFE reaction (R374), the ring-106 changes of this input interval with the last one not yet sent (R377), and whether
its first loop closing has entered the stagger (R381) and its loop switch awaits a retry (R106). -/
structure Cell where
  raw : Bool
  rise : Stamp
  fall : Stamp
  episode : Option Episode
  initial : Bool
  safeVal : Bool
  changes : Nat
  lastChange : Option (Stamp × Word)
  staggered : Bool
  retrying : Bool
  deriving DecidableEq, Repr

/-- A cell after node reset. -/
def Cell.reset : Cell := ⟨false, 0, 0, none, false, false, 0, none, false, false⟩

/-- A start permit request (R378): its terminal, whether for the loop switch, its tick, the tick since which it is
deferred and whether DEFER_LONG was set for it (R380). -/
structure PermitReq where
  term : Nat
  loop : Bool
  tick : Stamp
  deferred : Option Stamp
  long : Bool
  deriving DecidableEq, Repr

/-- What a stage does (R120, R127, R139, R152). -/
inductive StagePhase where
  | idle | discharge | openTest | steep | ready | window | selfTest
  deriving DecidableEq, Repr

/-- A window-bound sample of a supervision converter (R143, R192): the voltages in mV of the terminals on P and N, the
voltage of the supply terminal in mV and the readback current in µA. -/
structure WinSample where
  p : Int
  n : Int
  vts : Int
  ir : Nat
  deriving DecidableEq, Repr

/-- The first window of a swap or reversal pair (R135): its status, code and range. -/
structure FirstHalf where
  status : Nat
  code : Int
  range : Nat
  deriving DecidableEq, Repr

/-- A point descriptor (R210, *Table: Point descriptor*). -/
structure Desc where
  en : Bool
  kind : Nat
  form : Nat
  rev : Bool
  tc : Nat
  win : Nat
  auto : Bool
  rwide : Nat
  rnarrow : Nat
  elem : Nat
  unit : Bool
  psel : Nat
  nsel : Nat
  rsel : Nat
  fsel : Nat
  lo : Int
  hi : Int
  vhi : Int
  vlo : Int
  srca : Nat
  srcb : Nat
  code : Nat
  steep : Nat
  disch : Nat
  deriving DecidableEq, Repr

/-- A window's raw result and what fixes its status (R143, R168): home number and descriptor, stage, whether it is the second of a
pair, range, code, overload, RANGING, whether a wider range was allowed, compliance loss, failed open test, close
stamp, the first window of its pair and the samples. -/
structure RawResult where
  slot : Nat
  desc : Desc
  stage : Nat
  second : Bool
  range : Nat
  code : Int
  ovl : Bool
  ranging : Bool
  wider : Bool
  compl : Bool
  otFail : Bool
  stamp : Stamp
  first : Option FirstHalf
  samples : List WinSample
  deriving DecidableEq, Repr

/-- A converter stage: phase, the point it serves or last served, whether its second window of a pair is due, the range,
the window's opening tick and blanked ticks, its flags, the first window of a pair, the samples, the tick it was last
freed, and the terminal whose mode change released it (R108). -/
structure StageSt where
  phase : StagePhase
  slot : Option Nat
  second : Bool
  range : Nat
  opened : Stamp
  blanked : Nat
  ovl : Bool
  ranging : Bool
  compl : Bool
  otFail : Bool
  first : Option FirstHalf
  samples : List WinSample
  freed : Stamp
  leaving : Option Nat
  deriving DecidableEq, Repr

/-- A stage after node reset. -/
def StageSt.reset : StageSt := ⟨.idle, none, false, 0, 0, 0, false, false, false, false, none, [], 0, none⟩

/-- A converter's run: its stages, the points of the cycle in progress not yet given a stage, whether a cycle runs, is
late, the tick it began and that of its last window's close, raw results that await their check, the last sample with
its tick, the tick a blank began, the points given a stage in the cycle or, in dedicated mode, the windows opened since
the schedule's entry, whether the dedicated point is refused, a self-test in progress, whether EN was written 1, and
whether LEAD or DIVLOG changed in dedicated mode (R156, R175, R177, R215 to R219, R609). -/
structure ConvSt where
  stages : List StageSt
  todo : List Nat
  running : Bool
  late : Bool
  cycleStart : Stamp
  lastClose : Stamp
  checks : List RawResult
  lastSample : Option (Stamp × WinSample)
  blankFrom : Option Stamp
  opened : Nat
  refused : Bool
  selfTesting : Bool
  enabling : Bool
  rescheduled : Bool
  deriving DecidableEq, Repr

/-- A converter after node reset. -/
def ConvSt.reset : ConvSt :=
  ⟨[StageSt.reset, StageSt.reset], [], false, false, 0, 0, [], none, none, 0, false, false, false, false⟩

/-- What the sequencer keeps of a point by its home number: the last value posted OK, the range in force, the
consecutive windows toward DWELL, its last two results with their stamps, and the status of the last (R141, R161, R170,
R438). -/
structure PointSt where
  ok : Option Word
  range : Nat
  dwell : Nat
  last : Option (TWord × Stamp)
  prev : Option (TWord × Stamp)
  status : Nat
  deriving DecidableEq, Repr

/-- A point that has posted nothing. -/
def PointSt.reset : PointSt := ⟨none, 0, 0, none, none, 0⟩

/-- A loop's counts toward XMIS_NOW (R193) and whether its first window after warm-up is due (R196), and the current in µA
of its last OK result (R204). -/
structure LoopSt where
  mismatches : Nat
  agreements : Nat
  afterWarm : Bool
  okIa : Option Nat
  deriving DecidableEq, Repr

/-- A loop that has posted nothing. -/
def LoopSt.reset : LoopSt := ⟨0, 0, false, none⟩

/-- A commit's copy of the staging set (R212, R213): the staged words that differ from their reset values, by
address. -/
abbrev SeqCopy := List (Nat × Word)

/-- How a converter is carried (R221, R222): by a stand-in for its dedicated point, or by recipients, each home number
with its recipient. -/
inductive Plan where
  | standIn (d : Nat) (moves : List (Nat × Nat))
  | moved (moves : List (Nat × Nat))
  | none
  deriving DecidableEq, Repr

/-- The field side. `cells` are the terminals (R74 to R111); `lost` marks the groups whose supply went after having been
present (R107); `permits` is the permit queue, the stagger's two fields its beginning and end (R378 to R381); `lostMark` is
owed to the next edge of the TSU FIFO (R92). `convs`, `points` and `loops` are the converters, the points and the current
loops (R147 to R225); `calLeft`, `calNext`, `calBusy` and `calPending` the calibration of the sources (R125); `cjsTags` and
`cjsRead` the cold-junction sensors (R142). `checking` and `waiting` are the copy a commit checks and the one that waits for
its seam, `plans` and `carried` the fallback plans and the converters carried by them (R212 to R222); `owner` is the owner of
the modems in force (R202). The last six serve the restored outputs and the output-state record (R376). -/
structure FieldSt where
  cells : List Cell
  lost : List Bool
  permits : List PermitReq
  staggerBegan : Bool
  staggerDone : Bool
  lostMark : Bool
  convs : List ConvSt
  points : List (Nat × PointSt)
  loops : List (Nat × LoopSt)
  calLeft : List Nat
  calNext : Nat
  calBusy : Option Nat
  calPending : Bool
  cjsTags : List Tag
  cjsRead : Option Stamp
  checking : Option SeqCopy
  waiting : Option SeqCopy
  plans : List Plan
  carried : List Nat
  owner : Bool
  leadersDone : Bool
  loading : Bool
  outDirty : Bool
  keptValid : BitVec 48
  keptOn : BitVec 48
  deriving DecidableEq, Repr

/-- The field side after node reset: all sources are to be calibrated before the first scan (R125). -/
def FieldSt.reset : FieldSt where
  cells := List.replicate 48 Cell.reset
  lost := List.replicate 6 false
  permits := []
  staggerBegan := false
  staggerDone := false
  lostMark := false
  convs := List.replicate 8 ConvSt.reset
  points := []
  loops := []
  calLeft := List.range 16
  calNext := 0
  calBusy := none
  calPending := true
  cjsTags := List.replicate 6 .good
  cjsRead := none
  checking := none
  waiting := none
  plans := List.replicate 8 .none
  carried := []
  owner := false
  leadersDone := false
  loading := true
  outDirty := false
  keptValid := 0
  keptOn := 0

end Sys2Proof.Machine
end

