-- ==== Sys2Proof/Machine/NetState.lean ====
section
/-! DEFINITION. State of the network links outside their registers (chapter 19). Plain data. -/

namespace Sys2Proof.Machine

/-- A received element (R510, R524): its association, the arrival stamp of its frame, LOCAL, the sender's MAC address,
TYPE, SUBJ and body. -/
structure RxElem where
  assoc : Nat
  stamp : Stamp
  isLocal : Bool
  mac : Nat
  typ : Nat
  subj : Nat
  body : List Byte
  deriving DecidableEq, Repr

/-- An element waiting to be sent (R520 to R523): the associations it is for, none for the group of HELLO elements or
for every CAN node, the version of its form, LOCAL, TYPE, its bytes, head included, and the frame whose transactions were
voted last when it was formed. -/
structure TxElem where
  assocs : List Nat
  ver : Nat
  isLocal : Bool
  typ : Nat
  bytes : List Byte
  frame : Nat
  deriving DecidableEq, Repr

/-- A frame of a C port's queue (R511): its identifier and data, and its association. -/
structure CanFrame where
  id : Nat
  data : List Byte
  assoc : Option Nat
  typ : Nat
  deriving DecidableEq, Repr

/-- An element being reassembled (R512): port, sender, TYPE, its bytes so far and the last TOGGLE. -/
structure Partial where
  port : Nat
  src : Nat
  typ : Nat
  bytes : List Byte
  toggle : Nat
  deriving DecidableEq, Repr

/-- The response to a remote access (R525): STATUS, ADDR and DATA. -/
structure RegResp where
  req : Nat
  status : Nat
  addr : Word
  data : Word
  deriving DecidableEq, Repr

/-- An association outside its registers (R513 to R515, R526): the partner's MAC address, CAPS and last AGREED, the
AGREED last sent, when its last HELLO was sent, whether one is owed, the partner's ranges and flags, the next FSEQ, and
the kept responses, newest first. -/
structure AssocSt where
  mac : Nat
  pcaps : Nat
  pagreed : Nat
  sentAt : Option Stamp
  owed : Bool
  ranges : List (Nat × Nat)
  alarms : Bool
  hart : Bool
  fseq : Nat
  kept : List RegResp
  deriving DecidableEq, Repr

/-- An association that is DOWN. -/
def AssocSt.reset : AssocSt := ⟨0, 0, 0, none, false, [], false, false, 0, []⟩

/-- A remote access waiting (R525). -/
structure Remote where
  assoc : Nat
  req : Nat
  write : Bool
  addr : Word
  data : Word
  deriving DecidableEq, Repr

/-- The network links: associations, received elements not yet taken, transmit queues of the Ethernet pair and the C
ports, the last frame sent on each, partial elements, remote accesses waiting, the frames tracked for duplicate discard by
source MAC, sequence number and arrival, the nodes table, the sequence numbers of PRP and of group frames, the chosen
master's data set and whether its first Sync is still to come, and the Syncs counted toward LOCKED and toward a step (R498
to R529). -/
structure NetSt where
  assocs : List AssocSt
  rx : List RxElem
  eth : List TxElem
  can : List (List CanFrame)
  sentEth : List Byte
  sentCan : List (Option CanFrame)
  pieces : List Partial
  remote : List Remote
  seen : List (Nat × Nat × Stamp)
  nodes : List (Nat × Stamp)
  prpSeq : Nat
  groupSeq : Nat
  master : Option PtpData
  fresh : Bool
  good : Nat
  far : Nat
  deriving DecidableEq, Repr

/-- The network links after node reset. -/
def NetSt.reset : NetSt where
  assocs := List.replicate 64 AssocSt.reset
  rx := []
  eth := []
  can := [[], []]
  sentEth := []
  sentCan := [none, none]
  pieces := []
  remote := []
  seen := []
  nodes := []
  prpSeq := 0
  groupSeq := 0
  master := none
  fresh := false
  good := 0
  far := 0

end Sys2Proof.Machine
end

