-- ==== Sys2Proof/Machine/PanelState.lean ====
section
/-! DEFINITION. State of the status panel driver outside its registers (R468 to R493). Plain data. -/

namespace Sys2Proof.Machine

/-- Why a segment that runs a waveform holds at a pair boundary: it drives on, awaits an intent record, or is held
cold. -/
inductive PanelHold where
  | none | intent | cold
  deriving DecidableEq, Repr

/-- A waveform a segment runs (R472, R477, R482): the level it started from, the level it leads to, its index, the step in
progress with its pairs left, the pairs done, whether the + tick of the pair is over, whether it balances, whether it is
the balancing of a recovery, and why it holds. -/
structure PanelRun where
  start : Option Nat
  goal : Nat
  wave : Nat
  step : Nat
  left : Nat
  done : Nat
  half : Bool
  balancing : Bool
  recovering : Bool
  hold : PanelHold
  deriving DecidableEq, Repr

/-- A segment (R476, R478, R479, R484): target with its tag, whether a target was handed on since the node reset, the
believed level, its waveform, ledger in mV × 10 µs, the fraction of its stress counter in the same unit, its fault mark
and whether a re-assertion pass still has to drive it. -/
structure PanelSeg where
  level : Nat
  tag : Nat
  told : Bool
  believed : Option Nat
  run : Option PanelRun
  ledger : Int
  frac : Nat
  fault : Bool
  assertDue : Bool
  deriving DecidableEq, Repr

/-- A segment of which nothing is known. -/
def PanelSeg.reset : PanelSeg := ⟨0, 0, false, none, none, 0, 0, false, false⟩

/-- A committed waveform table not yet in force (R475): its words and its version. -/
structure PanelTable where
  words : List Word
  wver : Nat
  deriving DecidableEq, Repr

/-- The panel driver: its segments, the targets handed on since the last tick, the number of the next tick, the tick's
moment, the rail voltages last measured in mV, the HOLD readings at the last two ticks in 10 mV, the first driven tick of
the update, the targets of the last committed intent record and those of the records handed on, whether the journal
refused one, a table waiting, a re-assertion pass that is due, whether the clock was cold and the sensor faulty, whether a
rail is out, whether the PANEL-island RAM is valid, whether stress counters were restored, and the course of a power
failure: balancing, or stopping (R470 to R492). -/
structure PanelSt where
  segs : List PanelSeg
  news : List (Nat × Nat × Nat)
  tick : Nat
  tickAt : Stamp
  vp : Nat
  vn : Nat
  hold1 : Nat
  hold0 : Nat
  firstDriven : Option Nat
  covered : List (Option Nat)
  posted : List (List Nat)
  refused : Bool
  table : Option PanelTable
  passDue : Bool
  cold : Bool
  tsFault : Bool
  railOut : Bool
  ramValid : Bool
  restored : Bool
  stopping : Bool
  deriving DecidableEq, Repr

/-- The panel driver after a loss of the logic supply. -/
def PanelSt.reset : PanelSt where
  segs := List.replicate 56 PanelSeg.reset
  news := []
  tick := 0
  tickAt := 0
  vp := 15000
  vn := 15000
  hold1 := 0
  hold0 := 0
  firstDriven := none
  covered := List.replicate 56 none
  posted := []
  refused := false
  table := none
  passDue := false
  cold := false
  tsFault := false
  railOut := false
  ramValid := false
  restored := false
  stopping := false

end Sys2Proof.Machine
end

