-- ==== Sys2Proof/Machine/RecordState.lean ====
section
/-! DEFINITION. State of the flash's users outside their registers: the journal controller, the event recorder and the
real-time clock (chapters 15 to 17). Plain data. -/

namespace Sys2Proof.Machine

/-! ## Journal -/

/-- Whom the journal tells that a group has committed or been refused (R411): a lane thread that closed it, the write
registers of a master, the SAVE command (R537), the output manager, the panel driver's intent, ledger and stress
records, the node record, an activation record with its SUBJ and SUBT, and compaction's begin and end records. -/
inductive JOrigin where
  | lane (thread : Nat) (told : Bool)
  | master (m : Nat)
  | save
  | out
  | intent
  | ledger
  | stress
  | node
  | activation (subj phase : Nat)
  | compBegin
  | compEnd
  deriving DecidableEq, Repr

/-- A commit group (R412): its WRITER, whom to tell, and its records. -/
structure JGroup where
  writer : Nat
  origin : JOrigin
  recs : List JRec
  deriving DecidableEq, Repr

/-- A live record in the index (R419, R420): its kind, subject, subtype and EXT, its SEQ, where it lies in the flash, its
LEN, and LEADERS of an output-state record. -/
structure IndexEntry where
  kind : Nat
  subj : Nat
  subt : Nat
  ext : Nat
  seq : Nat
  at_ : Nat
  len : Nat
  leaders : BitVec 64
  deriving DecidableEq, Repr

/-- A journal segment in use: its OPEN_SEQ, OPSECS at opening, COMP of a copy segment, and the offset of its first byte
not yet programmed (R403, R404). -/
structure JSeg where
  openSeq : Nat
  opsecs : Nat
  comp : Nat
  used : Nat
  deriving DecidableEq, Repr

/-- Steps of a compaction (R425). -/
inductive CompStep where
  | idle | begun | copying | ended | erasing
  deriving DecidableEq, Repr

/-- A compaction: its step, the last COMP given, victims not yet erased, the tick it began, the copies made by SEQ with
their places, and whether the end of its erasures ends a compaction (R423, R425). -/
structure Compaction where
  step : CompStep
  num : Nat
  victims : List Nat
  began : Stamp
  copies : List (Nat × Nat)
  counts : Bool
  deriving DecidableEq, Repr

/-- The open group of a master's write registers (R435). -/
structure WriterSt where
  groupOpen : Bool
  recs : List JRec
  deriving DecidableEq, Repr

/-- A raw flash operation in progress (R432): its command, word, data to program, and whether its erasure is a retry
(R434). -/
structure RawOp where
  cmd : Nat
  word : Nat
  data : BitVec 128
  retried : Bool
  deriving DecidableEq, Repr

/-- The journal controller (R400 to R435): groups at its crossing, the caddy's groups with the SEQ of their first record,
the index, the segments in use, the head, compaction, a compaction asked for, the write registers' groups of masters 4
and 7, the raw operation, whether the next erasure is a retry, and what a recovery in progress has found: the next SEQ
and MAXSTAMP (R422). -/
structure JnlSt where
  offered : List JGroup
  caddy : List (Nat × JGroup)
  index : List IndexEntry
  segs : List (Nat × JSeg)
  head : Option Nat
  comp : Compaction
  compAsked : Bool
  writer4 : WriterSt
  writer7 : WriterSt
  raw : Option RawOp
  retry : Bool
  found : Option (Nat × Nat)
  deriving DecidableEq, Repr

/-- The journal controller after node reset, before recovery. -/
def JnlSt.reset : JnlSt where
  offered := []
  caddy := []
  index := []
  segs := []
  head := none
  comp := ⟨.idle, 0, [], 0, [], false⟩
  compAsked := false
  writer4 := ⟨false, []⟩
  writer7 := ⟨false, []⟩
  raw := none
  retry := false
  found := none

/-! ## Event recorder -/

/-- A matched event with its snapshot (R437 to R440): stamp, trigger, list, KIND, DETAIL, the captured words, CAPERR,
and words 0, 3 to 5 of its record with SUBSEC and the RTC bits. -/
structure EvrEntry where
  stamp : Stamp
  trig : Nat
  list : Nat
  kind : Nat
  detail : Nat
  caps : List Word
  caperr : Nat
  rtcsec : Nat
  subsec : Nat
  rtcValid : Bool
  lbv : Bool
  osf : Bool
  opsecs : Nat
  cycles : Word
  deriving DecidableEq, Repr

/-- The newest record in LAST (R442, R443): its SEQ, trigger, KIND and DETAIL, stamp, REPEAT and last-repeat stamp. -/
structure EvrNewest where
  seq : Nat
  trig : Nat
  kind : Nat
  detail : Nat
  stamp : Stamp
  repeats : Nat
  lastRepeat : Stamp
  deriving DecidableEq, Repr

/-- The event recorder (R436 to R447): its queue, whether events were dropped since the last record, the newest record
while its REPEAT is in RAM, the records of LAST by SEQ with their ring positions, newest first, the ring position of the
next record, the positions of FIRST that hold a record, the armed clear with its tick, the clear in progress with its
tick, and the last time read from the RTC with the tick of that read. -/
structure EvrSt where
  queue : List EvrEntry
  lost : Bool
  newest : Option EvrNewest
  last : List (Nat × Nat)
  nextPos : Nat
  first : List (Nat × Nat)
  armed : Option (Nat × Stamp)
  clearing : Option (Nat × Stamp)
  scanned : Bool
  lastRead : Option (Nat × Stamp)
  deriving DecidableEq, Repr

/-- The event recorder after node reset, before its scan. -/
def EvrSt.reset : EvrSt := ⟨[], false, none, [], 0, [], none, none, false, none⟩

/-! ## Real-time clock -/

/-- A time of the domain: SUBSEC, SEC, MIN, HOUR, DATE, MONTH, YEAR (R459). -/
structure RtcTime where
  subsec : Nat
  sec : Nat
  min : Nat
  hour : Nat
  date : Nat
  month : Nat
  year : Nat
  deriving DecidableEq, Repr

/-- A commit on its way to the load edge (R462): the staged fields and the year. -/
structure RtcLoadReq where
  fields : List (Nat × Nat)
  year : Nat
  deriving DecidableEq, Repr

/-- The real-time clock (R450 to R466): frozen shadows and staged fields by master, commits not yet loaded, the tick of
the last second's start, CAL in force, whether the oscillator runs, whether the domain runs on VBAT, and a SUBSEC that
stands while the oscillator is stopped. Fields are numbered 0 SEC to 4 MONTH. -/
structure RtcSt where
  shadows : List (Nat × RtcTime × Stamp)
  staged : List (Nat × List (Nat × Nat))
  loads : List RtcLoadReq
  secondAt : Stamp
  calInForce : Nat
  onVbat : Bool
  deriving DecidableEq, Repr

/-- The interface after node reset. -/
def RtcSt.reset : RtcSt := ⟨[], [], [], 0, 0, false⟩

end Sys2Proof.Machine
end

