-- ==== Sys2Proof/Machine/SystemState.lean ====
section
/-! DEFINITION. State of the lamp room, the update engine, the supply manager and the host SPI outside their registers
(chapters 2, 20 and 22). Plain data. -/

namespace Sys2Proof.Machine

/-! ## Update engine -/

/-- A transfer in progress (R527, R543): the kind and slot, the owning master, the association and transfer number of an
SNX transfer, the image length, the next offset, the elements written, and its phase: 1 erasing, 2 open, 3 verifying. -/
structure Transfer where
  kind : Nat
  slot : Nat
  master : Nat
  assoc : Option Nat
  number : Nat
  length : Nat
  next : Nat
  written : Nat
  phase : Nat
  deriving DecidableEq, Repr

/-- An activation in progress (R548, R549): the kind and slot, whether its closing record is a rollback record, the step
of *Table: Lane activation steps* or 7 for a trial, whether its closing record has been handed on and has committed, and
whether it already runs for the other slot after a failed step. -/
structure Activation where
  kind : Nat
  slot : Nat
  rollback : Bool
  step : Nat
  posted : Bool
  committed : Bool
  fell : Bool
  deriving DecidableEq, Repr

/-- The update engine: the active slots, the slot of a start-up load in progress, the transfer, the activation, the key
hash programmed and not yet in effect, and whether it is being programmed (R542 to R550). -/
structure UpdSt where
  lane : Option Nat
  mgmt : Option Nat
  load : Option Nat
  xfer : Option Transfer
  act : Option Activation
  key : Option (List Word)
  keyBusy : Bool
  deriving DecidableEq, Repr

/-- The update engine after node reset. -/
def UpdSt.reset : UpdSt := ⟨none, none, none, none, none, none, false⟩

/-! ## Lamp room -/

/-- The lamp room: the watch queue, whether releases are held for READY, whether the boot ROM has jumped to the firmware,
whether the operating seconds have been loaded, their value at the last node record, the tick at which the last second
was counted, the tick at which the watchdog last began, and the sensors now beyond WARN, beyond ALARM, and the rails now
outside ±5 % (R531 to R540). -/
structure MgsSt where
  watch : List Nat
  holding : Bool
  running : Bool
  nodeLoaded : Bool
  nodeAt : Nat
  secondAt : Stamp
  wdogAt : Stamp
  warm : List Nat
  hot : List Nat
  railOut : List Nat
  deriving DecidableEq, Repr

/-- The lamp room after node reset. -/
def MgsSt.reset : MgsSt := ⟨[], true, false, false, 0, 0, 0, [], [], []⟩

/-! ## Supply -/

/-- The supply manager: the cause of a reset in which the node is held, if it is, whether RSTN is low, whether each input
has been present since the reset, the tick of an input-loss declaration, whether an input became present after it,
whether the rails stayed within ±5 % since the logic supply was declared failing, whether the fuses have been sensed, and
the milliseconds from power good to the start of TBC (R567 to R589). -/
structure SupSt where
  held : Option Nat
  pinLow : Bool
  seen : List Nat
  declared : Option Stamp
  returned : Bool
  railsStayed : Bool
  sensed : Bool
  bootMs : Nat
  deriving DecidableEq, Repr

/-- The supply manager after a loss of the logic supply. -/
def SupSt.reset : SupSt := ⟨none, false, [], none, false, false, false, 0⟩

/-! ## Host SPI -/

/-- A response of the host SPI (R67, R68, *Table: Host SPI frame*). -/
structure HspResp where
  status : Nat
  addr : Word
  data : Word
  deriving DecidableEq, Repr

/-- A host access in progress on the management bus (R67). -/
structure HspAccess where
  write : Bool
  addr : Word
  data : Word
  deriving DecidableEq, Repr

/-- The host SPI: whether no frame has come since the reset, the response to the last request, the access in progress,
and the response last sent (R67 to R70). -/
structure HspSt where
  first : Bool
  next : HspResp
  access : Option HspAccess
  miso : HspResp
  deriving DecidableEq, Repr

/-- The host SPI after node reset. -/
def HspSt.reset : HspSt := ⟨true, ⟨0x80, 0, 0⟩, none, ⟨0, 0, 0⟩⟩

end Sys2Proof.Machine
end

