-- ==== Sys2Proof/Machine/State.lean ====
section
/-! DEFINITION. The state of the node: the register file, the state the spec gives the blocks outside their registers,
and the queue of waiting commands. Plain data. -/

namespace Sys2Proof.Machine

/-- The ways the model stops with a fault: none, since every error of the node is an effect on its state. -/
inductive Fault where
  deriving DecidableEq, Repr

/-- The refusals. -/
inductive Refusal where
  /-- A command whose meaning has not been written; raised by an arm of `exec` only. Safe. -/
  | notModelled (mnemonic : String)
  deriving DecidableEq, Repr

/-- The node.

`regs` lists the words of the management registers that differ from their reset values, by address (R38, R48).
`staged` lists staged low words and `locked` the locked LK registers (R49, R55).
`flash` lists the flash words that differ from the factory's, by word number (R400, R402).
`image` is the active program image and `nextImage` that of an activation in progress (R336).
`pending` is the queue of waiting commands. -/
structure State where
  regs : List (Nat × Word)
  tbc : Stamp
  staged : List (Nat × Word)
  locked : List Nat
  lanes : List LaneSt
  tcmds : List ThreadCmd
  image : Option Image
  nextImage : Option Image
  frame : FrameSt
  tly : Tally
  core : Core
  flt : FltSt
  field : FieldSt
  flash : List (Nat × BitVec 128)
  jnl : JnlSt
  evr : EvrSt
  rtc : RtcSt
  pnl : PanelSt
  upd : UpdSt
  mgs : MgsSt
  sup : SupSt
  hsp : HspSt
  net : NetSt
  free : Nat
  pending : List Instr
  deriving DecidableEq, Repr

/-- The node right after a node reset with cause POWER_ON, its rails not yet up (R48, R585, R586): every register at its
reset value, SUP_RESET.CAUSE 0x01, TBC 0 and not counting, the flash as the factory leaves it and nothing waiting. -/
def State.reset : State where
  regs := []
  tbc := 0
  staged := []
  locked := []
  lanes := List.replicate 3 LaneSt.reset
  tcmds := []
  image := none
  nextImage := none
  frame := FrameSt.reset
  tly := Tally.reset
  core := Core.reset
  flt := FltSt.reset
  field := FieldSt.reset
  flash := []
  jnl := JnlSt.reset
  evr := EvrSt.reset
  rtc := RtcSt.reset
  pnl := PanelSt.reset
  upd := UpdSt.reset
  mgs := MgsSt.reset
  sup := SupSt.reset
  hsp := HspSt.reset
  net := NetSt.reset
  free := 0
  pending := []

end Sys2Proof.Machine
end

