-- ==== Sys2Proof/Machine/Store.lean ====
section
/-! DEFINITION. A sparse store: a list of numbered entries in one canonical form, numbers strictly rising and no entry
equal to what an unlisted number reads as. Registers, keep memory, code memory, SRAM and flash are held so. -/

namespace Sys2Proof.Machine

/-- What number `k` reads as, `d` where it is not listed. -/
def sget {α : Type} (d : α) : List (Nat × α) → Nat → α
  | [], _ => d
  | (k', v) :: t, k => if k' = k then v else sget d t k

/-- Writes `v` at number `k`; writing `d`, what an unlisted number reads as, removes the entry. -/
def sput {α : Type} [DecidableEq α] (d : α) : List (Nat × α) → Nat → α → List (Nat × α)
  | [], k, v => if v = d then [] else [(k, v)]
  | (k', v') :: t, k, v =>
    if k' < k then (k', v') :: sput d t k v
    else if k' = k then (if v = d then t else (k, v) :: t)
    else if v = d then (k', v') :: t
    else (k, v) :: (k', v') :: t

/-- Every number of the list lies above `lo`, the numbers rise strictly, and no entry equals its default `d`. -/
def swfFrom {α : Type} [DecidableEq α] (d : Nat → α) : Option Nat → List (Nat × α) → Bool
  | _, [] => true
  | lo, (k, v) :: t =>
    (match lo with | none => true | some b => decide (b < k)) && decide (v ≠ d k) && swfFrom d (some k) t

/-- The canonical form of a store whose unlisted number k reads as `d k`. -/
def swf {α : Type} [DecidableEq α] (d : Nat → α) (m : List (Nat × α)) : Bool := swfFrom d none m

/-- The store whose numbers from `k` on hold the values of the list, all others what they read as. -/
def sfrom {α : Type} [DecidableEq α] (d : α) (k : Nat) : List α → List (Nat × α)
  | [] => []
  | v :: vs => if v = d then sfrom d (k + 1) vs else (k, v) :: sfrom d (k + 1) vs

/-- Writes each value of the list at successive numbers from `k`. -/
def sputs {α : Type} [DecidableEq α] (d : α) (m : List (Nat × α)) (k : Nat) : List α → List (Nat × α)
  | [] => m
  | v :: vs => sputs d (sput d m k v) (k + 1) vs

end Sys2Proof.Machine
end

