-- ==== Sys2Proof/Machine/Ops.lean ====
section
/-! DEFINITION. The named operations over registers: the register file and its reset values, fields, event flags with
their sequence number, errors sent to the fault collector and records sent to the tally. -/

namespace Sys2Proof.Machine

/-- The outcome of a command. -/
abbrev Out := Host.Outcome State Fault Refusal

/-! ## Fields -/

/-- The value of the field in the word. -/
def Fld.get (f : Fld) (w : Word) : Nat := w.toNat / 2 ^ f.lo % 2 ^ (f.hi + 1 - f.lo)

/-- The word with the field set to `n`, of which the bits that fit count. -/
def Fld.set (f : Fld) (w : Word) (n : Nat) : Word :=
  BitVec.ofNat 32 (w.toNat - f.get w * 2 ^ f.lo + n % 2 ^ (f.hi + 1 - f.lo) * 2 ^ f.lo)

/-- The largest value the field holds. -/
def Fld.max (f : Fld) : Nat := 2 ^ (f.hi + 1 - f.lo) - 1

/-! ## The register file -/

/-- Whether the row's registers lie at address `a`. -/
def RegRow.holds (r : RegRow) (a : Nat) : Bool :=
  decide (r.base ≤ a) &&
    (let d := a - r.base
     let q := d % r.stride1
     decide (d / r.stride1 < r.count1) && decide (q % r.stride2 = 0) && decide (q / r.stride2 < r.count2))

/-- The rows of the block whose span holds address `a` (*Table: Management address map*, R38). -/
def rowsAt (a : Nat) : List RegRow :=
  if a < 0x00010000 then rowsId
  else if a < 0x00020000 then rowsSup
  else if a < 0x00030000 then rowsTmb
  else if a < 0x00040000 then rowsFlt
  else if a < 0x00050000 then rowsRtc
  else if a < 0x00060000 then rowsEvr
  else if a < 0x00070000 then rowsJnl
  else if a < 0x00080000 then rowsMgs
  else if a < 0x00110000 then rowsTrm
  else if a < 0x00120000 then rowsMux
  else if a < 0x00130000 then rowsExc
  else if a < 0x00140000 then rowsAsy
  else if a < 0x00150000 then rowsSvc
  else if a < 0x00160000 then rowsHrt
  else if a < 0x00170000 then rowsSeq
  else if a < 0x00180000 then rowsTsu
  else if a < 0x002C0000 then rowsLn
  else if a < 0x00300000 then rowsTly
  else if a < 0x00310000 then rowsTrp
  else if a < 0x00400000 then rowsOut
  else if a < 0x00500000 then rowsPnl
  else if a < 0x00600000 then rowsNet
  else if a < 0x00700000 then rowsUpd
  else rowsHsp

/-- The row of the register at address `a`, if the tables define one there. -/
def rowOf (a : Nat) : Option RegRow := (rowsAt a).find? (·.holds a)

/-- Code and default class of the error sources 0 to 37 (*Table: Fault sources*, R554, R555). -/
def sourcesLo : List (Nat × Nat) := [
  (0x0001, 0), (0x1001, 1), (0x1002, 1), (0x1003, 1), (0x1004, 0), (0x1005, 3), (0x1006, 0), (0x1101, 0),
  (0x1102, 3), (0x1201, 3), (0x1501, 1), (0x1502, 1), (0x1503, 1), (0x1504, 0), (0x1601, 1), (0x1602, 1),
  (0x1603, 0), (0x1604, 1), (0x1605, 1), (0x1606, 0), (0x2001, 1), (0x2002, 1), (0x2003, 0), (0x2004, 0),
  (0x2005, 0), (0x2006, 0), (0x2007, 1), (0x2008, 0), (0x2009, 0), (0x2101, 0), (0x2102, 1), (0x2201, 0),
  (0x2202, 1), (0x2301, 1), (0x2302, 1), (0x2401, 0), (0x2402, 1), (0x2403, 1)]

/-- Code and default class of the error sources 38 to 75 (*Table: Fault sources*, *Table: Thread faults*). -/
def sourcesHi : List (Nat × Nat) := [
  (0x2501, 0), (0x2502, 0), (0x2601, 0), (0x2602, 0), (0x3001, 1), (0x3002, 1), (0x3003, 1), (0x3004, 1),
  (0x3005, 1), (0x3006, 0), (0x3007, 1), (0x3010, 0), (0x3011, 0), (0x3301, 0), (0x3302, 0), (0x3303, 0),
  (0x3304, 0), (0x3305, 0), (0x3306, 0), (0x3307, 1), (0x3308, 1), (0x3309, 2), (0x330A, 2), (0x4001, 1),
  (0x4002, 0), (0x4003, 0), (0x4101, 0), (0x5001, 1), (0x5002, 0), (0x5003, 0), (0x5004, 0), (0x5005, 1),
  (0x6001, 1), (0x6002, 0), (0x6003, 1), (0x7001, 1), (0x7002, 1), (0x7003, 1)]

/-- Code and default class of source k. -/
def faultSource (k : Nat) : Nat × Nat := (sourcesLo ++ sourcesHi).getD k (0, 0)

/-- The lowest class source k may be given: SAFE where its default is SAFE or RESET, else NOTE (R555). -/
def faultFloor (k : Nat) : Nat := if 2 ≤ (faultSource k).2 then 2 else 0

/-- The address under which a register stands in the register file: the group registers of a terminal window are one
register for the group (R112), and LN_TCMD and LN_TCMDQ are one register for the three lanes (R261). -/
def canon (a : Nat) : Nat :=
  if 0x00100000 ≤ a ∧ a < 0x00103000 ∧ 0x28 ≤ a % 0x100 ∧ a % 0x100 ≤ 0x34 then
    0x00100000 + (a - 0x00100000) / 0x800 * 0x800 + a % 0x100
  else if 0x00200000 ≤ a ∧ a < 0x002C0000 ∧ (a % 0x40000 = 0x40 ∨ a % 0x40000 = 0x44) then
    0x00200000 + a % 0x40000
  else a

/-- The reset value of the register at address `a`, where its table gives one value for each instance, or none (DESIGN
CHOICE, assumptions 3 and 4). -/
def resetSpecial (a : Nat) (d : Nat) : Nat :=
  if a = A.muxCmw 0 then 0x0FA0FF38
  else if a = A.muxCmw 1 then 0x03E8FC18
  else if a = A.muxCmw 2 then 0x7530FE0C
  else if a = A.muxCmw 3 then 0x7530F830
  else if A.muxTopt 0 ≤ a ∧ a < A.muxTopt 48 then 0x00380200 + (a - A.muxTopt 0) / 32 * 0x10000
  else if a = A.evrTrg 0 then 0xC0300000
  else if a = A.evrTrg 1 then 0xC0110000
  else if a = A.evrTrg 2 then 0xC0200000
  else if a = A.evrTrg 3 then 0xC0400000
  else if a = A.evrTrg 4 then 0xC0800000
  else if A.pnlTscale 0 ≤ a ∧ a < A.pnlTscale 8 then
    [0x00, 0xA0, 0x60, 0x40, 0x40, 0x38, 0x38, 0x30].getD ((a - A.pnlTscale 0) / 4) 0
  else if A.fltSrc 0 ≤ a ∧ a < A.fltSrc 76 then
    let p := faultSource ((a - A.fltSrc 0) / 4)
    p.1 * 0x10000 + p.2 * 0x10 + p.2
  else if a = A.lnBlkId 1 then 0x00310100
  else if a = A.lnBlkId 2 then 0x00320100
  else if a = A.tmbIsl 6 then 0xC0000000
  else if a = A.rtcDate ∨ a = A.rtcMonth then 1
  else if a = A.rtcFlags then 3
  else d

/-- What an unlisted address of the register file reads as: the reset value of its register (R48). -/
def resetWord (a : Nat) : Word :=
  let a := a % 2 ^ 32
  match rowOf a with
  | none => 0
  | some r => BitVec.ofNat 32 (resetSpecial a r.reset)

/-- The number under which master m's own copy of the register at `a` stands in the register file: a register that is
held per master (R446, R435, R557) is one register for each. -/
def bank (m a : Nat) : Nat := a + 2 ^ 32 * m

/-- The word of the register at address `a`. -/
def State.reg (s : State) (a : Nat) : Word := sget (resetWord a) s.regs a

/-- The state with the register at address `a` holding `w`. -/
def State.setReg (s : State) (a : Nat) (w : Word) : State :=
  { s with regs := sput (resetWord a) s.regs a w }

/-- Field `f` of the register at address `a`. -/
def State.fld (s : State) (a : Nat) (f : Fld) : Nat := f.get (s.reg a)

/-- Whether the one-bit field `f` of the register at `a` is 1. -/
def State.bit (s : State) (a : Nat) (f : Fld) : Bool := decide (s.fld a f = 1)

/-- The state with field `f` of the register at `a` set to `n`. -/
def State.setFld (s : State) (a : Nat) (f : Fld) (n : Nat) : State := s.setReg a (f.set (s.reg a) n)

/-- The state with the one-bit field `f` of the register at `a` set to `b`. -/
def State.setBit (s : State) (a : Nat) (f : Fld) (b : Bool) : State := s.setFld a f (if b then 1 else 0)

/-- A counter field advanced by `n`, saturating at its largest value. -/
def State.satAdd (s : State) (a : Nat) (f : Fld) (n : Nat) : State :=
  s.setFld a f (Nat.min (s.fld a f + n) f.max)

/-- A counter field advanced by one, saturating at its largest value. -/
def State.satInc (s : State) (a : Nat) (f : Fld) : State := s.satAdd a f 1

/-- A counter field of a register advanced by one, wrapping. -/
def State.inc (s : State) (a : Nat) (f : Fld) : State := s.setFld a f (s.fld a f + 1)

/-- A LAST field with a PEAK field above it, as the hand-on and input-set registers hold (R360). -/
def State.lastPeak (s : State) (a : Nat) (last peak : Fld) (n : Nat) : State :=
  let v := Nat.min n last.max
  (s.setFld a last v).setFld a peak (Nat.max (s.fld a peak) v)

/-- The 64-bit value whose low word is at `a` (R53). -/
def State.pair (s : State) (a : Nat) : Nat := (s.reg a).toNat + 2 ^ 32 * (s.reg (a + 4)).toNat

/-- The state with the 64-bit value at `a` set to `n` (R53). -/
def State.setPair (s : State) (a n : Nat) : State :=
  (s.setReg a (BitVec.ofNat 32 n)).setReg (a + 4) (BitVec.ofNat 32 (n / 2 ^ 32))

/-- Whether the loads of *Table: Power-fail shedding* are shed: in the power-fail phase (R576, R577). -/
def State.shed (s : State) : Bool := decide (3 ≤ s.fld A.supState F.supState_phase)

/-! ## Event flags -/

/-- The place of SEQ in a status register (R50). -/
def seqFld : Fld := ⟨31, 24⟩

/-- The next SEQ: 0x01 to 0xFF, then 0x01 again (R50). -/
def nextSeq (n : Nat) : Nat := if n = 0xFF then 1 else n + 1

/-- An event of the status register at `a`: SEQ advances, then the flag is set (R50). -/
def State.event (s : State) (a : Nat) (flag : Fld) : State :=
  (s.setFld a seqFld (nextSeq (s.fld a seqFld))).setFld a flag 1

/-- A clearing write: where the written SEQ matches, the flags written as 1 are cleared (R51). -/
def sqClear (cur v : Word) : Word :=
  if seqFld.get v = seqFld.get cur then
    BitVec.ofNat 32 (cur.toNat - (cur &&& v &&& 0x00FFFFFF#32).toNat)
  else cur

/-! ## Free values -/

/-- The index of the next free value, and the state with the next one after it. -/
def State.nextFree (s : State) : Nat × State := (s.free, { s with free := s.free + 1 })

/-! ## Errors -/

/-- The class in force for source k (R563). -/
def State.faultClass (s : State) (k : Nat) : Nat := s.fld (A.fltSrc k) F.fltSrc_class

/-- An error of source k, detected now, on its way to the collector with the class in force (R554, R556). MASK counts
only while the class is NOTE (R564). -/
def State.raise (s : State) (k inst access master : Nat) (addr : Word) (stamp : Stamp) : State :=
  let c := s.faultClass k
  let e : ErrRec := ⟨k, inst, access, master, addr, stamp, c, decide (c = 0) && s.bit (A.fltSrc k) F.fltSrc_mask⟩
  { s with flt := { s.flt with crossing := s.flt.crossing ++ [e] } }

/-- An error of source k with instance `inst`, detected at the current tick. -/
def State.report (s : State) (k inst : Nat) : State := s.raise k inst 0 0 0 s.tbc

/-- A bus error by master m at `addr`: reported to FLT with the access type, 1 read or 2 write (R46). -/
def State.busError (s : State) (m : Nat) (access : Nat) (addr : Word) : State :=
  s.raise 0 0 access m addr s.tbc

/-! ## Records to the tally -/

/-- A record handed to the tally's crossing (R340). -/
def State.send (s : State) (r : InRec) : State :=
  { s with tly := { s.tly with crossing := s.tly.crossing ++ [r] } }

/-- A record without payload. -/
def mkRec (ring kind source : Nat) (v : TWord) (aux : Nat) (stamp : Stamp) (island : Nat) : InRec :=
  ⟨ring, kind, source, v, aux, stamp, [], island, false, false⟩

/-- The state with lane `l` changed. -/
def State.modLane (s : State) (l : LaneId) (g : LaneSt → LaneSt) : State :=
  { s with lanes := s.lanes.modify l.val g }

/-- Lane `l`. -/
def State.lane (s : State) (l : LaneId) : LaneSt := s.lanes.getD l.val LaneSt.reset

end Sys2Proof.Machine
end

