-- ==== Sys2Proof/Machine/Interrupts.lean ====
section
/-! DEFINITION. The interrupts of the lamp room core: their sources and the word IPEND (R288, R541). -/

namespace Sys2Proof.Machine

/-- The interrupt number of the status register at address `a`, 0 where it is none (*Table: Lamp room interrupts*). -/
def interruptOf (a : Nat) : Nat :=
  if a = A.fltStatus then 1
  else if a = A.mgsStatus then 2
  else if a = A.jnlStatus then 5
  else if a = A.updStatus then 8
  else if a = A.netStatus then 9
  else if 0x00150100 ≤ a ∧ a < 0x00150900 ∧ a % 0x200 = 0x10C then 10
  else if 0x00151000 ≤ a ∧ a < 0x00151600 ∧ a % 0x20 = 0x18 then 11
  else if a = A.seqStatus then 12
  else if a = A.tlyStatus then 13
  else if a = A.lnStatus 0 ∨ a = A.lnStatus 1 ∨ a = A.lnStatus 2 then 14
  else if a = A.pnlStatus then 15
  else if a = A.evrStatus then 16
  else if a = A.supStatus ∨ a = A.supPmtStatus then 17
  else if a = A.tmbStatus then 18
  else if a = A.rtcStatus then 19
  else if a = A.trpStatus then 20
  else if a = A.outStatus then 21
  else if 0x00100000 ≤ a ∧ a < 0x00103000 ∧ (a % 0x100 = 0x1C ∨ a % 0x100 = 0x34) then 22
  else if 0x00130000 ≤ a ∧ a < 0x00138000 ∧ a % 0x1000 = 0xC then 23
  else if a = A.svcStatus ∨ a = A.muxStatus ∨ a = A.excStatus then 23
  else if a = A.hspStatus then 24
  else 0

/-- Whether a status word has a flag set (R50). -/
def anyFlag (w : Word) : Bool := decide (w.toNat % 2 ^ 24 ≠ 0)

/-- Whether interrupt n is pending (R541): any flag of its source registers is 1. Interrupts 0, 6 and 7 are held in the
core (DEDUCED, assumption 40). -/
def State.pendingAt (s : State) (n : Nat) : Bool :=
  match n with
  | 0 => decide (s.core.ipend.toNat % 2 = 1)
  | 3 => s.bit A.mgsWq F.mgsWq_valid
  | 4 => decide (0 < s.fld A.mgsHcmdState F.mgsHcmdState_pending)
  | 6 => decide (s.core.ipend.toNat / 64 % 2 = 1)
  | 7 => decide (s.core.ipend.toNat / 128 % 2 = 1)
  | _ => s.regs.any fun p => interruptOf p.1 == n && anyFlag p.2

/-- The word IPEND: bit n is 1 while interrupt n is pending; 25 to 31 never are (R287, R541). -/
def State.ipend (s : State) : Word :=
  BitVec.ofNat 32 ((List.range 25).foldl (fun w n => if s.pendingAt n then w + 2 ^ n else w) 0)

/-- The lowest interrupt that is pending and enabled in IMASK (R289). -/
def State.dueInterrupt (s : State) : Option Nat :=
  (List.range 25).find? fun n => decide (s.core.imask.toNat / 2 ^ n % 2 = 1) && s.pendingAt n

end Sys2Proof.Machine
end

