-- ==== Sys2Proof/Machine/Vupore.lean ====
section
/-! DEFINITION. Issuing a Vupore instruction: the threads of a lane with budget, faults, halts and the frame's
completion (R229 to R260), and the lamp room core with its exceptions (R282 to R291). -/

namespace Sys2Proof.Machine

/-! ## Threads -/

/-- Thread t of lane l. -/
def State.thread (s : State) (l : LaneId) (t : ThreadId) : Thread := (s.lane l).threads.getD t.val Thread.idle

/-- The lane with thread t replaced. -/
def LaneSt.putThread (ln : LaneSt) (t : ThreadId) (th : Thread) : LaneSt :=
  { ln with threads := ln.threads.set t.val th }

/-- Whether some thread is in RUN or WAIT (R252). -/
def LaneSt.live (ln : LaneSt) : Bool := ln.threads.any fun th => th.st == .run || th.st == .wait

/-- Cycles from release to the last issue slot any thread used in the frame (R229, R252). -/
def LaneSt.cycles (ln : LaneSt) : Nat :=
  (ln.threads.zipIdx).foldl
    (fun m p => if p.1.used = 0 then m else Nat.max m (p.2 + 128 * (p.1.used - 1) + 1)) 0

/-- The heartbeat the lane sends on completing its frame (R343). -/
def LaneSt.heartbeat (ln : LaneSt) : Heartbeat :=
  ⟨ln.frame, ln.cycles, ln.outbox.length, Config.txnDigest ln.outbox, Config.faultDigest ln.reports⟩

/-- The lane's frame completes if no thread is in RUN or WAIT: heartbeat, FRAME_DONE, LN_CYCLES, LN_FRAME, and the slots
each thread used (R252, R261). -/
def State.completeFrame (s : State) (l : LaneId) : State :=
  let ln := s.lane l
  if ln.executing && !ln.live then
    let s := s.modLane l fun ln => { ln with
      executing := false, threads := ln.threads.map fun th => { th with usedLast := th.used } }
    let s := (s.setReg (A.lnCycles l.val) (BitVec.ofNat 32 ln.cycles)).setFld (A.lnState l.val) F.lnState_framedone 1
    let s := (s.setReg (A.lnFrameLo l.val) (BitVec.ofNat 32 ln.frame)).setReg (A.lnFrameHi l.val)
      (BitVec.ofNat 32 (ln.frame / 2 ^ 32))
    { s with tly := { s.tly with sent := s.tly.sent.set l.val (some ln.heartbeat) } }
  else s

/-- The outbox with one transaction more, posted by thread t (R313). -/
def LaneSt.post (ln : LaneSt) (t : ThreadId) (stamp : Stamp) (b : TxnBody) : LaneSt :=
  { ln with outbox := ln.outbox ++ [⟨t.val, stamp, b⟩] }

/-- A commit group the thread has open is discarded whole when the thread stops (R259, R317). -/
def LaneSt.dropGroup (ln : LaneSt) (t : ThreadId) (th : Thread) : LaneSt :=
  match th.group with
  | none => ln
  | some _ => ln.post t ln.fCur (.groupEnd true)

/-- The thread stops in state `st`, its slot counts final for the frame (R231, R234, R259). -/
def State.stopThread (s : State) (l : LaneId) (t : ThreadId) (th : Thread) (st : ThreadState) : State :=
  let s := s.modLane l fun ln =>
    (ln.dropGroup t th).putThread t
      { th with st := st, haltAt := none, waiting := none, group := none }
  s.completeFrame l

/-- A thread fault that is recorded and reported without stopping the thread (R255, R256). -/
def State.reportThread (s : State) (l : LaneId) (t : ThreadId) (code : Nat) (th : Thread) : State :=
  let s := s.modLane l fun ln => { ln with reports := ln.reports ++ [⟨t.val, code, th.cpu.pc, th.used⟩] }
  s.event (A.lnStatus l.val) (if code = 1 then F.lnStatus_overrun else F.lnStatus_tfault)

/-- The thread takes fault `code` at its PC: the instruction has no effect, its issue opportunity counts one slot, and
the thread enters FAULTED (R234, R255, R259). -/
def State.threadFault (s : State) (l : LaneId) (t : ThreadId) (code : Nat) : State :=
  let th := s.thread l t
  let th := { th with
    used := th.used + 1, fcode := code, lastPc := th.cpu.pc
    overruns := if code = 1 then Nat.min (th.overruns + 1) 0xFF else th.overruns }
  (s.reportThread l t code th).stopThread l t th .faulted

/-- The slots the image allows thread t (R233). -/
def State.budget (s : State) (t : ThreadId) : Nat :=
  match s.image with
  | none => 0
  | some im => ((im.threads.getD t.val ⟨0, 0, false⟩).budget)

/-- Code words the active image loaded. -/
def State.codeWords (s : State) : Nat :=
  match s.image with
  | none => 0
  | some im => im.code.length

/-- The ISA level the active image declares (R326). -/
def State.isa (s : State) : Nat :=
  match s.image with
  | none => 0
  | some im => im.isa

/-! ## The core -/

/-- MSTAT.S, IE, PS, PIE, X and PX (*Table: Control registers*). -/
def mstatS : Fld := ⟨0, 0⟩
def mstatIe : Fld := ⟨1, 1⟩
def mstatPs : Fld := ⟨2, 2⟩
def mstatPie : Fld := ⟨3, 3⟩
def mstatX : Fld := ⟨4, 4⟩
def mstatPx : Fld := ⟨5, 5⟩

/-- The core's state changed. -/
def State.modCore (s : State) (g : Core → Core) : State := { s with core := g s.core }

/-- The core with MSTAT set; where X changes, the loop banks change places (R291). -/
def Core.setMstat (k : Core) (w : Word) : Core :=
  if mstatX.get w = mstatX.get k.mstat then { k with mstat := w }
  else { k with mstat := w, bank := k.cpu.loops, cpu := { k.cpu with loops := k.bank } }

/-- The flags and CT as EFLAGS holds them (R287, R290). -/
def Cpu.eflags (c : Cpu) : Word :=
  BitVec.ofNat 32 (8 * c.ct.code + (if c.l then 4 else 0) + (if c.n then 2 else 0) + (if c.z then 1 else 0))

/-- Exception or interrupt entry (R290): EPC, ECAUSE, EADDR where one applies, EFLAGS, MSTAT, bank 1 cleared, PC. -/
def Core.enter (k : Core) (epc : Nat) (cause : Word) (eaddr : Option Word) (vec : Nat) : Core :=
  let k := { k with
    epc := BitVec.ofNat 32 epc, ecause := cause, eflags := k.cpu.eflags
    eaddr := match eaddr with | none => k.eaddr | some a => a }
  let m := mstatPs.set k.mstat (mstatS.get k.mstat)
  let m := mstatPie.set m (mstatIe.get k.mstat)
  let m := mstatPx.set m (mstatX.get k.mstat)
  let m := mstatX.set (mstatIe.set (mstatS.set m 1) 0) 1
  let k := k.setMstat m
  { k with waiting := false, cpu := { k.cpu with loops := List.replicate 4 LoopLvl.off, pc := vec % 2 ^ 32 } }

/-- Exception `code` with argument `arg`, returning to `epc` (*Table: Exceptions*). -/
def Core.exception (k : Core) (code arg : Nat) (eaddr : Option Word) (epc : Nat) : Core :=
  k.enter epc (BitVec.ofNat 32 (arg * 0x100 + code)) eaddr (k.vbase.toNat + 4 * code)

/-- Interrupt n, returning to the next instruction (*Table: Exceptions*). -/
def Core.interrupt (k : Core) (n : Nat) : Core :=
  k.enter k.cpu.pc (BitVec.ofNat 32 (0x80000000 + n)) none (k.vbase.toNat + 0x40 + 4 * n)

/-- Whether `a` is a code address of the core: a word of the SRAM or of the boot ROM (R284). -/
def codeOk (a : Nat) : Bool :=
  decide (a % 4 = 0) && (decide (0x80000000 ≤ a ∧ a < 0x80040000) || decide (0xFFFF0000 ≤ a ∧ a < 0x100000000))

/-- Whether the core issues no instruction now: an interrupt is to be taken at this boundary, or WFI waits (R286,
R289). -/
def State.coreHeld (s : State) : Bool :=
  match s.dueInterrupt with
  | some _ => decide (mstatIe.get s.core.mstat = 1)
  | none => s.core.waiting

/-! ## Issue -/

/-- What an instruction does where nothing bars it: completes without a transfer of control, transfers control, ends
the thread's frame in the state given, takes a waiting turn, completes with a thread fault that does not stop the
thread, takes a thread fault or exception with the address it names, takes PRIV without an address, or takes SYS. -/
inductive Eff where
  | done (s : State) (c : Cpu)
  | jump (s : State) (c : Cpu) (target : Nat)
  | stop (st : ThreadState)
  | turn (s : State)
  | warn (s : State) (c : Cpu) (code : Nat)
  | fault (code : Nat) (addr : Word)
  | priv
  | sys (arg : Nat)

/-- A thread's instruction completed: its context and used slots are written, and a HALT command whose AT is reached
stops it (R234, R258). -/
def State.finish (s : State) (l : LaneId) (t : ThreadId) (slots : Nat) (c : Cpu) : State :=
  let th := s.thread l t
  let th := { th with st := .run, cpu := c, used := th.used + slots, waiting := none }
  match th.haltAt with
  | none => s.modLane l (·.putThread t th)
  | some n =>
    if n ≤ th.used then s.stopThread l t { th with lastPc := c.pc } .halted
    else s.modLane l (·.putThread t th)

/-- Completion without a transfer: loop-back, then CODE_RANGE where execution would fall through past the loaded code
(R255, R274). -/
def State.complete (s0 s : State) (l : LaneId) (t : ThreadId) (slots : Nat) (c : Cpu) : State :=
  let c := c.advance 1
  if c.pc < s0.codeWords then s.finish l t slots c else s0.threadFault l t 3

/-- What the instruction's effect makes of the lane's thread (R234, R255, R259). -/
def State.settle (s : State) (l : LaneId) (t : ThreadId) (slots : Nat) : Eff → State
  | .done s' c => s.complete s' l t slots c
  | .jump s' c target =>
    if target < s.codeWords then s'.finish l t slots { c with pc := target } else s.threadFault l t 3
  | .stop st =>
    let th := s.thread l t
    s.stopThread l t { th with
      used := th.used + slots, lastPc := if st = .halted then th.cpu.pc else th.lastPc } st
  | .turn s' => s'
  | .warn s' c code =>
    let th := s.thread l t
    (s.complete s' l t slots c).reportThread l t code { th with used := th.used + slots }
  | .fault code _ => s.threadFault l t code
  | .priv => s.threadFault l t 2
  | .sys _ => s.threadFault l t 2

/-- Whether the thread's issue opportunities execute instructions: its lane executes a frame and it is in RUN. -/
def State.ready (s : State) (l : LaneId) (t : ThreadId) : Bool :=
  (s.lane l).executing && (s.thread l t).st == .run

/-- One instruction of `slots` slots of thread t of lane l, which acts as `body` gives: OVERRUN where the slots left do
not hold it, ILLEGAL for a reserved encoding or a level above the image's (R234, R255, R266). `free` marks FEND, which
executes with the budget spent (R281). -/
def State.issueLane (s : State) (l : LaneId) (t : ThreadId) (slots : Nat) (free legal : Bool)
    (body : State → Cpu → Eff) : State :=
  if !s.ready l t then s
  else if !free && decide (s.budget t < (s.thread l t).used + slots) then s.threadFault l t 1
  else if !(legal && decide (1 ≤ s.isa)) then s.threadFault l t 2
  else s.settle l t slots (body s (s.thread l t).cpu)

/-- What the instruction's effect makes of the core (R284, R288). -/
def State.settleCore (s : State) : Eff → State
  | .done s' c =>
    let c' := c.advance 4
    if codeOk c'.pc then s'.modCore fun k => { k with cpu := c' }
    else s.modCore fun k => k.exception 3 0 (some (BitVec.ofNat 32 c'.pc)) k.cpu.pc
  | .jump s' c target =>
    if codeOk target then s'.modCore fun k => { k with cpu := { c with pc := target } }
    else s.modCore fun k => k.exception 3 0 (some (BitVec.ofNat 32 target)) k.cpu.pc
  | .fault code addr =>
    s.modCore fun k => k.exception code 0 (if code = 1 then none else some addr) k.cpu.pc
  | .priv => s.modCore fun k => k.exception 2 0 none k.cpu.pc
  | .sys arg => s.modCore fun k => k.exception 5 arg none (k.cpu.pc + 4)
  | .turn s' => s'
  | .stop _ => s
  | .warn s' _ _ => s'

/-- One instruction of the core of `slots` cycles (R282). A PC outside the SRAM and the boot ROM takes CODE_RANGE, a
reserved encoding ILLEGAL. -/
def State.issueCore (s : State) (slots : Nat) (legal : Bool) (body : State → Cpu → Eff) : State :=
  if s.coreHeld then s
  else
    let s := s.modCore fun k => { k with waiting := false, cycles := k.cycles + BitVec.ofNat 64 slots }
    if !codeOk s.core.cpu.pc then
      s.modCore fun k => k.exception 3 0 (some (BitVec.ofNat 32 k.cpu.pc)) k.cpu.pc
    else if !legal then s.modCore fun k => k.exception 1 0 none k.cpu.pc
    else s.settleCore (body s s.core.cpu)

/-- An instruction of both sets (R268). -/
def State.issue (s : State) (w : Who) (slots : Nat) (legal : Bool) (body : State → Cpu → Eff) : State :=
  match w with
  | .lane l t => s.issueLane l t slots false legal body
  | .core => s.issueCore slots legal body

/-- An instruction of the lanes only: the core takes the ILLEGAL exception (R283). -/
def State.issueLanes (s : State) (w : Who) (slots : Nat) (free legal : Bool)
    (body : LaneId → ThreadId → State → Cpu → Eff) : State :=
  match w with
  | .lane l t => s.issueLane l t slots free legal (body l t)
  | .core => s.issueCore 1 false fun s c => .done s c

/-- An instruction of the core only: a lane thread takes the ILLEGAL fault (R255). -/
def State.issueM (s : State) (w : Who) (legal : Bool) (body : State → Cpu → Eff) : State :=
  match w with
  | .lane l t => s.issueLane l t 1 false false fun s c => .done s c
  | .core => s.issueCore 1 legal body

/-- An instruction that changes its own register context only. -/
def State.issueCpu (s : State) (w : Who) (slots : Nat) (legal : Bool) (g : Cpu → Cpu) : Out :=
  .next (s.issue w slots legal fun s c => .done s (g c))

/-- Words between code addresses: a lane counts words, the core bytes (R284). -/
def pcStep : Who → Nat
  | .lane _ _ => 1
  | .core => 4

end Sys2Proof.Machine
end

