-- ==== Sys2Proof/Machine/Keep.lean ====
section
/-! DEFINITION. Keep memory, ring, time and register access instructions (R239 to R250, R276 to R280). -/

namespace Sys2Proof.Machine

/-! ## Keep memory -/

/-- Whether thread t may access keep word `a` under the active image's keep map (R239, R329). -/
def State.keepAllowed (s : State) (t : ThreadId) (a : Nat) : Bool :=
  match s.image with
  | none => false
  | some im => im.regions.any fun r => decide (r.first ≤ a ∧ a < r.first + r.count) && r.threads.getLsbD t.val

/-- Whether words `a` to `a + n - 1` are keep words the thread may access (R276, R293). -/
def State.keepOk (s : State) (t : ThreadId) (a : Int) (n : Nat) : Bool :=
  decide (0 ≤ a ∧ a + n ≤ 32768) && (List.range n).all fun i => s.keepAllowed t (a.toNat + i)

/-- Whether the n words at `ea` may be accessed: the thread's regions in a lane, 8,192 words on the core (R276,
R283). -/
def State.keepReach (s : State) (w : Who) (a : Int) (n : Nat) : Bool :=
  match w with
  | .lane _ t => s.keepOk t a n
  | .core => decide (0 ≤ a ∧ a + n ≤ 8192)

/-- A keep word with its tag. -/
def State.keepGet (s : State) (w : Who) (a : Nat) : TWord :=
  match w with
  | .lane l _ => sget TWord.zero (s.lane l).keep a
  | .core => sget TWord.zero s.core.keep a

/-- The lane under repair whose donor is lane l, once the repair release has come (R352). -/
def State.repairOf (s : State) (l : LaneId) : Option LaneId :=
  match s.tly.repair with
  | none => none
  | some r => if r.donor = l ∧ r.released.isSome then some r.lane else none

/-- Writes a keep word with its tag. A donor's write goes into the lane it repairs too (R352). -/
def State.keepPut (s : State) (w : Who) (a : Nat) (v : TWord) : State :=
  match w with
  | .lane l _ =>
    let s' := s.modLane l fun ln => { ln with keep := sput TWord.zero ln.keep a v }
    match s.repairOf l with
    | none => s'
    | some x => s'.modLane x fun ln => { ln with keep := sput TWord.zero ln.keep a v }
  | .core => s.modCore fun k => { k with keep := sput TWord.zero k.keep a v }

/-- The effective address: the value of ra plus the immediate, without wrap (R276). -/
def Cpu.ea (c : Cpu) (a : Reg) (imm : BitVec 18) : Int := (c.get a).val.toNat + sext imm

/-- A keep instruction on `n` words (R276): KEEP_RANGE outside the thread's reach. -/
def keepInstr (w : Who) (a : Reg) (imm : BitVec 18) (n slots : Nat) (legal : Bool)
    (body : State → Cpu → Nat → Eff) (s : State) : Out :=
  .next (s.issue w slots legal fun s c =>
    if s.keepReach w (c.ea a imm) n then body s c (c.ea a imm).toNat
    else .fault 4 (BitVec.ofInt 32 (c.ea a imm)))

/-- LDK (R276). -/
def execLdk (w : Who) (d a : Reg) (imm : BitVec 18) (s : State) : Out :=
  keepInstr w a imm 1 1 true (fun s c ea => .done s (c.set d (s.keepGet w ea))) s

/-- STK (R276). -/
def execStk (w : Who) (d a : Reg) (imm : BitVec 18) (s : State) : Out :=
  keepInstr w a imm 1 1 true (fun s c ea => .done (s.keepPut w ea (c.get d)) c) s

/-- LDK2 (R276). -/
def execLdk2 (w : Who) (d a : Reg) (imm : BitVec 18) (s : State) : Out :=
  keepInstr w a imm 2 2 (isPair d)
    (fun s c ea => .done s ((c.set d (s.keepGet w ea)).set (hiReg d) (s.keepGet w (ea + 1)))) s

/-- STK2 (R276). -/
def execStk2 (w : Who) (d a : Reg) (imm : BitVec 18) (s : State) : Out :=
  keepInstr w a imm 2 2 (isPair d)
    (fun s c ea => .done ((s.keepPut w ea (c.get d)).keepPut w (ea + 1) (c.get (hiReg d))) c) s

/-! ## Rings -/

/-- Whether the image's mask list names thread t for ring r (R243, R246, R328). -/
def named (masks : List (BitVec 128)) (r : BitVec 7) (t : ThreadId) : Bool :=
  (masks.getD r.toNat 0).getLsbD t.val

/-- Whether thread t may take from ring r (R277). -/
def State.mayTake (s : State) (r : BitVec 7) (t : ThreadId) : Bool :=
  match s.image with
  | none => false
  | some im => named im.takers r t

/-- Whether thread t may post to ring r, a general ring (R277). -/
def State.mayPost (s : State) (r : BitVec 7) (t : ThreadId) : Bool :=
  match s.image with
  | none => false
  | some im => decide (r.toNat < 96) && named im.posters r t

/-- Whether thread t is named for ring r at all (R277). -/
def State.mayCount (s : State) (r : BitVec 7) (t : ThreadId) : Bool :=
  match s.image with
  | none => false
  | some im => named im.posters r t || named im.takers r t

/-- The oldest entry of ring r, whether it is a head or general entry, and the lane without it (R243, R249). -/
def LaneSt.takeEntry (ln : LaneSt) (r : BitVec 7) : Option (FixedEntry × LaneSt) :=
  if r.toNat < 96 then
    match ln.rings.getD r.toNat [] with
    | [] => none
    | e :: es => some (⟨e, true⟩, { ln with rings := ln.rings.set r.toNat es })
  else
    match ln.fixed.getD (r.toNat - 96) [] with
    | [] => none
    | e :: es => some (e, { ln with fixed := ln.fixed.set (r.toNat - 96) es })

/-- The pair an entry is moved into (R248). -/
def Cpu.setEntry (c : Cpu) (d : Reg) (e : FixedEntry) : Cpu :=
  let lo : Word := e.bits.truncate 32
  let hi : Word := (e.bits >>> 32).truncate 32
  if e.head then (c.set d ⟨hi, Tag.ofCode (lo.toNat / 2 ^ 30)⟩).set (hiReg d) ⟨lo, .good⟩
  else (c.set d ⟨lo, .good⟩).set (hiReg d) ⟨hi, .good⟩

/-- TAKE's effect (R248, R250, R277). -/
def takeEff (l : LaneId) (d : Reg) (r : BitVec 7) (s : State) (c : Cpu) : Eff :=
  match (s.lane l).takeEntry r with
  | none => .done s (c.flags true false false .good)
  | some (e, ln) => .done (s.modLane l fun _ => ln) ((c.setEntry d e).flags false e.head false .good)

/-- Whether RD of a ring instruction is no reserved encoding: an even number, w0 taking a RING fault (R267). -/
def ringReg (d : Reg) : Bool := decide (d.val % 2 = 0)

/-- TAKE (R277). -/
def execTake (w : Who) (d : Reg) (ring : BitVec 7) (s : State) : Out :=
  .next (s.issueLanes w 1 false (ringReg d) fun l t s c =>
    if d = 0 ∨ ¬s.mayTake ring t then .fault 5 0 else takeEff l d ring s c)

/-- Whether every thread the ring map names as a poster of ring r is in DONE, HALTED, FAULTED or IDLE (R244). -/
def State.postersDone (s : State) (l : LaneId) (r : BitVec 7) : Bool :=
  match s.image with
  | none => true
  | some im =>
    (List.finRange 128).all fun t =>
      !named im.posters r t || !((s.thread l t).st == .run || (s.thread l t).st == .wait)

/-- Whether a WAIT on ring r ends at this turn: an entry is there, no poster is left, or the ring is fixed (R244). -/
def State.waitEnds (s : State) (l : LaneId) (r : BitVec 7) : Bool :=
  decide (96 ≤ r.toNat) || ((s.lane l).takeEntry r).isSome || s.postersDone l r

/-- One turn of a WAIT: as TAKE where the wait ends, else a waiting turn that counts one slot (R234, R244). -/
def waitEff (d : Reg) (r : BitVec 7) (l : LaneId) (t : ThreadId) (s : State) (c : Cpu) : Eff :=
  if d = 0 ∨ ¬s.mayTake r t then .fault 5 0
  else if s.waitEnds l r then takeEff l d r s c
  else
    let th := s.thread l t
    .turn (s.modLane l (·.putThread t { th with st := .wait, used := th.used + 1, waiting := some (d, r.toNat) }))

/-- The state in which a thread that waits takes its next turn of the same WAIT. -/
def State.resume (s : State) (l : LaneId) (t : ThreadId) (d : Reg) (r : BitVec 7) : State :=
  let th := s.thread l t
  if th.st = .wait ∧ th.waiting = some (d, r.toNat) then s.modLane l (·.putThread t { th with st := .run })
  else s

/-- WAIT (R244, R277). -/
def execWait (w : Who) (d : Reg) (ring : BitVec 7) (s : State) : Out :=
  match w with
  | .lane l t => .next ((s.resume l t d ring).issueLane l t 1 false (ringReg d) (waitEff d ring l t))
  | .core => .next (s.issueLanes w 1 false true fun _ _ s c => .done s c)

/-- WAIT_END (R244): the waiting thread's next issue opportunity after an entry has come, or the last poster has
stopped. -/
def execWaitEnd (l : LaneId) (t : ThreadId) (s : State) : Out :=
  match (s.thread l t).waiting with
  | none => .next s
  | some (d, r) =>
    let ring := BitVec.ofNat 7 r
    if (s.thread l t).st = .wait ∧ s.waitEnds l ring then
      .next ((s.resume l t d ring).issueLane l t 1 false true (waitEff d ring l t))
    else .next s

/-- The entry POST stores from the pair (R243). -/
def Cpu.entry (c : Cpu) (d : Reg) : BitVec 64 :=
  BitVec.ofNat 64 ((c.get d).val.toNat * 2 ^ 32 + (c.get d).tag.code * 2 ^ 30
    + (c.get (hiReg d)).val.toNat % 2 ^ 30)

/-- POST (R243, R245, R277): a full ring stores nothing and takes RING_FULL, which does not stop the thread. -/
def execPost (w : Who) (d : Reg) (ring : BitVec 7) (s : State) : Out :=
  .next (s.issueLanes w 1 false (ringReg d) fun l t s c =>
    if d = 0 ∨ ¬s.mayPost ring t then .fault 5 0
    else
      let q := (s.lane l).rings.getD ring.toNat []
      if 32 ≤ q.length then .warn s (c.flags true false false .good) 6
      else
        .done (s.modLane l fun ln => { ln with rings := ln.rings.set ring.toNat (q ++ [c.entry d]) })
          (c.flags false false false .good))

/-- Entries RCNT counts: those of a general ring now, or those of a fixed ring's source still to be taken in the
frame (R277). -/
def LaneSt.ringCount (ln : LaneSt) (r : BitVec 7) : Nat :=
  if r.toNat < 96 then (ln.rings.getD r.toNat []).length else (ln.fixed.getD (r.toNat - 96) []).length

/-- RCNT (R277). -/
def execRcnt (w : Who) (d : Reg) (ring : BitVec 7) (s : State) : Out :=
  .next (s.issueLanes w 1 false true fun l t s c =>
    if ¬s.mayCount ring t then .fault 5 0
    else
      let n := (s.lane l).ringCount ring
      .done s ((c.set d ⟨BitVec.ofNat 32 n, .good⟩).flags (decide (n = 0)) false false .good))

/-! ## Time -/

/-- FRM: F(k), F(k−1), k or the period, as a pair of tag GOOD (R278). -/
def execFrm (w : Who) (d : Reg) (sel : BitVec 18) (s : State) : Out :=
  .next (s.issueLanes w 1 false (isPair d && decide (sel.toNat < 4)) fun l _ s c =>
    let ln := s.lane l
    let v := match sel.toNat with
      | 0 => ln.fCur.toNat
      | 1 => ln.fPrev.toNat
      | 2 => ln.frame
      | _ => ln.period
    .done s (c.setPair d v .good))

/-- The pair d set to a 64-bit result that saturates (R278). -/
def Cpu.setSat (c : Cpu) (d : Reg) (n : Int) (t : Tag) : Cpu := c.setPair d (satU64 n t).1 (satU64 n t).2

/-- TADD: ra2 plus a signed number of ticks (R278). -/
def execTadd (w : Who) (d a b : Reg) (s : State) : Out :=
  s.issueCpu w 1 (isPair d && isPair a) fun c =>
    c.setSat d (c.pair a + (c.get b).val.toInt) ((c.pairTag a).worst (c.get b).tag)

/-- TADDP (R278). -/
def execTaddp (w : Who) (d a b : Reg) (s : State) : Out :=
  s.issueCpu w 1 (isPair d && isPair a && isPair b) fun c =>
    c.setSat d (c.pair a + c.pair b) ((c.pairTag a).worst (c.pairTag b))

/-- TSUB (R278). -/
def execTsub (w : Who) (d a b : Reg) (s : State) : Out :=
  s.issueCpu w 1 (isPair d && isPair a && isPair b) fun c =>
    c.setSat d ((c.pair a : Int) - c.pair b) ((c.pairTag a).worst (c.pairTag b))

/-- TCMP (R278). -/
def execTcmp (w : Who) (a b : Reg) (s : State) : Out :=
  s.issueCpu w 1 (isPair a && isPair b) fun c =>
    let lt := decide (c.pair a < c.pair b)
    c.flags (decide (c.pair a = c.pair b)) lt lt ((c.pairTag a).worst (c.pairTag b))

/-- TDUE: ra2 against F(k) (R254, R278). -/
def execTdue (w : Who) (a : Reg) (s : State) : Out :=
  .next (s.issueLanes w 1 false (isPair a) fun l _ s c =>
    let f := (s.lane l).fCur.toNat
    let lt := decide (c.pair a < f)
    .done s (c.flags (decide (c.pair a = f)) lt lt (c.pairTag a)))

/-- TDIFF: the difference as a signed 32-bit number of ticks (R278). -/
def execTdiff (w : Who) (d a b : Reg) (s : State) : Out :=
  s.issueCpu w 1 (isPair a && isPair b) fun c =>
    c.set d (satS ((c.pair a : Int) - c.pair b) ((c.pairTag a).worst (c.pairTag b)))

/-- TTOS: the difference in Q16.16 seconds, rounded to nearest, halves away from 0 (R278). -/
def execTtos (w : Who) (d a b : Reg) (s : State) : Out :=
  s.issueCpu w 2 (isPair a && isPair b) fun c =>
    c.set d (satS (roundDiv (((c.pair a : Int) - c.pair b) * 65536) 100000000)
      ((c.pairTag a).worst (c.pairTag b)))

/-- TQS: Q16.16 seconds to ticks; below 0 gives 0 with tag BAD (R238, R278). -/
def execTqs (w : Who) (d a : Reg) (s : State) : Out :=
  s.issueCpu w 2 (isPair d) fun c =>
    c.setSat d (roundDiv ((c.get a).val.toInt * 100000000) 65536) (c.get a).tag

/-- TMS: milliseconds to ticks (R278). -/
def execTms (w : Who) (d a : Reg) (s : State) : Out :=
  s.issueCpu w 1 (isPair d) fun c => c.setPair d ((c.get a).val.toNat * 100000) (c.get a).tag

/-! ## Register access -/

/-- Transactions the lane's outbox has room for (R320). -/
def LaneSt.room (ln : LaneSt) : Nat := 4096 - ln.outbox.length

/-- The lane with its outbox found too full in this frame (R320). -/
def State.markFull (s : State) (l : LaneId) : State := s.modLane l fun ln => { ln with outboxFull := true }

/-- Whether the image permits thread t a register access at the address (R333). -/
def State.mayAccess (s : State) (t : ThreadId) (write : Bool) (addr : Nat) : Bool :=
  match s.image with
  | none => false
  | some im =>
    let d := im.decls.getD t.val ⟨0, 0, 0, false, false, false, false⟩
    (if write then d.regWrite else d.regRead) &&
      im.regDecls.any fun r =>
        r.thread == t.val && (if write then r.write else r.read) && decide (r.base ≤ addr ∧ addr ≤ r.limit)

/-- A register access (R279): not posted with a BAD operand, TXN outside the declaration. -/
def regAccess (l : LaneId) (t : ThreadId) (write : Bool) (addr : Word) (ct : Tag) (b : TxnBody) (s : State)
    (c : Cpu) : Eff :=
  if ct = .bad then .done s (c.flags true false false ct)
  else if ¬s.mayAccess t write addr.toNat then .fault 7 0
  else if (s.lane l).room < 1 then .done (s.markFull l) (c.flags true false false ct)
  else .done (s.modLane l fun ln => ln.post t ln.fCur b) (c.flags false false false ct)

/-- REGR: a voted read with its request number; IMM[17:16] are 0 (R279). -/
def execRegr (w : Who) (a : Reg) (imm : BitVec 18) (s : State) : Out :=
  .next (s.issueLanes w 1 false (decide (imm.toNat < 65536)) fun l t s c =>
    let v := c.get a
    regAccess l t false v.val v.tag (.regRead v.val imm.toNat) s c)

/-- REGW: a voted write (R279). -/
def execRegw (w : Who) (a b : Reg) (s : State) : Out :=
  .next (s.issueLanes w 1 false true fun l t s c =>
    let v := c.get a
    let u := c.get b
    regAccess l t true v.val (tags v u) (.regWrite v.val u.val) s c)

end Sys2Proof.Machine
end

