-- ==== Sys2Proof/Machine/AlarmOps.lean ====
section
/-! DEFINITION. What the alarm, counter and call instructions share: records in keep memory, the declarations of the
image, commit groups, the outbox, and the journal records they post (R292 to R294, R317 to R320, R408). -/

namespace Sys2Proof.Machine

/-- What an instruction of R292 does at its last slot: keep writes, transactions, and the context after it; `full` is
the context where the outbox has too little room (R320). -/
structure Fx where
  writes : List (Nat × TWord)
  posts : List (Stamp × TxnBody)
  cpu : Cpu
  full : Cpu
  deriving DecidableEq, Repr

/-- Ticks of 0.1 s and of 10 s (R296, R310). -/
def ticks100ms : Nat := 10000000
def ticks10s : Nat := 1000000000

/-- The sum of two tick counts, saturating at 2^64 − 1 (R278, R295). -/
def addTicks (a b : Nat) : Nat := Nat.min (a + b) 0xFFFFFFFFFFFFFFFF

/-- The declaration of thread t (R332). -/
def State.decl (s : State) (t : ThreadId) : TxnDecl :=
  match s.image with
  | none => ⟨0, 0, 0, false, false, false, false⟩
  | some im => im.decls.getD t.val ⟨0, 0, 0, false, false, false, false⟩

/-- The address of record n of an area at `base` with `count` records of `size` words, where the thread reaches all of
it (R293). -/
def State.record (s : State) (t : ThreadId) (n count base size : Nat) : Option Nat :=
  if n < count ∧ s.keepOk t ((base + size * n : Nat) : Int) size then some (base + size * n) else none

/-- Alarm a's record (R293). -/
def State.alarmRec (s : State) (t : ThreadId) (a : Nat) : Option Nat :=
  match s.image with
  | none => none
  | some im => s.record t a im.nalm im.abase 8

/-- Group g's record (R293). -/
def State.groupRec (s : State) (t : ThreadId) (g : Nat) : Option Nat :=
  match s.image with
  | none => none
  | some im => s.record t g im.ngrp im.gbase 16

/-- Zone z's record (R293). -/
def State.zoneRec (s : State) (t : ThreadId) (z : Nat) : Option Nat :=
  match s.image with
  | none => none
  | some im => s.record t z im.nzone im.zbase 16

/-- LINEAGE of the active image (R331). -/
def State.lineage (s : State) : Nat :=
  match s.image with
  | none => 0
  | some im => im.lineage

/-- Keep word `a` of lane l. -/
def State.kword (s : State) (l : LaneId) (a : Nat) : TWord := sget TWord.zero (s.lane l).keep a

/-- Keep words `a` and `a + 1` as a 64-bit value, low word first. -/
def State.kpair (s : State) (l : LaneId) (a : Nat) : Nat :=
  (s.kword l a).val.toNat + 2 ^ 32 * (s.kword l (a + 1)).val.toNat

/-- The writes of a 64-bit value, tag GOOD, to words `a` and `a + 1`. -/
def put64 (a v : Nat) : List (Nat × TWord) :=
  [(a, ⟨BitVec.ofNat 32 v, .good⟩), (a + 1, ⟨BitVec.ofNat 32 (v / 2 ^ 32), .good⟩)]

/-- Bits hi down to lo of a word. -/
def bits (w : Word) (hi lo : Nat) : Nat := w.toNat / 2 ^ lo % 2 ^ (hi + 1 - lo)

/-- Bit i of a word. -/
def bitOf (w : Word) (i : Nat) : Bool := w.getLsbD i

/-- A condition as a number. -/
def b2n (b : Bool) : Nat := if b then 1 else 0

/-- What a keep word of lane l will hold after the writes. -/
def State.after (s : State) (l : LaneId) (ws : List (Nat × TWord)) (a : Nat) : TWord :=
  ws.foldl (fun v p => if p.1 = a then p.2 else v) (s.kword l a)

/-- TAGS: the tag of the i-th keep word in bits 2i+1 to 2i (R406). -/
def tagsWord (ws : List TWord) : Word :=
  BitVec.ofNat 32 ((ws.zipIdx).foldl (fun n p => n + p.1.tag.code * 4 ^ p.2) 0)

/-- The keep words at the offsets, as they stand after the writes (R318). -/
def State.recWords (s : State) (l : LaneId) (ws : List (Nat × TWord)) (base : Nat) (offs : List Nat) : List TWord :=
  offs.map fun o => s.after l ws (base + o)

/-- An alarm record (R408, kind 0x01). -/
def State.alarmJrec (s : State) (l : LaneId) (t : ThreadId) (ws : List (Nat × TWord)) (a base : Nat)
    (stamp : Stamp) : JRec :=
  let ks := s.recWords l ws base [1, 5, 6, 7]
  ⟨0x01, 1, 0, a, t.val, stamp, tagsWord ks :: ks.map (·.val)⟩

/-- A group record (R408, kind 0x02). -/
def State.groupJrec (s : State) (l : LaneId) (t : ThreadId) (ws : List (Nat × TWord)) (g base : Nat)
    (stamp : Stamp) : JRec :=
  let ks := s.recWords l ws base [1, 2, 4, 5, 6, 7, 8, 9]
  ⟨0x02, 1, 0, g, t.val, stamp, tagsWord ks :: ks.map (·.val)⟩

/-- A zone record (R408, kind 0x03). -/
def State.zoneJrec (s : State) (l : LaneId) (t : ThreadId) (ws : List (Nat × TWord)) (z base : Nat)
    (stamp : Stamp) : JRec :=
  let ks := s.recWords l ws base [4, 5, 6, 7, 8, 9]
  ⟨0x03, 1, 0, z, t.val, stamp, tagsWord ks :: ks.map (·.val)⟩

/-- A counter record (R408, kind 0x04). -/
def State.counterJrec (s : State) (l : LaneId) (t : ThreadId) (ws : List (Nat × TWord)) (base : Nat)
    (stamp : Stamp) : JRec :=
  let ks := s.recWords l ws base [4, 5, 6]
  ⟨0x04, 1, 0, base, t.val, stamp, BitVec.ofNat 32 s.lineage :: tagsWord ks :: ks.map (·.val)⟩

/-- Whether the transaction is a journal record. -/
def isJournal : TxnBody → Bool
  | .journal _ => true
  | _ => false

/-- Whether the record fits the commit group thread t has open, or forms a group by itself (R317). -/
def groupFits (g : Option OpenGroup) (r : JRec) : Bool :=
  match g with
  | none => true
  | some g => decide (g.count + 1 ≤ 32 ∧ g.bytes + r.len ≤ 4096)

/-- Posts one transaction; a journal record that would exceed a limit of the open group is not posted, and the group
is marked (R317). -/
def LaneSt.postTxn (ln : LaneSt) (t : ThreadId) (p : Stamp × TxnBody) : LaneSt :=
  match p.2 with
  | .journal r =>
    let th := ln.threads.getD t.val Thread.idle
    match th.group with
    | none => ln.post t p.1 p.2
    | some g =>
      if groupFits (some g) r then
        (ln.post t p.1 p.2).putThread t { th with group := some { g with count := g.count + 1, bytes := g.bytes + r.len } }
      else ln.putThread t { th with group := some { g with exceeded := true } }
  | _ => ln.post t p.1 p.2

/-- Whether the post takes a place in the outbox. -/
def LaneSt.takesRoom (ln : LaneSt) (t : ThreadId) (b : TxnBody) : Bool :=
  match b with
  | .journal r => groupFits (ln.threads.getD t.val Thread.idle).group r
  | _ => true

/-- The effect of an instruction of R292: TXN for a journal record the image does not permit the thread, nothing but
the flags where the outbox has too little room, else its keep writes and its transactions in order (R294, R319,
R320). -/
def applyFx (l : LaneId) (t : ThreadId) (s : State) (fx : Fx) : Eff :=
  if fx.posts.any (fun p => isJournal p.2) && !(s.decl t).journal then .fault 7 0
  else if (s.lane l).room < (fx.posts.filter fun p => (s.lane l).takesRoom t p.2).length then
    .done (s.markFull l) fx.full
  else
    let s' := fx.writes.foldl (fun s p => s.keepPut (.lane l t) p.1 p.2) s
    .done (s'.modLane l fun ln => fx.posts.foldl (fun ln p => ln.postTxn t p) ln) fx.cpu

/-- An instruction of R292: `slots` of issue, its register fields legal, KEEP_RANGE where `body` finds a record out of
reach. -/
def alarmInstr (w : Who) (slots : Nat) (legal : Bool) (body : LaneId → ThreadId → State → Cpu → Eff) (s : State) :
    Out :=
  .next (s.issueLanes w slots false legal body)

end Sys2Proof.Machine
end

