-- ==== Sys2Proof/Machine/AlarmIns.lean ====
section
/-! DEFINITION. The alarm, counter and call instructions (R295 to R318). -/

namespace Sys2Proof.Machine

/-! ## Limits and delays -/

/-- LIMH or LIML (R295): the condition is held where the value or the limit pair is BAD. -/
def limit (high : Bool) (d a b : Reg) (c : Cpu) : Cpu :=
  let rd := c.get d
  let cond := bitOf rd.val 0
  let v := c.get a
  let lim := (c.get b).val.toInt
  let hyst : Int := if (c.get (hiReg b)).val.toInt < 0 then 0 else (c.get (hiReg b)).val.toInt
  let out : TWord :=
    if v.tag = .bad ∨ c.pairTag b = .bad then ⟨BitVec.ofNat 32 (b2n cond), .bad⟩
    else
      let r :=
        if high then
          if cond then decide ((satS (lim - hyst) .good).val.toInt < v.val.toInt) else decide (lim < v.val.toInt)
        else
          if cond then decide (v.val.toInt < (satS (lim + hyst) .good).val.toInt) else decide (v.val.toInt < lim)
      ⟨BitVec.ofNat 32 (b2n r), v.tag.worst (c.pairTag b)⟩
  (c.set d out).flags (decide (bitOf out.val 0 = cond)) false false rd.tag

/-- LIMH (R295). -/
def execLimh (w : Who) (d a b : Reg) (s : State) : Out :=
  alarmInstr w 1 (isPair b) (fun _ _ s c => .done s (limit true d a b c)) s

/-- LIML (R295). -/
def execLiml (w : Who) (d a b : Reg) (s : State) : Out :=
  alarmInstr w 1 (isPair b) (fun _ _ s c => .done s (limit false d a b c)) s

/-- A timer's RUN, OUT, IN and TSTAMP (R296); `wrote` tells whether TSTAMP has been given a value. -/
structure Timer where
  run : Bool
  out : Bool
  inp : Bool
  stamp : Nat
  wrote : Bool
  deriving DecidableEq, Repr

/-- The timer step of R297 for condition c stamped s, with delays in ticks, at seam f. -/
def timerStep (m : Timer) (c : Bool) (s don doff f : Nat) : Timer :=
  let m := if m.run && c == m.out && decide (m.stamp < s) then { m with out := !m.out, run := false } else m
  let m :=
    if m.run then
      if c = m.out then { m with run := false, stamp := s, wrote := true }
      else if m.stamp < f then { m with out := c, run := false }
      else m
    else if c ≠ m.out then
      let d := if c then don else doff
      if d = 0 then { m with out := c, stamp := s, wrote := true }
      else
        let due := addTicks s d
        if due < f then { m with out := c, run := false, stamp := due, wrote := true }
        else { m with run := true, stamp := due, wrote := true }
    else m
  { m with inp := c }

/-- DLYON, DLYOFF and DLY (R297), by which delays apply. -/
def delay (on off : Bool) (d a b : Reg) (l : LaneId) (t : ThreadId) (s : State) (c : Cpu) : Eff :=
  let base := (c.get a).val.toNat
  if ¬s.keepOk t (base : Int) 4 then .fault 4 (c.get a).val
  else
    let rd := c.get d
    let cfg := (s.kword l base).val
    let st := (s.kword l (base + 1)).val
    let m : Timer := ⟨bitOf st 2, bitOf st 1, bitOf st 0, s.kpair l (base + 2), false⟩
    let cond := if rd.tag = .bad then m.inp else bitOf rd.val 0
    let don := if on then bits cfg 31 16 * ticks100ms else 0
    let doff := if off then bits cfg 15 0 * ticks100ms else 0
    let m' := timerStep m cond (c.pair b) don doff (s.lane l).fCur.toNat
    let st' := BitVec.ofNat 32 (4 * b2n m'.run + 2 * b2n m'.out + b2n m'.inp)
    let c' := (c.set d ⟨BitVec.ofNat 32 (b2n m'.out), rd.tag⟩).setPair b m'.stamp .good
    applyFx l t s {
      writes := (base + 1, ⟨st', rd.tag⟩) :: (if m'.wrote then put64 (base + 2) m'.stamp else [])
      posts := []
      cpu := c'.flags (decide (m'.out = m.out)) m'.out m'.run rd.tag
      full := c }

/-- DLYON (R297). -/
def execDlyon (w : Who) (d a b : Reg) (s : State) : Out :=
  alarmInstr w 2 (isPair b) (delay true false d a b) s

/-- DLYOFF (R297). -/
def execDlyoff (w : Who) (d a b : Reg) (s : State) : Out :=
  alarmInstr w 2 (isPair b) (delay false true d a b) s

/-- DLY (R297). -/
def execDly (w : Who) (d a b : Reg) (s : State) : Out :=
  alarmInstr w 2 (isPair b) (delay true true d a b) s

/-! ## Alarm points -/

/-- ASTATE (R298). -/
structure AState where
  ackOrg : Nat
  ackSrc : Nat
  first : Bool
  supp : Bool
  unack : Bool
  active : Bool
  cond : Bool
  deriving DecidableEq, Repr

/-- ASTATE of a keep word. -/
def AState.of (w : Word) : AState :=
  ⟨bits w 27 24, bits w 23 16, bitOf w 4, bitOf w 3, bitOf w 2, bitOf w 1, bitOf w 0⟩

/-- The keep word of an ASTATE; bits without a field are written as 0 (R294). -/
def AState.word (x : AState) : Word :=
  BitVec.ofNat 32 (x.ackOrg * 2 ^ 24 + x.ackSrc * 2 ^ 16 + 16 * b2n x.first + 8 * b2n x.supp + 4 * b2n x.unack
    + 2 * b2n x.active + b2n x.cond)

/-- The alarm step of R300 for condition c under suppression `sup`: the new ASTATE and the change mask. LATCH is
`latch`. -/
def alarmStep (x : AState) (c sup latch : Bool) : AState × Nat :=
  let eOld := x.cond && !x.supp
  let e := c && !sup
  let m0 := (if e && !eOld then 0x10 else 0) + (if eOld && !e then 0x20 else 0)
  let (x, m) :=
    if e && !x.active then
      if x.unack then ({ x with active := true }, m0 + 0x01)
      else ({ x with active := true, unack := true }, m0 + 0x05)
    else if !e && x.active && (!latch || !x.unack) then ({ x with active := false }, m0 + 0x02)
    else (x, m0)
  ({ x with cond := c, supp := c && sup }, m)

/-- ALM (R300). -/
def almEff (d a b : Reg) (l : LaneId) (t : ThreadId) (s : State) (c : Cpu) : Eff :=
  let n := (c.get a).val.toNat
  let rd := c.get d
  match s.alarmRec t n with
  | none => .fault 4 (c.get a).val
  | some base =>
    let w := (s.kword l (base + 5)).val
    let x := AState.of w
    if rd.tag = .bad then
      applyFx l t s {
        writes := [(base + 5, ⟨w, .bad⟩)], posts := []
        cpu := (c.set d ⟨0, .bad⟩).flags true x.active x.unack .bad, full := c }
    else
      let cfg := (s.kword l (base + 4)).val
      let ingrp := bitOf cfg 14
      match (if ingrp then (s.groupRec t (bits cfg 5 0)).map some else some none) with
      | none => .fault 4 (c.get a).val
      | some g =>
        let sup := match g with
          | none => false
          | some gb => bitOf (s.kword l (gb + 1)).val 28
        let tick := match g with
          | none => c.pair b
          | some gb => Nat.max (c.pair b) (s.kpair l (gb + 6))
        let (x', mask) := alarmStep x (bitOf rd.val 0) sup (bitOf cfg 15)
        let ws := (base + 5, ⟨x'.word, rd.tag⟩) :: (if mask % 4 ≠ 0 then put64 (base + 6) tick else [])
        let post := if mask % 16 ≠ 0 then
            [(c.stamp b, TxnBody.journal (s.alarmJrec l t ws n base (c.stamp b)))] else []
        applyFx l t s {
          writes := ws, posts := post
          cpu := (c.set d ⟨BitVec.ofNat 32 mask, rd.tag⟩).flags (decide (mask = 0)) x'.active x'.unack rd.tag
          full := c.flags true x.active x.unack rd.tag }

/-- ALM (R300). -/
def execAlm (w : Who) (d a b : Reg) (s : State) : Out := alarmInstr w 3 (isPair b) (almEff d a b) s

/-- Origins 0x6 to 0xF are taken as 0x5 (*Table: Acknowledgement origins*). -/
def origin (n : Nat) : Nat := if 6 ≤ n then 5 else n

/-- ACK (R301). -/
def ackEff (d a b : Reg) (l : LaneId) (t : ThreadId) (s : State) (c : Cpu) : Eff :=
  let n := (c.get a).val.toNat
  let rd := c.get d
  match s.alarmRec t n with
  | none => .fault 4 (c.get a).val
  | some base =>
    let w := s.kword l (base + 5)
    let x := AState.of w.val
    if rd.tag = .bad ∨ x.unack = false then
      .done s ((c.set d ⟨0, .good⟩).flags true x.active x.unack rd.tag)
    else
      let falls := x.active && !(x.cond && !x.supp)
      let x' := { x with
        unack := false, ackOrg := origin (bits rd.val 3 0), ackSrc := bits rd.val 15 8
        active := x.active && !falls }
      let mask := 8 + 2 * b2n falls
      let ws := (base + 5, ⟨x'.word, w.tag⟩) :: (if falls then put64 (base + 6) (c.pair b) else [])
      applyFx l t s {
        writes := ws
        posts := [(c.stamp b, .journal (s.alarmJrec l t ws n base (c.stamp b)))]
        cpu := (c.set d ⟨BitVec.ofNat 32 mask, .good⟩).flags false x'.active x'.unack rd.tag
        full := c.flags true x.active x.unack rd.tag }

/-- ACK (R301). -/
def execAck (w : Who) (d a b : Reg) (s : State) : Out := alarmInstr w 2 (isPair b) (ackEff d a b) s

/-! ## Groups -/

/-- GSTATE (R302). -/
structure GState where
  fvalid : Bool
  relrun : Bool
  inh : Bool
  supp : Bool
  nunack : Nat
  nact : Nat
  deriving DecidableEq, Repr

/-- GSTATE of a keep word. -/
def GState.of (w : Word) : GState :=
  ⟨bitOf w 31, bitOf w 30, bitOf w 29, bitOf w 28, bits w 26 16, bits w 10 0⟩

/-- The keep word of a GSTATE. -/
def GState.word (g : GState) : Word :=
  BitVec.ofNat 32 (2 ^ 31 * b2n g.fvalid + 2 ^ 30 * b2n g.relrun + 2 ^ 29 * b2n g.inh + 2 ^ 28 * b2n g.supp
    + 2 ^ 16 * g.nunack + g.nact)

/-- The suppression step of R303: the new GSTATE, and the new SUPTICK and RELDUE where they change. -/
def gsupStep (g : GState) (c : Bool) (s rel reldue f : Nat) : GState × Option Nat × Option Nat :=
  if c then
    if g.supp then ({ g with relrun := false, inh := true }, none, none)
    else ({ g with supp := true, relrun := false, inh := true }, some s, none)
  else
    let starts := g.supp && !g.relrun && g.inh
    let due := if starts then addTicks s (rel * ticks100ms) else reldue
    let run := g.relrun || starts
    let nd := if starts then some due else none
    if run && decide (due < f) then ({ g with supp := false, relrun := false, inh := false }, some due, nd)
    else ({ g with relrun := run, inh := false }, none, nd)

/-- GSUP (R303). -/
def gsupEff (d a b : Reg) (l : LaneId) (t : ThreadId) (s : State) (c : Cpu) : Eff :=
  let n := (c.get a).val.toNat
  let rd := c.get d
  match s.groupRec t n with
  | none => .fault 4 (c.get a).val
  | some base =>
    let g := GState.of (s.kword l (base + 1)).val
    let cond := if rd.tag = .bad then g.inh else bitOf rd.val 0
    let (g', sup, due) := gsupStep g cond (c.pair b) (bits (s.kword l base).val 31 16) (s.kpair l (base + 8))
      (s.lane l).fCur.toNat
    let ws := (base + 1, ⟨g'.word, .good⟩) ::
      ((match sup with | none => [] | some v => put64 (base + 6) v) ++
       (match due with | none => [] | some v => put64 (base + 8) v))
    let tick := BitVec.ofNat 64 (match sup with | none => 0 | some v => v)
    let post := if g'.supp ≠ g.supp then [(tick, TxnBody.journal (s.groupJrec l t ws n base tick))] else []
    applyFx l t s {
      writes := ws, posts := post
      cpu := (c.set d ⟨BitVec.ofNat 32 (b2n g'.supp), rd.tag⟩).flags (decide (g'.supp = g.supp)) g'.supp false rd.tag
      full := c.flags true g.supp false rd.tag }

/-- GSUP (R303). -/
def execGsup (w : Who) (d a b : Reg) (s : State) : Out := alarmInstr w 2 (isPair b) (gsupEff d a b) s

/-- A count changed by up and down bits, saturating at 0 and 1,024 (R304). -/
def groupCount (n up down : Nat) : Nat := Nat.min (n + up - down) 1024

/-- The write that sets the FIRST bit of an alarm whose record lies at `base`, its tag as stored (R302). -/
def State.putFirst (s : State) (l : LaneId) (base : Nat) (b : Bool) : Nat × TWord :=
  let w := s.kword l (base + 5)
  (base + 5, ⟨({ AState.of w.val with first := b }).word, w.tag⟩)

/-- FUP on a member of group g (R304): `ab` is alarm a's record, `gb` the group's. -/
def fupGroup (d : Reg) (a ab g gb : Nat) (l : LaneId) (t : ThreadId) (s : State) (c : Cpu) : Eff :=
  let rd := c.get d
  let m (i : Nat) : Bool := bitOf rd.val i
  let gs := GState.of (s.kword l (gb + 1)).val
  let first := bits (s.kword l (gb + 2)).val 9 0
  let fstamp := s.kpair l (gb + 4)
  let astamp := s.kpair l (ab + 6)
  let clear := decide (gs.nact = 0 ∧ gs.nunack = 0)
  let nact := groupCount gs.nact (b2n (m 0)) (b2n (m 1))
  let nunack := groupCount gs.nunack (b2n (m 2)) (b2n (m 3))
  let takes := m 0 && (clear || !gs.fvalid || decide (astamp < fstamp) ||
    (decide (astamp = fstamp) && decide (a < first)))
  let ends := !clear && decide (nact = 0 ∧ nunack = 0)
  let first' := if takes then a else first
  let oldRec := if takes && gs.fvalid then (s.alarmRec t first).map some else some none
  let endRec := if ends then (s.alarmRec t first').map some else some none
  match oldRec, endRec with
  | some o, some e =>
    let ev := (if takes then 4 else 0) + (if m 0 && clear then 1 else 0) + (if ends then 2 else 0)
    let gs' := { gs with
      nact := nact, nunack := nunack, fvalid := (takes || gs.fvalid) && !ends }
    let ws :=
      (match o with | none => [] | some x => [s.putFirst l x false]) ++
      (if takes then [s.putFirst l ab true] else []) ++
      (match e with | none => [] | some x => [s.putFirst l x false]) ++
      [(gb + 1, ⟨gs'.word, .good⟩)] ++
      (if takes then (gb + 2, ⟨BitVec.ofNat 32 a, .good⟩) :: put64 (gb + 4) astamp else [])
    let st := BitVec.ofNat 64 astamp
    applyFx l t s {
      writes := ws
      posts := if ev ≠ 0 then [(st, .journal (s.groupJrec l t ws g gb st))] else []
      cpu := (c.set d ⟨BitVec.ofNat 32 ev, .good⟩).flags (decide (ev = 0)) false false rd.tag
      full := c.flags true false false rd.tag }
  | _, _ => .fault 4 (BitVec.ofNat 32 first)

/-- FUP (R304): an alarm with INGRP 0 gives event 0. -/
def fupEff (d a : Reg) (l : LaneId) (t : ThreadId) (s : State) (c : Cpu) : Eff :=
  let n := (c.get a).val.toNat
  match s.alarmRec t n with
  | none => .fault 4 (c.get a).val
  | some ab =>
    let cfg := (s.kword l (ab + 4)).val
    if bitOf cfg 14 then
      match s.groupRec t (bits cfg 5 0) with
      | none => .fault 4 (c.get a).val
      | some gb => fupGroup d n ab (bits cfg 5 0) gb l t s c
    else .done s ((c.set d ⟨0, .good⟩).flags true false false (c.get d).tag)

/-- FUP (R304). -/
def execFup (w : Who) (d a : Reg) (s : State) : Out := alarmInstr w 3 true (fupEff d a) s

/-! ## Running hours and starts -/

/-- REM and SECS credited with d ticks; SECS saturates at 2^48 − 1 (R306). -/
def credit (rem secs d : Nat) : Nat × Nat :=
  ((rem + d) % 100000000, Nat.min (secs + (rem + d) / 100000000) (2 ^ 48 - 1))

/-- RUNH (R306, R308). -/
def runhEff (d a b : Reg) (l : LaneId) (t : ThreadId) (s : State) (c : Cpu) : Eff :=
  let base := (c.get a).val.toNat
  if ¬s.keepOk t (base : Int) 8 then .fault 4 (c.get a).val
  else
    let rd := c.get d
    let st := (s.kword l base).val
    let was := bitOf st 0
    let cond := if rd.tag = .bad then was else bitOf rd.val 0
    let rem := (s.kword l (base + 1)).val.toNat
    let since := s.kpair l (base + 2)
    let secs := s.kpair l (base + 4) % 2 ^ 48
    let jsecs := (s.kword l (base + 7)).val.toNat
    let f := (s.lane l).fCur.toNat
    let stamp := c.pair b
    let upTo := if was then (if cond then f else stamp) else f
    let from_ := if was then since else stamp
    let counts := (was || cond) && decide (from_ < upTo)
    let (rem', secs') := if counts then credit rem secs (upTo - from_) else (rem, secs)
    let since' := if counts then upTo else if !was && cond then stamp else since
    let posts := cond != was || decide (360 ≤ (secs' % 2 ^ 32 + 2 ^ 32 - jsecs) % 2 ^ 32) || (s.lane l).powerFail
    let ws := [(base, ⟨BitVec.ofNat 32 (2 * b2n (bitOf st 1) + b2n cond), .good⟩),
        (base + 1, ⟨BitVec.ofNat 32 rem', .good⟩)] ++ put64 (base + 2) since' ++ put64 (base + 4) secs' ++
      (if posts then [(base + 7, ⟨BitVec.ofNat 32 secs', .good⟩)] else [])
    applyFx l t s {
      writes := ws
      posts := if posts then [(c.stamp b, .journal (s.counterJrec l t ws base (c.stamp b)))] else []
      cpu := (c.set d ⟨BitVec.ofNat 32 (b2n cond), rd.tag⟩).flags (decide (cond = was)) cond false rd.tag
      full := c.flags true was false rd.tag }

/-- RUNH (R306). -/
def execRunh (w : Who) (d a b : Reg) (s : State) : Out := alarmInstr w 3 (isPair b) (runhEff d a b) s

/-- STRT (R307). -/
def strtEff (d a b : Reg) (l : LaneId) (t : ThreadId) (s : State) (c : Cpu) : Eff :=
  let base := (c.get a).val.toNat
  if ¬s.keepOk t (base : Int) 8 then .fault 4 (c.get a).val
  else
    let rd := c.get d
    let st := (s.kword l base).val
    let sin := bitOf st 1
    let cond := if rd.tag = .bad then sin else bitOf rd.val 0
    let counted := cond && !sin
    let starts := Nat.min ((s.kword l (base + 6)).val.toNat + 1) 0xFFFFFFFF
    let ws := (base, ⟨BitVec.ofNat 32 (2 * b2n cond + b2n (bitOf st 0)), .good⟩) ::
      (if counted then [(base + 6, ⟨BitVec.ofNat 32 starts, .good⟩)] else [])
    applyFx l t s {
      writes := ws
      posts := if counted then [(c.stamp b, .journal (s.counterJrec l t ws base (c.stamp b)))] else []
      cpu := (c.set d ⟨BitVec.ofNat 32 (b2n cond), rd.tag⟩).flags (!counted) false false rd.tag
      full := c.flags true false false rd.tag }

/-- STRT (R307). -/
def execStrt (w : Who) (d a b : Reg) (s : State) : Out := alarmInstr w 2 (isPair b) (strtEff d a b) s

/-! ## Engineer calls -/

/-- The engineer at roster position p, none where it is empty (R310). -/
def rosterAt (roster : Word) (p : Nat) : Option Nat :=
  let e := bits roster (4 * (p % 8) + 3) (4 * (p % 8))
  if e ≤ 7 then some e else none

/-- The set with the engineer added. -/
def addEngineer (m : Nat) : Option Nat → Nat
  | none => m
  | some e => m ||| 2 ^ e

/-- The engineers of a stage whose STAGEWHO byte is `who` (R310). -/
def engineers (roster : Word) (who duty : Nat) : Nat :=
  let m := if who % 2 = 1 then addEngineer 0 (rosterAt roster duty) else 0
  let m := if who / 2 % 2 = 1 then
      addEngineer m ((List.range 7).findSome? fun i => rosterAt roster (duty + 1 + i))
    else m
  if who / 4 % 2 = 1 then (List.range 8).foldl (fun m p => addEngineer m (rosterAt roster p)) m else m

/-- A zone's words as the call instructions read them (R310). -/
structure Zone where
  roster : Word
  who : Word
  time : Word
  last : Nat
  duty : Nat
  serial : Nat
  ansEng : Nat
  ansOrg : Nat
  called : Nat
  stage : Nat
  calling : Bool
  cause : TWord
  due : Nat
  deriving DecidableEq, Repr

/-- The zone at keep address `base`. -/
def State.zone (s : State) (l : LaneId) (base : Nat) : Zone :=
  let cfg := (s.kword l (base + 3)).val
  let st := (s.kword l (base + 4)).val
  { roster := (s.kword l base).val, who := (s.kword l (base + 1)).val, time := (s.kword l (base + 2)).val
    last := bits cfg 4 3, duty := bits cfg 2 0, serial := bits st 31 24, ansEng := bits st 23 20
    ansOrg := bits st 19 16, called := bits st 15 8, stage := bits st 2 1, calling := bitOf st 0
    cause := s.kword l (base + 5), due := s.kpair l (base + 6) }

/-- ZSTATE of a zone (R310). -/
def Zone.word (z : Zone) : Word :=
  BitVec.ofNat 32 (z.serial % 256 * 2 ^ 24 + z.ansEng * 2 ^ 20 + z.ansOrg * 2 ^ 16 + z.called * 2 ^ 8
    + 2 * z.stage + b2n z.calling)

/-- STAGEWHO's byte for stage k (R310). -/
def Zone.whoOf (z : Zone) (k : Nat) : Nat := bits z.who (8 * k + 7) (8 * k)

/-- The engineers of stage k (R310). -/
def Zone.stageEngineers (z : Zone) (k : Nat) : Nat := engineers z.roster (z.whoOf k) z.duty

/-- The time in stage k in ticks; 0 is taken as 1 (R310). -/
def Zone.stageTicks (z : Zone) (k : Nat) : Nat := Nat.max (bits z.time (8 * k + 7) (8 * k)) 1 * ticks10s

/-- A call message of the zone (R311 to R313). -/
def Zone.message (z : Zone) (n stage eng : Nat) (mark : CallMark) : TxnBody :=
  .call n (z.serial % 256) stage eng (decide (z.whoOf stage / 8 % 2 = 1)) mark z.cause

/-- What the call instructions check before they act (R293, R319): KEEP_RANGE for the number or the record, TXN for a
zone the thread does not declare. -/
def zoneInstr (a : Reg) (t : ThreadId) (s : State) (c : Cpu) (body : Nat → Nat → Eff) : Eff :=
  let n := (c.get a).val.toNat
  match s.zoneRec t n with
  | none => .fault 4 (c.get a).val
  | some base => if (s.decl t).zones.getLsbD n then body n base else .fault 7 0

/-- The zone's journal record after the writes, stamped (R312, R318). -/
def State.zonePost (s : State) (l : LaneId) (t : ThreadId) (ws : List (Nat × TWord)) (n base : Nat) (stamp : Stamp) :
    Stamp × TxnBody :=
  (stamp, .journal (s.zoneJrec l t ws n base stamp))

/-- CALL (R311). -/
def callEff (d a b : Reg) (l : LaneId) (t : ThreadId) (s : State) (c : Cpu) : Eff :=
  zoneInstr a t s c fun n base =>
    let z := s.zone l base
    let ct := tags (c.get a) (c.get b)
    if z.calling then .done s (c.flags true false false ct)
    else
      let z := { z with
        calling := true, stage := 0, serial := z.serial + 1, ansEng := 0, ansOrg := 0, cause := c.get b
        called := z.stageEngineers 0 }
      let ws := [(base + 4, ⟨z.word, .good⟩), (base + 5, c.get b)] ++
        put64 (base + 6) (addTicks (c.pair d) (z.stageTicks 0)) ++ put64 (base + 8) (c.pair d)
      applyFx l t s {
        writes := ws
        posts := [(c.stamp d, z.message n 0 (z.stageEngineers 0) .opened), s.zonePost l t ws n base (c.stamp d)]
        cpu := c.flags false false false ct
        full := c.flags true false false ct }

/-- CALL (R311). -/
def execCall (w : Who) (d a b : Reg) (s : State) : Out := alarmInstr w 3 (isPair d) (callEff d a b) s

/-- ESC (R312). -/
def escEff (d a : Reg) (l : LaneId) (t : ThreadId) (s : State) (c : Cpu) : Eff :=
  zoneInstr a t s c fun n base =>
    let z := s.zone l base
    let ct := (c.get a).tag
    let out (k : Nat) (c : Cpu) : Cpu := c.set d ⟨BitVec.ofNat 32 k, .good⟩
    let full := c.flags true false false ct
    if z.calling && decide (z.due < (s.lane l).fCur.toNat) then
      let due := BitVec.ofNat 64 z.due
      if z.stage < z.last then
        let k := z.stage + 1
        let z' := { z with stage := k, called := z.called ||| z.stageEngineers k }
        let ws := (base + 4, ⟨z'.word, .good⟩) :: put64 (base + 6) (addTicks z.due (z.stageTicks k))
        applyFx l t s {
          writes := ws
          posts := [(due, z'.message n k (z.stageEngineers k) .opened), s.zonePost l t ws n base due]
          cpu := (out k c).flags false false false ct
          full := full }
      else
        applyFx l t s {
          writes := put64 (base + 6) (addTicks z.due (z.stageTicks z.stage))
          posts := [(due, z.message n z.stage (z.stageEngineers z.stage) .repeated)]
          cpu := (out z.stage c).flags false false false ct
          full := full }
    else .done s ((out z.stage c).flags true false false ct)

/-- ESC (R312). -/
def execEsc (w : Who) (d a : Reg) (s : State) : Out := alarmInstr w 3 true (escEff d a) s

/-- The end of a call, by CANS or CEND (R312). -/
def endCall (d a : Reg) (org eng : Nat) (ct : Tag) (l : LaneId) (t : ThreadId) (s : State) (c : Cpu) : Eff :=
  zoneInstr a t s c fun n base =>
    let z := s.zone l base
    if z.calling then
      let z' := { z with calling := false, ansOrg := org, ansEng := eng }
      let ws := [(base + 4, ⟨z'.word, .good⟩)]
      applyFx l t s {
        writes := ws
        posts := [(c.stamp d, z'.message n z.stage z.called (.ended eng org)), s.zonePost l t ws n base (c.stamp d)]
        cpu := c.flags false false false ct
        full := c.flags true false false ct }
    else .done s (c.flags true false false ct)

/-- CANS: the origin word as for ACK, the engineer in bits 6 to 4 (R312). -/
def execCans (w : Who) (d a b : Reg) (s : State) : Out :=
  alarmInstr w 2 (isPair d)
    (fun l t s c =>
      let o := (c.get b).val
      endCall d a (origin (bits o 3 0)) (bits o 6 4) (tags (c.get a) (c.get b)) l t s c) s

/-- CEND (R312). -/
def execCend (w : Who) (d a : Reg) (s : State) : Out :=
  alarmInstr w 2 (isPair d) (fun l t s c => endCall d a 0 0 (c.get a).tag l t s c) s

/-! ## Transactions -/

/-- A transaction instruction that posts one transaction stamped with the RD pair (R294, R316). -/
def postOne (d a b : Reg) (l : LaneId) (t : ThreadId) (s : State) (c : Cpu) (body : TxnBody) : Eff :=
  let ct := tags (c.get a) (c.get b)
  applyFx l t s {
    writes := [], posts := [(c.stamp d, body)]
    cpu := c.flags false false false ct, full := c.flags true false false ct }

/-- OUTC (R314, R319): a BAD state is not posted. -/
def execOutc (w : Who) (d a b : Reg) (s : State) : Out :=
  alarmInstr w 1 (isPair d)
    (fun l t s c =>
      let n := (c.get a).val.toNat
      let v := c.get b
      if ¬(decide (n < 48) && (s.decl t).outputs.getLsbD n) then .fault 7 0
      else if v.tag = .bad then .done s (c.flags true false false (tags (c.get a) v))
      else postOne d a b l t s c (.output n (bitOf v.val 0) v.tag)) s

/-- The level a segment takes: on segments 0 to 7 level 1 is 0 and level 2 is 3 (R315). -/
def panelLevel (seg lv : Nat) : Nat := if seg < 8 then (if lv = 1 then 0 else if lv = 2 then 3 else lv) else lv

/-- PNLT (R315, R319). -/
def execPnlt (w : Who) (d a b : Reg) (s : State) : Out :=
  alarmInstr w 1 (isPair d)
    (fun l t s c =>
      let n := (c.get a).val.toNat
      let v := c.get b
      if ¬(decide (n < 55) && (s.decl t).segments.getLsbD n) then .fault 7 0
      else postOne d a b l t s c (.panel n (panelLevel n (bits v.val 1 0)) v.tag)) s

/-- SNXPT (R316). -/
def execSnxpt (w : Who) (d a b : Reg) (s : State) : Out :=
  alarmInstr w 2 (isPair d)
    (fun l t s c =>
      if ¬(s.decl t).snx then .fault 7 0
      else postOne d a b l t s c (.snxPoint (bits (c.get a).val 11 0) (c.get b))) s

/-- SNXAE (R316): ASTATE with its tag and ASTAMP are read from the alarm's record. -/
def execSnxae (w : Who) (d a b : Reg) (s : State) : Out :=
  alarmInstr w 2 (isPair d)
    (fun l t s c =>
      let n := (c.get a).val.toNat
      match s.alarmRec t n with
      | none => .fault 4 (c.get a).val
      | some base =>
        if ¬(s.decl t).snx then .fault 7 0
        else
          postOne d a b l t s c (.snxAlarm n (bits (c.get b).val 5 0) (s.kword l (base + 5))
            (BitVec.ofNat 64 (s.kpair l (base + 6))))) s

/-- n of a descriptor: bits 3 to 0 plus 1 (R316). -/
def descWords (v : Word) : Nat := bits v 3 0 + 1

/-- The slots of SNXM and KREC: 1 + ⌈n/4⌉ (R292). -/
def State.descSlots (s : State) (w : Who) (b : Reg) : Nat :=
  match w with
  | .lane l t => 1 + (descWords ((s.thread l t).cpu.get b).val + 3) / 4
  | .core => 1

/-- The n keep words from `a`. -/
def State.kwords (s : State) (l : LaneId) (a n : Nat) : List TWord := (List.range n).map fun i => s.kword l (a + i)

/-- SNXM (R316). -/
def execSnxm (w : Who) (d a b : Reg) (s : State) : Out :=
  alarmInstr w (s.descSlots w b) (isPair d)
    (fun l t s c =>
      let n := (c.get a).val.toNat
      let v := (c.get b).val
      if ¬(s.decl t).snx then .fault 7 0
      else if ¬s.keepOk t (n : Int) (descWords v) then .fault 4 (c.get a).val
      else postOne d a b l t s c (.snxMsg (bits v 15 8) (bits v 23 16) (s.kwords l n (descWords v)))) s

/-- KOPEN and KCLOSE post a commit marker; without room they do nothing (R317, R320). -/
def groupMark (l : LaneId) (t : ThreadId) (s : State) (c : Cpu) (acts : Bool) (g : Option OpenGroup) (b : TxnBody) :
    Eff :=
  if ¬(s.decl t).journal then .fault 7 0
  else if ¬acts then .done s (c.flags true false false .good)
  else if (s.lane l).room < 1 then .done (s.markFull l) (c.flags true false false .good)
  else
    .done (s.modLane l fun ln =>
        (ln.post t ln.fCur b).putThread t { ln.threads.getD t.val Thread.idle with group := g })
      (c.flags false false false .good)

/-- KOPEN (R317). -/
def execKopen (w : Who) (s : State) : Out :=
  alarmInstr w 1 true
    (fun l t s c => groupMark l t s c (s.thread l t).group.isNone (some ⟨0, 0, false⟩) .groupBegin) s

/-- KCLOSE (R317): a group a record of which exceeded a limit is discarded whole. -/
def execKclose (w : Who) (s : State) : Out :=
  alarmInstr w 1 true
    (fun l t s c =>
      let exceeded := match (s.thread l t).group with
        | none => false
        | some g => g.exceeded
      groupMark l t s c (s.thread l t).group.isSome none (.groupEnd exceeded)) s

/-- KREC (R318): a user record; one that would exceed its group's limits is not posted. -/
def execKrec (w : Who) (d a b : Reg) (s : State) : Out :=
  alarmInstr w (s.descSlots w b) (isPair d)
    (fun l t s c =>
      let n := (c.get a).val.toNat
      let v := (c.get b).val
      let k := descWords v
      if ¬s.keepOk t (n : Int) k then .fault 4 (c.get a).val
      else
        let ws := s.kwords l n k
        let r : JRec := ⟨0x10, 1, bits v 15 8, n, t.val, c.stamp d,
          BitVec.ofNat 32 (s.lineage + k * 2 ^ 16) :: tagsWord ws :: ws.map (·.val)⟩
        let ct := tags (c.get a) (c.get b)
        applyFx l t s {
          writes := [], posts := [(c.stamp d, .journal r)]
          cpu := c.flags (!groupFits (s.thread l t).group r) false false ct
          full := c.flags true false false ct }) s

end Sys2Proof.Machine
end

