-- ==== Sys2Proof/Machine/Alu.lean ====
section
/-! DEFINITION. Arithmetic, compare, tag and select instructions (R271, R272). -/

namespace Sys2Proof.Machine

/-- A two-operand instruction: rd := op ra rb (R271). -/
def binary (op : BinOp) (d a b : Reg) (c : Cpu) : Cpu := c.set d (op (c.get a) (c.get b))

/-- A one-operand instruction: rd := op ra (R271). -/
def unary (op : TWord → TWord) (d a : Reg) (c : Cpu) : Cpu := c.set d (op (c.get a))

/-- The immediate of format I, sign-extended, as an operand of tag GOOD (R236, R266). -/
def immS (imm : BitVec 18) : TWord := ⟨imm.signExtend 32, .good⟩

/-- The immediate of format I, zero-extended, as an operand of tag GOOD (R271). -/
def immU (imm : BitVec 18) : TWord := ⟨imm.zeroExtend 32, .good⟩

/-- Whether a shift count is coded with IMM[17:5] at 0 (R271). -/
def shiftOk (imm : BitVec 18) : Bool := decide (imm.toNat < 32)

/-- Whether a tag is coded with RB[3:2] at 0 (R272). -/
def tagOk (t : BitVec 4) : Bool := decide (t.toNat < 4)

/-- ADD (R271). -/
def execAdd (w : Who) (d a b : Reg) (s : State) : Out :=
  s.issueCpu w 1 true (binary opAdd d a b)

/-- SUB (R271). -/
def execSub (w : Who) (d a b : Reg) (s : State) : Out :=
  s.issueCpu w 1 true (binary opSub d a b)

/-- ADDU (R271). -/
def execAddu (w : Who) (d a b : Reg) (s : State) : Out :=
  s.issueCpu w 1 true (binary opAddu d a b)

/-- SUBU (R271). -/
def execSubu (w : Who) (d a b : Reg) (s : State) : Out :=
  s.issueCpu w 1 true (binary opSubu d a b)

/-- ADDW (R271). -/
def execAddw (w : Who) (d a b : Reg) (s : State) : Out :=
  s.issueCpu w 1 true (binary opAddw d a b)

/-- SUBW (R271). -/
def execSubw (w : Who) (d a b : Reg) (s : State) : Out :=
  s.issueCpu w 1 true (binary opSubw d a b)

/-- AND (R271). -/
def execAnd (w : Who) (d a b : Reg) (s : State) : Out :=
  s.issueCpu w 1 true (binary opAnd d a b)

/-- OR (R271). -/
def execOr (w : Who) (d a b : Reg) (s : State) : Out :=
  s.issueCpu w 1 true (binary opOr d a b)

/-- XOR (R271). -/
def execXor (w : Who) (d a b : Reg) (s : State) : Out :=
  s.issueCpu w 1 true (binary opXor d a b)

/-- SHL (R271). -/
def execShl (w : Who) (d a b : Reg) (s : State) : Out :=
  s.issueCpu w 1 true (binary opShl d a b)

/-- SHR (R271). -/
def execShr (w : Who) (d a b : Reg) (s : State) : Out :=
  s.issueCpu w 1 true (binary opShr d a b)

/-- SAR (R271). -/
def execSar (w : Who) (d a b : Reg) (s : State) : Out :=
  s.issueCpu w 1 true (binary opSar d a b)

/-- MIN (R271). -/
def execMin (w : Who) (d a b : Reg) (s : State) : Out :=
  s.issueCpu w 1 true (binary opMin d a b)

/-- MAX (R271). -/
def execMax (w : Who) (d a b : Reg) (s : State) : Out :=
  s.issueCpu w 1 true (binary opMax d a b)

/-- MINU (R271). -/
def execMinu (w : Who) (d a b : Reg) (s : State) : Out :=
  s.issueCpu w 1 true (binary opMinu d a b)

/-- MAXU (R271). -/
def execMaxu (w : Who) (d a b : Reg) (s : State) : Out :=
  s.issueCpu w 1 true (binary opMaxu d a b)

/-- MUL (R271). -/
def execMul (w : Who) (d a b : Reg) (s : State) : Out :=
  s.issueCpu w 1 true (binary opMul d a b)

/-- MULH (R271). -/
def execMulh (w : Who) (d a b : Reg) (s : State) : Out :=
  s.issueCpu w 1 true (binary opMulh d a b)

/-- MULQ (R271). -/
def execMulq (w : Who) (d a b : Reg) (s : State) : Out :=
  s.issueCpu w 1 true (binary opMulq d a b)

/-- DIV (R271). -/
def execDiv (w : Who) (d a b : Reg) (s : State) : Out :=
  s.issueCpu w 4 true (binary opDiv d a b)

/-- DIVU (R271). -/
def execDivu (w : Who) (d a b : Reg) (s : State) : Out :=
  s.issueCpu w 4 true (binary opDivu d a b)

/-- REM (R271). -/
def execRem (w : Who) (d a b : Reg) (s : State) : Out :=
  s.issueCpu w 4 true (binary opRem d a b)

/-- DIVQ (R271). -/
def execDivq (w : Who) (d a b : Reg) (s : State) : Out :=
  s.issueCpu w 4 true (binary opDivq d a b)

/-- ABS (R271). -/
def execAbs (w : Who) (d a : Reg) (s : State) : Out :=
  s.issueCpu w 1 true (unary opAbs d a)

/-- NEG (R271). -/
def execNeg (w : Who) (d a : Reg) (s : State) : Out :=
  s.issueCpu w 1 true (unary opNeg d a)

/-- QFI (R271). -/
def execQfi (w : Who) (d a : Reg) (s : State) : Out :=
  s.issueCpu w 1 true (unary opQfi d a)

/-- QTI (R271). -/
def execQti (w : Who) (d a : Reg) (s : State) : Out :=
  s.issueCpu w 1 true (unary opQti d a)

/-- LAG: the old rd is an operand too (R271). -/
def execLag (w : Who) (d a b : Reg) (s : State) : Out :=
  s.issueCpu w 1 true fun c => c.set d (opLag (c.get d) (c.get a) (c.get b))

/-- ADDI (R271). -/
def execAddi (w : Who) (d a : Reg) (imm : BitVec 18) (s : State) : Out :=
  s.issueCpu w 1 true fun c => c.set d (opAdd (c.get a) (immS imm))

/-- ADDWI (R271). -/
def execAddwi (w : Who) (d a : Reg) (imm : BitVec 18) (s : State) : Out :=
  s.issueCpu w 1 true fun c => c.set d (opAddw (c.get a) (immS imm))

/-- ANDI (R271). -/
def execAndi (w : Who) (d a : Reg) (imm : BitVec 18) (s : State) : Out :=
  s.issueCpu w 1 true fun c => c.set d (opAnd (c.get a) (immU imm))

/-- ORI (R271). -/
def execOri (w : Who) (d a : Reg) (imm : BitVec 18) (s : State) : Out :=
  s.issueCpu w 1 true fun c => c.set d (opOr (c.get a) (immU imm))

/-- XORI (R271). -/
def execXori (w : Who) (d a : Reg) (imm : BitVec 18) (s : State) : Out :=
  s.issueCpu w 1 true fun c => c.set d (opXor (c.get a) (immU imm))

/-- SHLI (R271). -/
def execShli (w : Who) (d a : Reg) (imm : BitVec 18) (s : State) : Out :=
  s.issueCpu w 1 (shiftOk imm) fun c => c.set d (opShl (c.get a) (immU imm))

/-- SHRI (R271). -/
def execShri (w : Who) (d a : Reg) (imm : BitVec 18) (s : State) : Out :=
  s.issueCpu w 1 (shiftOk imm) fun c => c.set d (opShr (c.get a) (immU imm))

/-- SARI (R271). -/
def execSari (w : Who) (d a : Reg) (imm : BitVec 18) (s : State) : Out :=
  s.issueCpu w 1 (shiftOk imm) fun c => c.set d (opSar (c.get a) (immU imm))

/-- LUI: IMM shifted left 10, tag GOOD (R271). -/
def execLui (w : Who) (d : Reg) (imm : BitVec 22) (s : State) : Out :=
  s.issueCpu w 1 true fun c => c.set d ⟨imm.zeroExtend 32 <<< 10, .good⟩

/-- CMP (R272). -/
def execCmp (w : Who) (a b : Reg) (s : State) : Out :=
  s.issueCpu w 1 true fun c => c.compare (c.get a) (c.get b)

/-- CMPI (R272). -/
def execCmpi (w : Who) (a : Reg) (imm : BitVec 18) (s : State) : Out :=
  s.issueCpu w 1 true fun c => c.compare (c.get a) (immS imm)

/-- TAT: Z tells whether the tag of ra is t or worse (R272). -/
def execTat (w : Who) (a : Reg) (t : BitVec 4) (s : State) : Out :=
  s.issueCpu w 1 (tagOk t) fun c => c.flags (decide (t.toNat ≤ (c.get a).tag.code)) false false .good

/-- GTAG: the code of the tag of ra, GOOD (R272). -/
def execGtag (w : Who) (d a : Reg) (s : State) : Out :=
  s.issueCpu w 1 true fun c => c.set d ⟨BitVec.ofNat 32 (c.get a).tag.code, .good⟩

/-- STAG: the value of ra with tag t (R272). -/
def execStag (w : Who) (d a : Reg) (t : BitVec 4) (s : State) : Out :=
  s.issueCpu w 1 (tagOk t) fun c => c.set d ⟨(c.get a).val, Tag.ofCode t.toNat⟩

/-- WTAG: the value of ra with the worse tag of ra and rb (R272). -/
def execWtag (w : Who) (d a b : Reg) (s : State) : Out :=
  s.issueCpu w 1 true fun c => c.set d ⟨(c.get a).val, tags (c.get a) (c.get b)⟩

/-- WTAGI: the value of ra with the worse of its tag and t (R272). -/
def execWtagi (w : Who) (d a : Reg) (t : BitVec 4) (s : State) : Out :=
  s.issueCpu w 1 (tagOk t) fun c => c.set d ⟨(c.get a).val, (c.get a).tag.worst (Tag.ofCode t.toNat)⟩

/-- CTAG: the value of ra with the worse of its tag and CT (R272). -/
def execCtag (w : Who) (d a : Reg) (s : State) : Out :=
  s.issueCpu w 1 true fun c => c.set d ⟨(c.get a).val, (c.get a).tag.worst c.ct⟩

/-- SEL: ra where the condition holds, else rb, with the worse of its tag and CT (R272). -/
def execSel (w : Who) (d a b : Reg) (cond : BitVec 4) (s : State) : Out :=
  s.issueCpu w 1 (condOk cond) fun c =>
    let v := if c.holds cond then c.get a else c.get b
    c.set d ⟨v.val, v.tag.worst c.ct⟩

end Sys2Proof.Machine
end

