-- ==== Sys2Proof/Bytes.lean ====
section
/-! DEFINITION. Bytes in little-endian order and the checksums of the journal, the recorder and the images. -/

namespace Sys2Proof

/-- The low k bytes of n, lowest first. -/
def le : Nat → Nat → List Byte
  | 0, _ => []
  | k + 1, n => BitVec.ofNat 8 n :: le k (n / 256)

/-- The number of a list of bytes, lowest first. -/
def leNat : List Byte → Nat
  | [] => 0
  | b :: bs => b.toNat + 256 * leNat bs

/-- n bytes from offset i of a list, those beyond its end 0. -/
def slice (bs : List Byte) (i n : Nat) : List Byte := (List.range n).map fun j => bs.getD (i + j) 0

/-- The little-endian number of n bytes at offset i. -/
def leAt (bs : List Byte) (i n : Nat) : Nat := leNat (slice bs i n)

/-- The big-endian number of a list of bytes. -/
def beNat (bs : List Byte) : Nat := bs.foldl (fun n b => n * 256 + b.toNat) 0

/-- The low k bytes of n, highest first. -/
def be (k n : Nat) : List Byte := (le k n).reverse

/-- The big-endian number of n bytes at offset i. -/
def beAt (bs : List Byte) (i n : Nat) : Nat := beNat (slice bs i n)

/-- A word's bytes, lowest first. -/
def wordBytes (w : Word) : List Byte := le 4 w.toNat

/-- Words from bytes, four at a time; a last part of fewer is filled with 0. -/
def bytesWords (bs : List Byte) : List Word :=
  (List.range ((bs.length + 3) / 4)).map fun j => BitVec.ofNat 32 (leAt bs (4 * j) 4)

/-- One bit step of CRC-32C, reflected (R406). -/
def crcBit (r : BitVec 32) : BitVec 32 := if r.getLsbD 0 then (r >>> 1) ^^^ 0x82F63B78#32 else r >>> 1

/-- One byte of CRC-32C. -/
def crcByte (r : BitVec 32) (b : Byte) : BitVec 32 :=
  (List.range 8).foldl (fun r _ => crcBit r) (r ^^^ b.zeroExtend 32)

/-- CRC-32C (R406). -/
def crc32c (bs : List Byte) : BitVec 32 := ~~~(bs.foldl crcByte 0xFFFFFFFF#32)

/-- A list filled up to a multiple of k with `x`. -/
def padTo (k : Nat) (x : Byte) (bs : List Byte) : List Byte := bs ++ List.replicate ((k - bs.length % k) % k) x

end Sys2Proof
end

