-- ==== Sys2Proof/Machine/Flash.lean ====
section
/-! DEFINITION. The embedded flash: 128 segments of 64 KiB in words of 16 bytes, as the factory leaves it, programmed
and erased (R400 to R402). -/

namespace Sys2Proof.Machine

/-- A flash word from its bytes, lowest first. -/
def wordOf (bs : List Byte) : BitVec 128 := BitVec.ofNat 128 (leNat bs)

/-- An erased word (R400). -/
def erasedWord : BitVec 128 := BitVec.ofNat 128 (2 ^ 128 - 1)

/-- PART code of segment s (*Table: Flash partitions*). -/
def partOf (seg : Nat) : Nat := if seg < 64 then 1 else if seg < 80 then 2 else if seg < 112 then 3 else 4

/-- The erase header of segment s after `n` erasures (*Table: Erase header*). -/
def eraseHeader (seg n : Nat) : List Byte :=
  let h : List Byte := [0x4A#8, 0x53#8, 0x45#8, 0x47#8, 0x01#8] ++ le 1 (partOf seg) ++ le 1 seg ++ [0x00#8] ++ le 4 n
  h ++ wordBytes (crc32c h)

/-- What word k of the flash holds as the part leaves the factory: erased, with an erase header of ERASES 1 in each
segment (R402). -/
def factoryWord (k : Nat) : BitVec 128 := if k % 4096 = 0 then wordOf (eraseHeader (k / 4096) 1) else erasedWord

/-- Word k of the flash. -/
def State.flashWord (s : State) (k : Nat) : BitVec 128 := sget (factoryWord k) s.flash k

/-- Word k of the flash set. -/
def State.setFlash (s : State) (k : Nat) (w : BitVec 128) : State :=
  { s with flash := sput (factoryWord k) s.flash k w }

/-- Word k programmed: only an erased word takes it (R400). -/
def State.program (s : State) (k : Nat) (w : BitVec 128) : State :=
  if s.flashWord k = erasedWord then s.setFlash k w else s

/-- The 16 bytes of word k, lowest first. -/
def State.flashWordBytes (s : State) (k : Nat) : List Byte := le 16 (s.flashWord k).toNat

/-- n bytes of the flash from a word boundary, word k. -/
def State.flashBytes (s : State) (k n : Nat) : List Byte :=
  ((List.range ((n + 15) / 16)).flatMap fun i => s.flashWordBytes (k + i)).take n

/-- The 32-bit word j of the flash from flash word k, little-endian. -/
def State.flash32 (s : State) (k j : Nat) : Word :=
  BitVec.ofNat 32 ((s.flashWord (k + j / 4)).toNat / 2 ^ (32 * (j % 4)))

/-- Bytes programmed from word k on, filled with 0 to a word boundary. -/
def State.programBytes (s : State) (k : Nat) (bs : List Byte) : State :=
  (List.range ((bs.length + 15) / 16)).foldl (fun s i => s.program (k + i) (wordOf (slice bs (16 * i) 16))) s

/-- Whether the erase header of the segment is valid (R403). -/
def State.headerOk (s : State) (seg : Nat) : Bool :=
  let h := s.flashWordBytes (seg * 4096)
  (h.take 5 == [0x4A#8, 0x53#8, 0x45#8, 0x47#8, 0x01#8]) && decide (leAt h 5 1 = partOf seg)
    && decide (leAt h 12 4 = (crc32c (h.take 12)).toNat)

/-- ERASES of a segment's header, 0 where it is not valid. -/
def State.erases (s : State) (seg : Nat) : Nat :=
  if s.headerOk seg then leAt (s.flashWordBytes (seg * 4096)) 8 4 else 0

/-- The segments of a partition (*Table: Flash partitions*). -/
def segmentsOf (seg : Nat) : List Nat :=
  (List.range 128).filter fun k =>
    if seg < 64 then k < 64
    else if seg < 80 then 64 ≤ k && k < 80
    else if seg < 96 then 80 ≤ k && k < 96
    else if seg < 112 then 96 ≤ k && k < 112
    else if seg < 120 then 112 ≤ k && k < 120
    else 120 ≤ k

/-- ERASES of the header the next erasure of the segment writes: one more than its previous count, or than the highest
of its partition where that header cannot be read (R402). -/
def State.nextErases (s : State) (seg : Nat) : Nat :=
  1 + (if s.headerOk seg then s.erases seg else (segmentsOf seg).foldl (fun n k => Nat.max n (s.erases k)) 0)

/-- JNL_SEG of a segment: its PART and ERASES, with STATE as given (R402, R433). -/
def State.showSeg (s : State) (seg : Nat) (state : Nat) : State :=
  ((s.setFld (A.jnlSeg seg) F.jnlSeg_state state).setFld (A.jnlSeg seg) F.jnlSeg_part (partOf seg)).setFld
    (A.jnlSeg seg) F.jnlSeg_erases (s.erases seg)

/-- A segment's STATE after an erasure: FREE in the journal partition, else not journal (R433). -/
def freeState (seg : Nat) : Nat := if seg < 64 then 1 else 7

/-- The segment erased, with its erase header written (R402). -/
def State.eraseSegment (s : State) (seg : Nat) : State :=
  let n := s.nextErases seg
  let t := { s with flash := s.flash.filter fun x => x.1 / 4096 != seg }
  (t.setFlash (seg * 4096) (wordOf (eraseHeader seg n))).showSeg seg (freeState seg)

end Sys2Proof.Machine
end

