-- ==== Sys2Proof/Machine/View.lean ====
section
/-! DEFINITION. What a read of a register returns: which registers are present for which master, and the registers that
show state held outside the register file (R44 to R47). A view changes nothing. -/

namespace Sys2Proof.Machine

/-- ID_VARIANT.TERMS, PANEL and CANFD (R4). -/
def variantTerms : Fld := ⟨7, 0⟩
def variantPanel : Fld := ⟨8, 8⟩
def variantCan : Fld := ⟨9, 9⟩

/-- Terminals present (R3). -/
def State.terms (s : State) : Nat := s.fld A.idVariant variantTerms

/-! ## The real-time clock's time -/

/-- Ticks of TBC in one second (R25). -/
def second : Nat := 100000000

/-- SUBSEC now: the 1/256 s of TBC passed since the second began while the oscillator runs (R454, DEDUCED, assumption 60). -/
def State.subsecNow (s : State) : Nat :=
  if s.bit A.rtcFlags F.rtcFlags_oscok then
    Nat.min 255 ((s.tbc - s.rtc.secondAt).toNat * 256 / second)
  else s.fld A.rtcSubsec F.rtcSubsec_subsec

/-- The time of the domain (R454). -/
def State.rtcNow (s : State) : RtcTime :=
  ⟨s.subsecNow, s.fld A.rtcSec F.rtcSec_sec, s.fld A.rtcMin F.rtcMin_min, s.fld A.rtcHour F.rtcHour_hour,
    s.fld A.rtcDate F.rtcDate_date, s.fld A.rtcMonth F.rtcMonth_month, s.fld A.rtcYear F.rtcYear_year⟩

/-- Field i of a time: 0 SUBSEC to 6 YEAR, in the order of their registers. -/
def RtcTime.field (t : RtcTime) : Nat → Nat
  | 0 => t.subsec
  | 1 => t.sec
  | 2 => t.min
  | 3 => t.hour
  | 4 => t.date
  | 5 => t.month
  | _ => t.year

/-- Master m's frozen shadows (R459). -/
def State.shadowOf (s : State) (m : Nat) : Option RtcTime :=
  match s.rtc.shadows.find? fun x => x.1 == m with
  | none => none
  | some x => some x.2.1

/-- Master m's staged fields (R461). -/
def State.rtcStagedOf (s : State) (m : Nat) : List (Nat × Nat) :=
  match s.rtc.staged.find? fun x => x.1 == m with
  | none => []
  | some x => x.2

/-! ## The event recorder's window -/

/-- First flash word of ring position p of LAST (R443). -/
def lastWord (p : Nat) : Nat := (65 + p / 511) * 4096 + (1 + p % 511) * 8

/-- First flash word of slot p of FIRST (R443). -/
def firstWord (p : Nat) : Nat := 64 * 4096 + (1 + p) * 8

/-- The flash word and SEQ of the record in slot `slot` of an area, where it holds one that is presented (R441). -/
def State.evrSlot (s : State) (first : Bool) (slot : Nat) : Option (Nat × Nat) :=
  if first then
    match s.evr.first.find? fun x => x.1 == slot with
    | none => none
    | some x => some (firstWord x.1, x.2)
  else
    match s.evr.last.find? fun x => x.1 % 4096 == slot with
    | none => none
    | some x => some (lastWord x.2, x.1)

/-- The slot master m's cursor names (R446). -/
def State.evrHere (s : State) (m : Nat) : Option (Nat × Nat) :=
  let c := s.reg (bank m A.evrCursor)
  s.evrSlot (decide (F.evrCursor_area.get c = 1)) (F.evrCursor_slot.get c)

/-- REPEAT and last-repeat stamp that the slot at flash word k holds; erased where the record was never repeated. -/
def State.flashRepeat (s : State) (k : Nat) : Nat × Nat :=
  if s.flashWord (k + 7) = erasedWord then (0, 0)
  else (leAt (s.flashWordBytes (k + 7)) 0 2, leAt (s.flashWordBytes (k + 7)) 4 8)

/-- REPEAT and last-repeat stamp of the record at flash word k with SEQ q, from the recorder's RAM while they are held
there; FIRST keeps REPEAT 0 (R441, R443). -/
def State.evrRepeat (s : State) (k q : Nat) : Nat × Nat :=
  if k < 65 * 4096 then (0, 0)
  else
    match s.evr.newest with
    | some n => if n.seq = q then (n.repeats, n.lastRepeat.toNat) else s.flashRepeat k
    | none => s.flashRepeat k

/-- Word j of the window of master m (R446). -/
def State.evrWord (s : State) (m j : Nat) : Word :=
  match s.evrHere m with
  | none => 0
  | some (k, q) =>
    let w := s.flash32 k j
    if j = 1 then BitVec.ofNat 32 (w.toNat / 65536 * 65536 + (s.evrRepeat k q).1) else w

/-! ## The fault log -/

/-- Word j of an error's entry (*Table: Error entry*). -/
def ErrRec.word (e : ErrRec) : Nat → Word
  | 0 => BitVec.ofNat 32 ((faultSource e.src).1 * 65536 + e.inst % 65536)
  | 1 => BitVec.ofNat 32 (e.cls * 2 ^ 30 + e.access * 2 ^ 28 + e.master * 2 ^ 24)
  | 2 => e.addr
  | 3 => e.stamp.truncate 32
  | _ => (e.stamp >>> 32).truncate 32

/-- The log entry master m's AGE selects, with its sequence number (R566). -/
def State.logHere (s : State) (m : Nat) : Option (Nat × ErrRec) :=
  s.flt.log[F.fltLogsel_age.get (s.reg (bank m A.fltLogsel))]?

/-- Resets of class RESET within the last 600 s of operating time (R562). -/
def State.recentResets (s : State) : Nat :=
  (s.flt.resets.filter fun t => s.pair A.mgsOpsecsLo ≤ t + 600).length

/-! ## Lanes -/

/-- Entries a fixed ring shows of those still to be taken: up to 32, whole records only (R249). -/
def shownEntries (q : List FixedEntry) : Nat :=
  let whole (i : Nat) : Bool := match q[i]? with
    | some e => e.head
    | none => i == q.length
  (List.range 33).foldl (fun m i => if whole i then i else m) 0

/-- Word `off` of a lane's window that shows lane state rather than a register (R261). -/
def State.laneWord (s : State) (l : LaneId) (off : Nat) : Option Word :=
  let ln := s.lane l
  if off = 0x44 then some (BitVec.ofNat 32 s.tcmds.length)
  else if off < 0x400 then none
  else if off < 0x800 then
    let t := ln.threads.getD ((off - 0x400) / 8) Thread.idle
    if off % 8 = 0 then some (BitVec.ofNat 32 (t.st.code * 2 ^ 29 + t.fcode % 32 * 2 ^ 24 + t.usedLast % 2 ^ 24))
    else some (BitVec.ofNat 32 (t.overruns % 256 * 65536 + t.lastPc % 65536))
  else if off < 0xC00 then
    match s.image with
    | none => some 0
    | some im =>
      match im.threads[(off - 0x800) / 4]? with
      | none => some 0
      | some e => some (BitVec.ofNat 32 (e.budget % 2 ^ 24 + if e.stop then 2 ^ 24 else 0))
  else if off < 0x10000 then
    let r := (off - 0xC00) / 4
    let n := if r < 96 then (ln.rings.getD r []).length else shownEntries (ln.fixed.getD (r - 96) [])
    some (BitVec.ofNat 32 (n * 65536 + Nat.min (ln.drops.getD r 0) 65535))
  else if off < 0x20000 then
    let j := (off - 0x10000) / 4
    some (BitVec.ofNat 32 ((List.range 16).foldl
      (fun n i => n + (sget TWord.zero ln.keep (16 * j + i)).tag.code * 4 ^ i) 0))
  else some (sget TWord.zero ln.keep ((off - 0x20000) / 4)).val

/-! ## Presence -/

/-- Whether the block, instance or register set at address `a` is present on the variant (R6). -/
def State.presentAt (s : State) (a : Nat) : Bool :=
  let n :=
    if 0x00100000 ≤ a ∧ a < 0x00103000 then (a - 0x00100000) / 0x100
    else if A.muxTopt 0 ≤ a ∧ a < A.muxTopt 48 then (a - A.muxTopt 0) / 4
    else if A.muxRlead 0 ≤ a ∧ a < A.muxRlead 48 then (a - A.muxRlead 0) / 4
    else if A.svcTv 0 ≤ a ∧ a < A.svcTv 48 then (a - A.svcTv 0) / 4
    else if A.svcIloop 0 ≤ a ∧ a < A.svcIloop 48 then (a - A.svcIloop 0) / 4
    else if A.hrtLcfg 0 ≤ a ∧ a < A.hrtLcfg 48 then (a - A.hrtLcfg 0) / 0x20
    else if A.outCfg 0 ≤ a ∧ a < A.outCfg 48 then (a - A.outCfg 0) / 0x10
    else if A.mgsTsw 0 ≤ a ∧ a < A.mgsTsw 48 then (a - A.mgsTsw 0) / 4
    else 0
  decide (n < s.terms)
    && (decide (a < 0x00400000 ∨ 0x00410000 ≤ a) || s.bit A.idVariant variantPanel)
    && (decide (a < A.netCcfg 0 ∨ A.netAcfg 0 ≤ a) || s.bit A.idVariant variantCan)

/-- Whether the register at `a` is one of the recorder's cursor and window (R446). -/
def evrWindowed (a : Nat) : Bool :=
  decide (A.evrCursor ≤ a ∧ a ≤ A.evrWrptHi) || decide (A.evrWin 0 ≤ a ∧ a < A.evrWin 24)

/-- Whether master m may read the register at `a` (R45); 0 stands for a capture port, which is no master (R438). -/
def State.readable (s : State) (m a : Nat) : Bool :=
  decide (a % 4 = 0) && (rowOf a).isSome && s.presentAt a
    && (!evrWindowed a || (decide (4 ≤ m) && decide (m ≤ 6)))
    && (!decide (0x00040000 ≤ a ∧ a < 0x00050000) || s.bit A.rtcGate F.rtcGate_open || a == A.rtcBlkId || a == A.rtcGate)

/-- The registers of which each master has its own (R435, R446, R566). -/
def perMaster (a : Nat) : Bool :=
  (a == A.evrCursor) || (a == A.fltLogsel) || (decide (A.jnlWhdr ≤ a ∧ a < A.jnlFaddr))

/-- What a read of the register at `a` by master m returns, apart from its side effects (R44, R47, R48). -/
def State.view (s : State) (m a : Nat) : Word :=
  if a = A.tmbTbcLo then s.tbc.truncate 32
  else if a = A.tmbTbcHi then (s.tbc >>> 32).truncate 32
  else if A.rtcSubsec ≤ a ∧ a ≤ A.rtcYear then
    BitVec.ofNat 32 (((s.shadowOf m).getD s.rtcNow).field ((a - A.rtcSubsec) / 4))
  else if a = A.rtcStage then
    BitVec.ofNat 32 ((if (s.shadowOf m).isSome then 256 else 0)
      + (s.rtcStagedOf m).foldl (fun n x => n + 2 ^ x.1) 0)
  else if a = A.fltRescnt then F.fltRescnt_window.set (s.reg a) s.recentResets
  else if a = A.fltLseq then
    match s.logHere m with
    | none => 0
    | some x => BitVec.ofNat 32 x.1
  else if A.fltLe 0 ≤ a ∧ a < A.fltLe 5 then
    match s.logHere m with
    | none => 0
    | some x => x.2.word ((a - A.fltLe 0) / 4)
  else if a = A.evrWseq ∨ a = A.evrWend then
    match s.evrHere m with
    | none => 0
    | some x => BitVec.ofNat 32 x.2
  else if a = A.evrWrptLo ∨ a = A.evrWrptHi then
    match s.evrHere m with
    | none => 0
    | some (k, q) =>
      let t := (s.evrRepeat k q).2
      BitVec.ofNat 32 (if a = A.evrWrptLo then t else t / 2 ^ 32)
  else if A.evrWin 0 ≤ a ∧ a < A.evrWin 24 then s.evrWord m ((a - A.evrWin 0) / 4)
  else if A.svcIloop 0 ≤ a ∧ a < A.svcIloop 48 then
    if s.fld (A.trmState ((a - A.svcIloop 0) / 4)) F.trmState_modeact = 4 then s.reg a else 0
  else if perMaster a then s.reg (bank m a)
  else if 0x00200000 ≤ a ∧ a < 0x002C0000 then
    match s.laneWord (Fin.ofNat 3 ((a - 0x00200000) / 0x40000)) (a % 0x40000) with
    | some w => w
    | none => s.reg (canon a)
  else s.reg (canon a)

end Sys2Proof.Machine
end

