-- ==== Sys2Proof/Machine/Recorder.lean ====
section
/-! DEFINITION. Event recorder: triggers, snapshots, the queue and merging (R436 to R442). -/

namespace Sys2Proof.Machine

/-- The state with the recorder changed. -/
def State.modEvr (s : State) (g : EvrSt → EvrSt) : State := { s with evr := g s.evr }

/-! ## Calendar time of the snapshot port (R440, R460) -/

/-- Whether a year, counted from 2000, is a leap year (R454). -/
def leapYear (y : Nat) : Bool := decide (y % 4 = 0)

/-- Days of month m, 1 to 12, of a year (R454). -/
def monthDays (y m : Nat) : Nat :=
  if m = 2 then (if leapYear y then 29 else 28)
  else if m = 4 ∨ m = 6 ∨ m = 9 ∨ m = 11 then 30
  else 31

/-- Seconds from 2000-01-01 00:00:00 to a time (*Table: Event record*). -/
def RtcTime.seconds (t : RtcTime) : Nat :=
  let days := 365 * t.year + (t.year + 3) / 4
    + (List.range (t.month - 1)).foldl (fun n i => n + monthDays t.year (i + 1)) 0 + (t.date - 1)
  ((days * 24 + t.hour) * 60 + t.min) * 60 + t.sec

/-- Whether a direct read of the time is possible and valid: the gate is open and OSF is 0 (R460). -/
def State.rtcValid (s : State) : Bool := s.bit A.rtcGate F.rtcGate_open && !s.bit A.rtcFlags F.rtcFlags_osf

/-- The recorder's time in 1/256 s since 2000: read directly, or the last directly read time advanced by the ticks since
that read, or 0 (R440). -/
def State.snapTime (s : State) : Nat :=
  if s.rtcValid then s.rtcNow.seconds * 256 + s.rtcNow.subsec
  else
    match s.evr.lastRead with
    | none => 0
    | some (t, at_) => t + (s.tbc - at_).toNat * 256 / second

/-! ## Captures (R438) -/

/-- One capture: its word, and whether it failed. -/
def State.capture (s : State) (entry : Word) : Word × Bool :=
  let a := F.evrList_addr.get entry
  if F.evrList_type.get entry = 1 then
    if s.readable 0 a then (s.view 0 a, false) else (0, true)
  else
    match s.field.points.find? fun x => x.1 == a % 512 with
    | none => (0, true)
    | some x =>
      match x.2.last with
      | none => (0, true)
      | some (v, _) =>
        if F.evrList_type.get entry = 2 then (v.val, false)
        else (BitVec.ofNat 32 (v.tag.code + 16 * x.2.status), false)

/-- The entries of a capture list up to its first entry of TYPE 00. -/
def State.captureList (s : State) (l : Nat) : List Word :=
  ((List.range 16).map fun i => s.reg (A.evrList l i)).takeWhile fun w => F.evrList_type.get w ≠ 0

/-! ## Matching (R436, R437) -/

/-- Whether trigger n matches an event of `kind` and `detail`, of class `cls` for KIND FAULT. -/
def State.trigMatches (s : State) (kind detail cls n : Nat) : Bool :=
  let a := A.evrTrg n
  s.bit a F.evrTrg_en && decide (s.fld a F.evrTrg_kind = kind)
    && decide (detail &&& s.fld (A.evrTmatch n) F.evrTmatch_mask = s.fld (A.evrTmatch n) F.evrTmatch_value)
    && (decide (kind ≠ 1) || decide (s.fld a F.evrTrg_minclass ≤ cls))

/-- An entry with its snapshot, from the words of a capture list. -/
def State.evrEntry (s : State) (trig list kind detail : Nat) (entries : List Word) (stamp : Stamp) : EvrEntry :=
  let caps := entries.map s.capture
  let t := s.snapTime
  { stamp, trig, list, kind, detail
    caps := caps.map Prod.fst
    caperr := ((List.range caps.length).filter fun i => (caps.getD i (0, false)).2).foldl (fun n i => n + 2 ^ i) 0
    rtcsec := t / 256
    subsec := t % 256
    rtcValid := s.rtcValid
    lbv := s.bit A.rtcFlags F.rtcFlags_lbv
    osf := s.bit A.rtcFlags F.rtcFlags_osf
    opsecs := s.pair A.mgsOpsecsLo
    cycles := s.reg A.mgsCycles }

/-- The recorder remembers the time it has read directly (R440). -/
def State.noteTime (s : State) : State :=
  if s.rtcValid then
    let t := s.snapTime
    s.modEvr fun e => { e with lastRead := some (t, s.tbc) }
  else s

/-- EVR_STATE.QUEUED follows the queue. -/
def State.countQueued (s : State) : State := s.setFld A.evrState F.evrState_queued s.evr.queue.length

/-- An entry put in its place of the queue, by stamp (R26, R437). -/
def evrInsert (e : EvrEntry) : List EvrEntry → List EvrEntry
  | [] => [e]
  | x :: t => if e.stamp.toNat < x.stamp.toNat then e :: x :: t else x :: evrInsert e t

/-- Whether an event merges into the newest record in LAST (R442). -/
def State.evrMerges (s : State) (n : EvrNewest) (trig kind detail : Nat) (stamp : Stamp) : Bool :=
  let w := s.fld A.evrCtrl F.evrCtrl_rptwindow
  let since := if n.repeats = 0 then n.stamp else n.lastRepeat
  decide (n.trig = trig) && decide (n.detail = detail) && decide (w ≠ 0)
    && decide (stamp.toNat ≤ since.toNat + w * second) && decide (n.repeats < 0xFFFF)
    && decide (kind ≠ 3) && decide (kind ≠ 15)

/-- The repeat word of a slot (*Table: Recorder slot*). -/
def repeatBytes (n : EvrNewest) : List Byte :=
  let b := le 2 n.repeats ++ le 2 0 ++ le 8 n.lastRepeat.toNat
  b ++ wordBytes (crc32c b)

/-- The newest record's repeat word is programmed, where it was repeated (R443). -/
def State.keepRepeat (s : State) : State :=
  match s.evr.newest with
  | none => s
  | some n =>
    match s.evr.last.find? fun x => x.1 == n.seq with
    | none => s
    | some x => if n.repeats = 0 then s else s.program (lastWord x.2 + 7) (wordOf (repeatBytes n))

/-- A matched event merges into the newest record in LAST, or enters the queue, or is dropped where the queue is full
(R437, R442). -/
def State.evrTake (s : State) (trig list kind detail : Nat) (entries : List Word) (stamp : Stamp) : State :=
  let new (s : State) : State :=
    if 32 ≤ s.evr.queue.length then
      ((s.satInc A.evrDrops F.evrDrops_drops).event A.evrStatus F.evrStatus_dropped).modEvr
        fun e => { e with lost := true }
    else
      let x := s.evrEntry trig list kind detail entries stamp
      let s := (s.noteTime.modEvr fun e => { e with queue := evrInsert x e.queue }).countQueued
      if x.caperr = 0 then s else s.event A.evrStatus F.evrStatus_caperr
  match s.evr.newest with
  | none => new s
  | some n =>
    if s.evrMerges n trig kind detail stamp then
      let n' := { n with repeats := n.repeats + 1, lastRepeat := stamp }
      let s := s.modEvr fun e => { e with newest := some n' }
      if n'.repeats = 0xFFFF then s.keepRepeat else s
    else new s

/-- An event offered to the recorder's triggers: the lowest that matches makes the record (R436, R437). -/
def State.evrEvent (s : State) (kind detail cls : Nat) (stamp : Stamp) : State :=
  if !s.bit A.evrCtrl F.evrCtrl_en then s
  else
    match (List.range 32).find? (s.trigMatches kind detail cls) with
    | none => s
    | some n =>
      if s.bit (A.evrTrg n) F.evrTrg_nocap then s.evrTake n 0 kind detail [] stamp
      else
        let l := s.fld (A.evrTrg n) F.evrTrg_list
        s.evrTake n l kind detail (s.captureList l) stamp

end Sys2Proof.Machine
end

