-- ==== Sys2Proof/Machine/Gates.lean ====
section
/-! DEFINITION. Terminal cells and their switches: modes, paralleled groups, the three sources of a gate, start permits,
trip terms and what the lanes are told (R74 to R111, R362 to R381). -/

namespace Sys2Proof.Machine

/-! ## Cells -/

/-- The state with its field side changed. -/
def State.modField (s : State) (g : FieldSt → FieldSt) : State := { s with field := g s.field }

/-- Cell n. -/
def State.cell (s : State) (n : Nat) : Cell := s.field.cells.getD n Cell.reset

/-- The state with cell n changed. -/
def State.modCell (s : State) (n : Nat) (g : Cell → Cell) : State :=
  s.modField fun f => { f with cells := f.cells.modify n g }


/-- TRM_STATE.MODE_ACT of terminal n. -/
def State.mode (s : State) (n : Nat) : Nat := s.fld (A.trmState n) F.trmState_modeact

/-- TRM_STATE.BUSY of terminal n. -/
def State.busy (s : State) (n : Nat) : Bool := s.bit (A.trmState n) F.trmState_busy

/-- Whether terminal n is in mode m and in no transition. -/
def State.inMode (s : State) (n m : Nat) : Bool := decide (n < 48) && decide (s.mode n = m) && !s.busy n

/-- Whether terminal n is a leader in DO mode (R371). -/
def State.leader (s : State) (n : Nat) : Bool := s.inMode n 2

/-- TRM_STATE.SW of terminal n. -/
def State.sw (s : State) (n : Nat) : Bool := s.bit (A.trmState n) F.trmState_sw

/-- TRM_STATE.MISWIRE_NOW of terminal n. -/
def State.miswired (s : State) (n : Nat) : Bool := s.bit (A.trmState n) F.trmState_miswirenow

/-- The address of a group register: the window of the group's first terminal (R112). -/
def groupAt (a : Nat → Nat) (g : Nat) : Nat := a (8 * g)

/-- Whether group g's field supply is present (R75). -/
def State.present (s : State) (g : Nat) : Bool := s.bit (groupAt A.trmGstate g) F.trmGstate_fldok

/-- Terminals the PAR of terminal n spans: 1, 2 or 4 (R101). -/
def State.parSize (s : State) (n : Nat) : Nat :=
  match s.fld (A.trmDo n) F.trmDo_par with
  | 1 => 2
  | 2 => 4
  | _ => 1

/-- The leader whose PAR covers DO_MEMBER terminal m: the quad's where one covers it, else the pair's (R101). -/
def State.leaderOf (s : State) (m : Nat) : Option Nat :=
  if !s.inMode m 3 then none
  else
    [m / 4 * 4, m / 2 * 2].find? fun n => decide (n < m) && s.leader n && decide (m < n + s.parSize n)

/-- The terminals of leader n's group, itself first (R101). -/
def State.groupOf (s : State) (n : Nat) : List Nat :=
  n :: ([n + 1, n + 2, n + 3].filter fun m => s.leaderOf m = some n)

/-- The leader a terminal's switch is driven from: itself in DO mode, else the one that covers it. -/
def State.driver (s : State) (n : Nat) : Option Nat := if s.leader n then some n else s.leaderOf n

/-! ## What the lanes are told -/

/-- Islands as they order equal stamps (R20, R26). -/
def islandTerm : Nat := 5
def islandOut : Nat := 7

/-- An event of TRM_STATUS with its ring-105 record, whose value is TRM_STATE after the event (R246). -/
def State.termEvent (s : State) (n : Nat) (flag : Fld) : State :=
  let s := s.event (A.trmStatus n) flag
  s.send (mkRec 105 0x20 n ⟨s.reg (A.trmState n), .good⟩ 0 s.tbc islandTerm)

/-- An event of TRM_GSTATUS with its ring-105 record (R246). -/
def State.groupEvent (s : State) (g : Nat) (flag : Fld) : State :=
  let s := s.event (groupAt A.trmGstatus g) flag
  s.send (mkRec 105 0x21 g ⟨s.reg (groupAt A.trmGstate g), .good⟩ 0 s.tbc islandTerm)

/-- The majority of leader n's latches (R349), as OUT_STATE.VOTED shows it. -/
def State.voted (s : State) (n : Nat) : Bool := s.bit (A.outState n) F.outState_voted

/-- The VALUE of a ring-106 record without IGNORED and MORE (R377). -/
def State.outValue (s : State) (n : Nat) : Word :=
  let t := A.trmState n
  BitVec.ofNat 32 (s.fld t F.trmState_sw + 2 * s.fld (A.outState n) F.outState_ordered
    + 4 * s.fld (A.outState n) F.outState_gov + 16 * s.fld t F.trmState_permitwait
    + 32 * s.fld t F.trmState_offlatched + 64 * s.fld (A.outState n) F.outState_voted)

/-- A ring-106 record of leader n. -/
def State.sendOut (s : State) (n : Nat) (v : Word) (stamp : Stamp) : State :=
  s.send (mkRec 106 0x30 n ⟨v, .good⟩ 0 stamp islandOut)

/-- A change of leader n: the first of an input interval is sent at once, later ones wait for the seam (R377). -/
def State.noteOut (s : State) (n : Nat) : State :=
  let c := s.cell n
  let s' := s.modCell n fun c => { c with changes := c.changes + 1 }
  if c.changes = 0 then s'.sendOut n (s.outValue n) s.tbc
  else s'.modCell n fun c => { c with lastChange := some (s.tbc, s.outValue n) }

/-- `s` after an operation that began at `s0`: a ring-106 change where leader n's SW, ORDERED, GOV, PERMIT_WAIT or
OFF_LATCHED differ (R377). -/
def State.noteIf (s0 s : State) (n : Nat) : State :=
  if s.leader n && decide (s0.outValue n &&& 0x3F#32 ≠ s.outValue n &&& 0x3F#32) then s.noteOut n else s

/-! ## Permits -/

/-- SUP_PMT_STATE.QUEUED follows the queue. -/
def State.countPermits (s : State) : State :=
  s.setFld A.supPmtState F.supPmtState_queued s.field.permits.length

/-- TRM_STATE.PERMIT_WAIT of terminal n follows the queue (R95). -/
def State.permitWait (s : State) (n : Nat) : State :=
  (s.setBit (A.trmState n) F.trmState_permitwait (s.field.permits.any fun r => r.term == n)).countPermits

/-- A request of terminal n's DO or loop switch enters the queue; each switch has at most one (R378). -/
def State.requestPermit (s : State) (n : Nat) (loop : Bool) : State :=
  if s.field.permits.any fun r => r.term == n && r.loop == loop then s
  else
    (s.modField fun f => { f with permits := f.permits ++ [⟨n, loop, s.tbc, none, false⟩] }).permitWait n

/-- The request of terminal n's DO or loop switch is cancelled (R95, R378). -/
def State.cancelPermit (s : State) (n : Nat) (loop : Bool) : State :=
  if s.field.permits.any fun r => r.term == n && r.loop == loop then
    (s.modField fun f => { f with permits := f.permits.filter fun r => !(r.term == n && r.loop == loop) }).permitWait n
  else s

/-- Units a request costs: 1, or the switches of the leader's group (R378). -/
def State.permitCost (s : State) (r : PermitReq) : Nat :=
  if !r.loop && s.leader r.term then (s.groupOf r.term).length else 1

/-! ## Switches -/

/-- Terminal n's DO switch opens; DEMAG is 1 where its load makes the clamp conduct, which the load decides (R98). -/
def State.openSwitch (s : State) (n : Nat) : State :=
  if s.sw n then
    let p := s.nextFree
    let a := A.trmState n
    ((p.2.setBit a F.trmState_sw false).setBit a F.trmState_limit false).setBit a F.trmState_demag
      ((Config.freeWord p.1).getLsbD 0)
  else s

/-- Terminal n's DO switch closes. -/
def State.closeSwitch (s : State) (n : Nat) : State :=
  (s.setBit (A.trmState n) F.trmState_sw true).setBit (A.trmState n) F.trmState_demag false

/-- The switches of leader n's group open together (R102). -/
def State.openGroup (s : State) (n : Nat) : State :=
  (s.groupOf n).foldl (fun s m => (s.cancelPermit m false).openSwitch m) s

/-- The switches of leader n's group close together, and OFF_LATCHED clears (R97, R102). -/
def State.closeGroup (s : State) (n : Nat) : State :=
  (s.groupOf n).foldl
    (fun s m => ((s.cancelPermit m false).closeSwitch m).setBit (A.trmState m) F.trmState_offlatched false) s

/-- Whether MISWIRE or thermal shutdown holds a switch of leader n's group open (R82, R84, R104). -/
def State.heldOpen (s : State) (n : Nat) : Bool :=
  (s.groupOf n).any fun m => s.miswired m || s.bit (A.trmState m) F.trmState_overtempnow

/-- Whether a protection of R365 keeps leader n's switch open. -/
def State.blocked (s : State) (n : Nat) : Bool :=
  s.heldOpen n || s.bit (A.trmState n) F.trmState_offlatched || !s.present (n / 8)

/-! ## The governing source -/

/-- Whether asserted term k names output n (R382). -/
def State.tripNames (s : State) (k n : Nat) : Bool :=
  if n < 32 then (s.reg (A.trpOutlo k)).getLsbD n else (s.reg (A.trpOuthi k)).getLsbD (n - 32)

/-- The terms asserted now that name output n. -/
def State.tripsOn (s : State) (n : Nat) : List Nat :=
  (List.range 32).filter fun k => (s.reg A.trpAssert).getLsbD k && s.tripNames k n

/-- The state asserted trip terms require of output n; off where they differ (R364). -/
def State.tripState (s : State) (n : Nat) : Option Bool :=
  match s.tripsOn n with
  | [] => none
  | ks => some (ks.all fun k => s.bit (A.trpCfg k) F.trpCfg_sense)

/-- Whether a SAFE reaction is in force (R374). -/
def State.safeNow (s : State) : Bool := s.bit A.outSafe F.outSafe_safenow

/-- The SAFE value of terminal n now: off, on, or what its latches order (R374). -/
def State.safeValue (s : State) (n : Nat) : Bool :=
  match s.fld (A.outCfg n) F.outCfg_safepol with
  | 1 => true
  | 2 => s.voted n
  | _ => false

/-- The governing source and the gate state it orders (R32, R371): 0 latches, 1 trip term, 2 SAFE. -/
def State.governing (s : State) (n : Nat) : Nat × Bool :=
  match s.tripState n with
  | some b => (1, b)
  | none => if s.safeNow then (2, (s.cell n).safeVal) else (0, s.voted n)

/-- GOV, CMD, ORDERED and PENDING of leader n show source `p.1` ordering `p.2` (R94, R371, R375). -/
def State.showOrder (s : State) (n : Nat) (p : Nat × Bool) : State :=
  let t := A.trmState n
  let o := A.outState n
  let s := (s.setFld t F.trmState_gov p.1).setBit t F.trmState_cmd p.2
  let s := (s.setFld o F.outState_gov p.1).setBit o F.outState_ordered p.2
  s.setBit o F.outState_pending (decide (p.1 ≠ 0) && (s.voted n != p.2))

/-- Leader n's switch is moved toward the ordered state: an opening at once, a closing through a permit unless a trip
term or SAFE orders it, and none while a protection acts (R95, R97, R365, R374). -/
def State.driveGate (s : State) (n : Nat) (p : Nat × Bool) : State :=
  if !p.2 then
    (s.groupOf n).foldl (fun s m => s.setBit (A.trmState m) F.trmState_offlatched false) (s.openGroup n)
  else if s.sw n then s
  else if p.1 ≠ 0 then (if s.blocked n then s else s.closeGroup n)
  else if s.heldOpen n || s.bit (A.trmState n) F.trmState_offlatched then s
  else s.requestPermit n false

/-- Leader n's gate follows its governing source (R94, R371). -/
def State.resolveGate (s : State) (n : Nat) : State :=
  if s.leader n then
    let p := s.governing n
    s.noteIf ((s.showOrder n p).driveGate n p) n
  else s

/-- Leader n's switch returns to its commanded state through a permit, where nothing holds it open (R83, R84, R107). -/
def State.reclose (s : State) (n : Nat) : State :=
  if s.leader n && s.bit (A.trmState n) F.trmState_cmd && !s.sw n && !s.blocked n then
    s.noteIf (s.requestPermit n false) n
  else s

/-! ## Trip terms -/

/-- The eight literals of term k, low first: bits 7 USE, 6 POL, 5:0 TERM (R382). -/
def State.literals (s : State) (k : Nat) : List Nat :=
  let w := (s.reg (A.trpLita k)).toNat + 2 ^ 32 * (s.reg (A.trpLitb k)).toNat
  (List.range 8).map fun i => w / 2 ^ (8 * i) % 256

/-- The value of a literal (R111, R362). -/
def State.literal (s : State) (l : Nat) : Bool :=
  let n := l % 64
  if s.inMode n 1 && !s.miswired n then
    s.bit (A.trmState n) F.trmState_level != decide (l / 64 % 2 = 1)
  else false

/-- The logic value of term k (R362). -/
def State.termLogic (s : State) (k : Nat) : Bool :=
  let ls := (s.literals k).filter fun l => 128 ≤ l
  if ls.isEmpty || !s.bit (A.trpCfg k) F.trpCfg_en then false
  else if s.bit (A.trpCfg k) F.trpCfg_op then ls.any s.literal
  else ls.all s.literal

/-- Whether leaders' outputs n stand in conflict: asserted terms of both senses name it (R364). -/
def State.conflict (s : State) (n : Nat) : Bool :=
  s.leader n && (s.tripsOn n).any (fun k => s.bit (A.trpCfg k) F.trpCfg_sense)
    && (s.tripsOn n).any (fun k => !s.bit (A.trpCfg k) F.trpCfg_sense)

/-- Bit k of a register set to b. -/
def State.setBitAt (s : State) (a k : Nat) (b : Bool) : State := s.setBit a ⟨k, k⟩ b

/-- Term k asserts: its bit, its stamp, ASSERT and the recorder's TRIP event (R367, R436). -/
def State.assertTerm (s : State) (k : Nat) : State :=
  let s := (s.setBitAt A.trpAssert k true).event A.trpStatus F.trpStatus_assert
  (s.setPair (A.trpStampLo k) s.tbc.toNat).evrEvent 5 k 0 s.tbc

/-- Term k is evaluated: a latching term holds until it is reset (R363, R366). -/
def State.evalTerm (s : State) (k : Nat) : State :=
  let v := s.termLogic k
  let latching := s.bit (A.trpCfg k) F.trpCfg_latch
  let was := (s.reg A.trpAssert).getLsbD k
  let s := if v && latching then s.setBitAt A.trpLatched k true else s
  let now := v || (s.reg A.trpLatched).getLsbD k
  if now && !was then s.assertTerm k
  else if was && !now then s.setBitAt A.trpAssert k false
  else s

/-- Every term is evaluated, CONFLICT is set with a NOTE for each leader that came into conflict, and every leader's
gate follows its source (R363, R364, R375). -/
def State.evalTrips (s : State) : State :=
  let t := (List.range 32).foldl State.evalTerm s
  let t := (List.range 48).foldl
    (fun t n =>
      if t.conflict n && !s.conflict n then (t.event A.trpStatus F.trpStatus_conflict).report 63 n else t) t
  if t.reg A.trpAssert = s.reg A.trpAssert then t else (List.range 48).foldl State.resolveGate t

/-! ## Loop switches -/

/-- Whether terminal n's loop switch is ordered closed: AI_LOOP with PWR 1 (R106). -/
def State.loopOrdered (s : State) (n : Nat) : Bool := s.inMode n 4 && s.bit (A.trmLoop n) F.trmLoop_pwr

/-- A closing of terminal n's loop switch is asked for: its first closing waits for the stagger until every loop has
entered it (R378, R381). -/
def State.requestLoop (s : State) (n : Nat) : State :=
  if s.loopOrdered n && !s.bit (A.trmState n) F.trmState_loopsw && !s.miswired n
      && ((s.cell n).staggered || s.field.staggerDone) then
    s.requestPermit n true
  else s

/-- Terminal n's loop switch opens, and its request is cancelled. -/
def State.openLoop (s : State) (n : Nat) : State :=
  (s.cancelPermit n true).setBit (A.trmState n) F.trmState_loopsw false

end Sys2Proof.Machine
end

