-- ==== Sys2Proof/Machine/Convert.lean ====
section
/-! DEFINITION. Point descriptors and the conversion of a window's code to a value: voltages, resistance thermometers,
thermocouples and current loops (R133 to R141, R188 to R196, R210, R211). -/

namespace Sys2Proof.Machine

/-! ## Descriptors -/

/-- A field as a two's complement number. -/
def sgn (bits n : Nat) : Int := if n < 2 ^ (bits - 1) then n else (n : Int) - 2 ^ bits

/-- The descriptor of seven words, word i at offset 4i (R210). -/
def mkDesc (w : Nat → Word) : Desc where
  en := F.sdMode_en.get (w 0) == 1
  kind := F.sdMode_kind.get (w 0)
  form := F.sdMode_form.get (w 0)
  rev := F.sdMode_rev.get (w 0) == 1
  tc := F.sdMode_tctype.get (w 0)
  win := F.sdMode_win.get (w 0)
  auto := F.sdMode_auto.get (w 0) == 1
  rwide := F.sdMode_rwide.get (w 0)
  rnarrow := F.sdMode_rnarrow.get (w 0)
  elem := F.sdMode_elem.get (w 0)
  unit := F.sdMode_unit.get (w 0) == 1
  psel := F.sdTerm_psel.get (w 1)
  nsel := F.sdTerm_nsel.get (w 1)
  rsel := F.sdTerm_rsel.get (w 1)
  fsel := F.sdTerm_fsel.get (w 1)
  lo := (w 2).toInt
  hi := (w 3).toInt
  vhi := sgn 16 (F.sdVspan_vhi.get (w 4))
  vlo := sgn 16 (F.sdVspan_vlo.get (w 4))
  srca := F.sdExc_srca.get (w 5)
  srcb := F.sdExc_srcb.get (w 5)
  code := F.sdExc_code.get (w 5)
  steep := F.sdTime_steep.get (w 6)
  disch := F.sdTime_disch.get (w 6)

/-- The active descriptor of home number p (R226). -/
def State.desc (s : State) (p : Nat) : Desc := mkDesc fun i => s.reg (A.saMode p + 4 * i)

/-- Whether the point is measured as a swap or reversal pair (R135, R136). -/
def Desc.pair (d : Desc) : Bool :=
  d.kind == 1 && (d.form == 2 || d.form == 3 || (d.form == 4 && d.rev))

/-- The terminals its stage inputs select. -/
def Desc.inputs (d : Desc) : List Nat := [d.psel, d.nsel].filter (· < 48)

/-- The sources with the terminals they drive in the first or second window (R133, R135, R136). -/
def Desc.sources (d : Desc) (second : Bool) : List (Nat × Nat) :=
  if d.kind ≠ 1 then []
  else if d.form = 2 ∨ d.form = 3 then
    if second then [(d.srca, d.nsel), (d.srcb, d.psel)] else [(d.srca, d.psel), (d.srcb, d.nsel)]
  else [(d.srca, if second then d.rsel else d.fsel)]

/-- The source indexes it names. -/
def Desc.sourceIds (d : Desc) : List Nat := (d.sources false).map (·.1)

/-- The terminal whose return switch is closed (R133, R136). -/
def Desc.returns (d : Desc) (second : Bool) : List Nat :=
  if d.kind ≠ 1 then []
  else [if second && d.form == 4 then d.fsel else d.rsel].filter (· < 48)

/-- The supply terminal of a loop point, if it names one (R185). -/
def State.supplyOf (s : State) (d : Desc) : Option Nat :=
  if d.kind = 3 then
    let n := s.fld (A.hrtLcfg d.psel) F.hrtLcfg_sup
    if n < 48 then some n else none
  else none

/-- Every terminal of the point, a loop's supply terminal among them (R186). -/
def State.uses (s : State) (d : Desc) : List Nat :=
  ([d.psel, d.nsel, d.rsel, d.fsel].filter (· < 48)) ++ (s.supplyOf d).toList

/-! ## Numbers -/

/-- num / den as an integer: exact, or one of its two neighbours (DESIGN CHOICE, assumption 50). -/
def quant (num : Int) (den : Nat) : Int :=
  let q := num / (den : Int)
  if q * den = num then q else if Config.roundUp num den then q + 1 else q

/-- A value of num / den in units of 1/65536 as a Q16.16 word; outside the format the spec states none, and the word is
free (DESIGN CHOICE, assumption 53). -/
def State.toQ (s : State) (num : Int) (den : Nat) : Word × State :=
  let q := quant num den
  if -2147483648 ≤ q ∧ q ≤ 2147483647 then (BitVec.ofInt 32 q, s)
  else
    let p := s.nextFree
    (Config.freeWord p.1, p.2)

/-- A value of num / den in whole units, clipped to 0 and 0xFFFF (R188). -/
def clip16 (num : Int) (den : Nat) : Nat :=
  let q := quant num den
  if num < 0 then 0 else if 65535 < q then 65535 else q.toNat

/-- The denominator of a code's voltage: v = 5 × code / (2^24 × 4^range) volts (R157). -/
def voltDen (range : Nat) : Nat := 2 ^ 24 * 4 ^ range

/-! ## Voltages (R159, R211) -/

/-- The value of a voltage point. -/
def State.voltValue (s : State) (d : Desc) (code : Int) (range : Nat) : Word × State :=
  let den := voltDen range
  if d.unit then s.toQ (code * 5 * 65536) den
  else
    let span := d.vhi - d.vlo
    let num := d.lo * span * den + (code * 5 * 10000 - d.vlo * den) * (d.hi - d.lo)
    if span < 0 then s.toQ (-num) (den * span.natAbs) else s.toQ num (den * span.natAbs)

/-! ## Resistance thermometers (R133, R134) -/

/-- Rnom in ohms. -/
def rnom (elem : Nat) : Nat := if elem = 0 then 100 else if elem = 1 then 500 else 1000

/-- 10^15 × 2^64 × R(T) / Rnom at T = q / 65536 °C. -/
def rtdRatio (q : Int) : Int :=
  1000000000000000 * 2 ^ 64 + 3908300000000 * q * 2 ^ 48 - 577500000 * q * q * 2 ^ 32
    - (if q < 0 then 4183 * (q - 6553600) * q * q * q else 0)

/-- −200 °C and 850 °C in Q16.16. -/
def rtdMin : Int := -13107200
def rtdMax : Int := 55705600

/-- The largest q in [lo, lo + 2^k) whose R is at most num / den × Rnom. -/
def rtdSearch (num : Int) (den : Nat) : Nat → Int → Int
  | 0, lo => lo
  | k + 1, lo =>
    let m := lo + 2 ^ k
    if rtdRatio m * den ≤ num * (1000000000000000 * 2 ^ 64) then rtdSearch num den k m
    else rtdSearch num den k lo

/-- Status and Q16.16 temperature of a resistance of num / den × Rnom (R134). -/
def rtdTemp (num : Int) (den : Nat) : Nat × Int :=
  if num * (1000000000000000 * 2 ^ 64) < rtdRatio rtdMin * den then (2, rtdMin)
  else if rtdRatio rtdMax * den < num * (1000000000000000 * 2 ^ 64) then (2, rtdMax)
  else
    let q := Min.min (rtdSearch num den 27 rtdMin) rtdMax
    let e := Config.rtdError num den
    (0, Max.max rtdMin (Min.min rtdMax (q + Max.max (-131) (Min.min 131 e))))

/-- MUX_RLEAD of input x in mΩ, 0 for a group return (R133). -/
def State.rlead (s : State) (x : Nat) : Nat := if x < 48 then s.fld (A.muxRlead x) F.muxRlead_rlead else 0

/-- Status and value of an RTD point whose voltage is code / div of a code step (R133, R134). -/
def State.rtdValue (s : State) (d : Desc) (code : Int) (div range : Nat) : Nat × Word :=
  let leads : Int :=
    match d.form with
    | 0 => (s.rlead d.psel + s.rlead d.nsel : Nat)
    | 1 => s.rlead d.psel
    | 2 => (s.rlead d.psel : Int) - s.rlead d.nsel
    | 3 => (s.rlead d.psel : Int) - s.rlead d.nsel
    | _ => 0
  -- V / I in mΩ is code × 5 × 10^8 / (den × CODE)
  let den := voltDen range * div * d.code
  let num := code * 500000000 - leads * den
  let p := rtdTemp num (den * 1000 * rnom d.elem)
  (p.1, BitVec.ofInt 32 p.2)

/-! ## Thermocouples (R140, R141) -/

/-- Range of a type in whole °C and its EMF at the ends in µV (*Table: Thermocouple types*). -/
def tcRange (ty : Nat) : Int × Int × Int × Int :=
  match ty with
  | 0 => (-200, 1372, -5891, 54886)
  | 1 => (-210, 1200, -8095, 69553)
  | 2 => (-200, 1300, -3990, 47513)
  | 3 => (-200, 400, -5603, 20872)
  | _ => (-200, 1000, -8825, 76373)

/-- The enabled CJ-form point on terminal n of the lowest slot (R141). -/
def State.cjPoint (s : State) (n : Nat) : Option Nat :=
  (List.range 512).find? fun p =>
    let d := s.desc p
    d.en && d.kind == 1 && d.form == 1 && d.psel == n

/-- A point's state. -/
def State.point (s : State) (p : Nat) : PointSt :=
  match s.field.points.find? (·.1 == p) with
  | some x => x.2
  | none => PointSt.reset

/-- The cold-junction value used for a window of a thermocouple that closed at `stamp`: the newest stamped at or before
it, with its tag; none where the source has none (R141). -/
def State.coldJunction (s : State) (d : Desc) (stamp : Stamp) : Option (TWord × Stamp) :=
  let n := s.fld (A.muxTopt d.psel) F.muxTopt_cj
  if n < 48 then
    match s.cjPoint n with
    | none => none
    | some p =>
      let x := s.point p
      match x.last with
      | none => none
      | some l => if l.2.toNat ≤ stamp.toNat then some l else x.prev
  else
    match s.field.cjsRead with
    | none => none
    | some t => some (⟨s.reg (A.muxCjs (n - 0x38)), s.field.cjsTags.getD (n - 0x38) .good⟩, t)

/-- Status, value and worst tag of a thermocouple point (R140, R141). -/
def State.tcValue (s : State) (d : Desc) (code : Int) (range : Nat) (stamp : Stamp) :
    Nat × Word × Tag × State :=
  let (tcj, tag, s) : Word × Tag × State :=
    match s.coldJunction d stamp with
    | some (w, t) =>
      (w.val, if 200000000 < stamp.toNat - t.toNat then w.tag.worst .uncertain else w.tag, s)
    | none => let p := s.nextFree; (Config.freeWord p.1, .uncertain, p.2)
  let den := voltDen range
  let num := code * 5000000000 + Config.tcEmf d.tc tcj * den
  let (tlo, thi, elo, ehi) := tcRange d.tc
  if num < elo * 1000 * den then (2, BitVec.ofInt 32 (tlo * 65536), tag, s)
  else if ehi * 1000 * den < num then (2, BitVec.ofInt 32 (thi * 65536), tag, s)
  else (0, Config.tcTemp d.tc num den, tag, s)

end Sys2Proof.Machine
end

