-- ==== Sys2Proof/Machine/Points.lean ====
section
/-! DEFINITION. Stages, sources and the posting of results: routing (R116 to R132), windows (R148 to R177), the loop
measurement (R188 to R196) and what the sequencer posts (R214 to R220). -/

namespace Sys2Proof.Machine

/-! ## Converters and stages -/

/-- Converter c. -/
def State.conv (s : State) (c : Nat) : ConvSt := s.field.convs.getD c ConvSt.reset

/-- The state with converter c changed. -/
def State.modConv (s : State) (c : Nat) (g : ConvSt → ConvSt) : State :=
  s.modField fun f => { f with convs := f.convs.modify c g }

/-- Stage st of converter c. -/
def State.stage (s : State) (c st : Nat) : StageSt := (s.conv c).stages.getD st StageSt.reset

/-- MUX_STG.STATE of a phase (R144); a stage that is ready still shows its steep interval, and one left on the internal
zero by its self-test is idle. -/
def StagePhase.code : StagePhase → Nat
  | .idle => 0
  | .discharge => 1
  | .openTest => 2
  | .steep => 3
  | .ready => 3
  | .window => 4
  | .selfTest => 0

/-- The selections MUX_STG shows: those the stage was given, internal zero after a self-test, else none (R116). -/
def State.selections (s : State) (x : StageSt) : Nat × Nat :=
  match x.phase, x.slot with
  | .selfTest, _ => (0x3E, 0x3E)
  | _, some p => ((s.desc p).psel, (s.desc p).nsel)
  | _, none => (0x3F, 0x3F)

/-- Whether stage st of converter c is out of use (R174). -/
def State.stageOut (s : State) (c st : Nat) : Bool :=
  s.bit (A.asyState c) (if st = 0 then F.asyState_stgaout else F.asyState_stgbout)

/-- Stage st of converter c becomes `x`, and MUX_STG shows it unless the stage is out of use. -/
def State.putStage (s : State) (c st : Nat) (x : StageSt) : State :=
  let s := s.modConv c fun k => { k with stages := k.stages.set st x }
  let a := A.muxStg (2 * c + st)
  let out := s.stageOut c st
  let p := if out then (0x3F, 0x3F) else s.selections x
  let s := s.setFld a F.muxStg_state (if out then 0 else x.phase.code)
  (s.setFld a F.muxStg_psel p.1).setFld a F.muxStg_nsel p.2

/-- Whether converter c is in dedicated mode (ASY_STATE.STATE). -/
def State.dedicated (s : State) (c : Nat) : Bool := s.fld (A.asyState c) F.asyState_state == 2

/-- Whether converter c is in scanned mode. -/
def State.scanned (s : State) (c : Nat) : Bool := s.fld (A.asyState c) F.asyState_state == 1

/-- The range in force on stage st of converter c. -/
def State.showRange (s : State) (c st r : Nat) : State :=
  s.setFld (A.asyState c) (if st = 0 then F.asyState_rangea else F.asyState_rangeb) r

/-! ## Sources and return switches -/

/-- Owner code of a free source (R146). -/
def ownerFree : Nat := 0xF

/-- OWNER of source i. -/
def State.owner (s : State) (i : Nat) : Nat := s.fld (A.excState i) F.excState_owner

/-- Source i delivers CODE `code` on terminal n for `own` (R126, R146). -/
def State.sourceOn (s : State) (i own n code : Nat) : State :=
  let a := A.excState i
  (((s.setFld a F.excState_on 1).setFld a F.excState_owner own).setFld a F.excState_term n).setFld a
    F.excState_code code

/-- Source i is off and free; a source that is off is not out of compliance. -/
def State.sourceOff (s : State) (i : Nat) : State :=
  let a := A.excState i
  let s := ((s.setFld a F.excState_on 0).setFld a F.excState_owner ownerFree).setFld a F.excState_term 0x3F
  (s.setFld a F.excState_code 0).setBitAt A.excComplNow i false

/-- The return switch of terminal n closes or opens (R118, R144). -/
def State.returnSwitch (s : State) (n : Nat) (on : Bool) : State :=
  if n < 32 then s.setBitAt A.muxRetLo n on else s.setBitAt A.muxRetHi (n - 32) on

/-- Converter c connects a point's sources and return switches for its first or second window. -/
def State.connectSources (s : State) (c : Nat) (d : Desc) (second : Bool) : State :=
  let s := (d.sources second).foldl (fun s p => s.sourceOn p.1 c p.2 d.code) s
  (d.returns second).foldl (fun s n => s.returnSwitch n true) s

/-- Converter c switches off and frees a point's sources and opens its return switches. -/
def State.freeSources (s : State) (c : Nat) (d : Desc) : State :=
  let s := d.sourceIds.foldl (fun s i => if s.owner i = c then s.sourceOff i else s) s
  (d.returns false ++ d.returns true).foldl (fun s n => s.returnSwitch n false) s

/-! ## Releasing stages -/

/-- The ticks at which DISCHARGE and the like end are events of their own; a release without new selections starts a
discharge that ends with nothing connected (R120). `leaving` names the terminal whose mode change waits for it
(R108). -/
def State.releaseStage (s : State) (c st : Nat) (leaving : Option Nat) : State :=
  let x := s.stage c st
  match x.slot with
  | none => s
  | some p =>
    let s := if x.phase = .idle then s else s.freeSources c (s.desc p)
    s.putStage c st { StageSt.reset with phase := .discharge, freed := s.tbc, leaving := leaving }

/-- Whether the stage's point is in flight: from its selections to its window's close (R82). -/
def StageSt.inFlight (x : StageSt) : Bool :=
  x.slot.isSome && x.phase != .idle && x.phase != .selfTest

/-! ## Posting (R220) -/

/-- The state with point p changed. -/
def State.modPoint (s : State) (p : Nat) (g : PointSt → PointSt) : State :=
  s.modField fun f => { f with points := (p, g (s.point p)) :: f.points.filter (·.1 != p) }

/-- Island of the sequencer (R20). -/
def islandMeas : Nat := 4

/-- The result of home number p goes to the ring of its home converter (R209, R220). -/
def State.post (s : State) (p : Nat) (v : TWord) (status : Nat) (stamp : Stamp) : State :=
  let s := s.send (mkRec (96 + p / 64) 0x01 p v status stamp islandMeas)
  s.modPoint p fun x =>
    { x with ok := if status = 0 then some v.val else x.ok, last := some (v, stamp), prev := x.last, status }

/-- The held value with tag `t`, or 0 with tag BAD where the point has posted no OK value (R170). -/
def State.held (s : State) (p : Nat) (t : Tag) : TWord :=
  match (s.point p).ok with
  | some w => ⟨w, t⟩
  | none => ⟨0, .bad⟩

/-- Tags are no better than UNCERTAIN while a source of the point failed its last calibration (R125). -/
def State.worsen (s : State) (d : Desc) (v : TWord) : TWord :=
  if d.sourceIds.any fun i => (s.reg A.excCalfailNow).getLsbD i then ⟨v.val, v.tag.worst .uncertain⟩ else v

/-- Point p posts its held value. -/
def State.postHeld (s : State) (p : Nat) (status : Nat) (t : Tag) (stamp : Stamp) : State :=
  s.post p (s.worsen (s.desc p) (s.held p t)) status stamp

/-! ## Ending a point's flight early -/

/-- Result status codes (R169). -/
def stOk : Nat := 0
def stUnsettled : Nat := 1
def stOverrange : Nat := 2
def stRanging : Nat := 3
def stOpen : Nat := 4
def stCmFault : Nat := 5
def stBlanked : Nat := 6
def stAbandoned : Nat := 7
def stLowHeadroom : Nat := 8

/-- ASY_LAST and its point and stamp show a window that ended (R168). -/
def State.showLast (s : State) (c st p status range : Nat) (code : Int) (stamp : Stamp) : State :=
  let a := A.asyLast c
  let s := ((s.setFld a F.asyLast_status status).setFld a F.asyLast_stage st).setFld a F.asyLast_range range
  let s := s.setFld a F.asyLast_code (BitVec.ofInt 24 code).toNat
  let s := s.setFld (A.asyLastPoint c) F.asyLastPoint_index (p % 64)
  (s.setReg (A.asyLastStampLo c) (stamp.truncate 32)).setReg (A.asyLastStampHi c) ((stamp >>> 32).truncate 32)

/-- The raw code of a window that ended early, of which the spec states no value (DESIGN CHOICE, assumption 54). -/
def State.showEarly (s : State) (c st p status range : Nat) : State :=
  let k := s.nextFree
  k.2.showLast c st p status range (Config.freeWord k.1).toInt s.tbc

/-- Counters and flags of a window posted ABANDONED or BLANKED. -/
def State.countEarly (s : State) (c status : Nat) : State :=
  if status = stBlanked then
    (s.satInc (A.asyCnt c) F.asyCnt_blankeds).event (A.asyStatus c) F.asyStatus_blanked
  else if status = stAbandoned then s.satInc (A.asyCnt2 c) F.asyCnt2_abandons
  else s

/-- A window that is open on stage st ends now with `status`; the stage's point posts its held value with tag `t`
(R82, R108, R131, R165, R170). -/
def State.endWindow (s : State) (c st : Nat) (status : Nat) (t : Tag) : State :=
  let x := s.stage c st
  match x.slot with
  | none => s
  | some p =>
    let s := (s.showEarly c st p status x.range).countEarly c status
    let s := s.modPoint p fun q => { q with dwell := 0 }
    s.postHeld p status t s.tbc

/-- The point in flight on stage st ends ABANDONED with tag `t`; its stage is released (R82, R108, R173, R177). In
dedicated mode only an open window posts, or the first stage where none is open. -/
def State.abandon (s : State) (c st : Nat) (t : Tag) (leaving : Option Nat) : State :=
  let x := s.stage c st
  if x.inFlight then
    let s :=
      if x.phase = .window then s.endWindow c st stAbandoned t
      else
        match x.slot with
        | some p =>
          if s.dedicated c && ((s.stage c (1 - st)).phase == .window || st == 1) then s
          else s.postHeld p stAbandoned t s.tbc
        | none => s
    s.releaseStage c st leaving
  else s

/-- Stages of all converters, as pairs. -/
def allStages : List (Nat × Nat) := (List.range 16).map fun i => (i / 2, i % 2)

/-- Whether the stage serves a point that uses terminal n. -/
def State.stageUses (s : State) (c st n : Nat) : Bool :=
  match (s.stage c st).slot with
  | none => false
  | some p => (s.uses (s.desc p)).contains n

/-- Every point in flight on terminal n is ended, posted ABANDONED with tag `t`, and every stage tapped on it is
released (R82, R108, R186). A dedicated schedule restarts. -/
def State.leaveTerminal (s : State) (n : Nat) (t : Tag) (leaving : Option Nat) : State :=
  allStages.foldl
    (fun s k =>
      if s.stageUses k.1 k.2 n then
        let s := s.abandon k.1 k.2 t leaving
        let s := s.releaseStage k.1 k.2 leaving
        if s.dedicated k.1 then s.modConv k.1 fun v => { v with opened := 0 } else s
      else s) s

/-! ## Excitation changes (R128 to R131) -/

/-- An excitation change of the point on stage st: an open window closes and is posted UNSETTLED, a steep interval
restarts. -/
def State.excitationChange (s : State) (c st : Nat) : State :=
  let x := s.stage c st
  match x.phase with
  | .window =>
    if x.opened = s.tbc then s.putStage c st { x with phase := .steep, samples := [] }
    else
      let s := s.endWindow c st stUnsettled .uncertain
      if s.dedicated c then
        (s.putStage c st { x with phase := .steep, samples := [], blanked := 0, ovl := false, ranging := false
                                  compl := false }).modConv c
          fun v => { v with opened := 0 }
      else
        match x.slot with
        | none => s
        | some p =>
          (s.freeSources c (s.desc p)).putStage c st
            { StageSt.reset with phase := .idle, slot := x.slot, range := x.range, freed := s.tbc }
  | .ready => s.putStage c st { x with phase := .steep }
  | _ => s

/-- An excitation change of every point whose stage meets `p`. -/
def State.changeWhere (s : State) (p : Nat → Nat → Bool) : State :=
  allStages.foldl (fun s k => if p k.1 k.2 then s.excitationChange k.1 k.2 else s) s

/-! ## Status of a window (R143, R158, R169) -/

/-- A range's common-mode limits in mV (*Table: Ranges*). -/
def stageCm (range : Nat) : Int × Int := (-500, if range < 2 then 11500 else 5000)

/-- Whether the sample of input `sel` lies in its terminal's window, narrowed to the stage's (R158). -/
def State.inCmWindow (s : State) (range sel : Nat) (v : Int) : Bool :=
  if sel < 48 then
    let w := s.reg (A.muxCmw (s.fld (A.muxTopt sel) F.muxTopt_cmw))
    let lo := sgn 16 (F.muxCmw_lo.get w)
    let hi := sgn 16 (F.muxCmw_hi.get w)
    decide (Max.max lo (stageCm range).1 ≤ v) && decide (v ≤ Min.min hi (stageCm range).2)
  else true

/-- The status R143 fixes: CM_FAULT, OPEN or OK. -/
def State.cmStatus (s : State) (d : Desc) (range : Nat) (compl otFail : Bool) (ws : List WinSample) : Nat :=
  let far (sel : Nat) (v : Int) : Bool := decide (sel < 48) && (decide (11500 < v) || decide (v < -500))
  if ws.any fun w => far d.psel w.p || far d.nsel w.n then stCmFault
  else if compl || otFail then stOpen
  else if ws.any fun w => !s.inCmWindow range d.psel w.p || !s.inCmWindow range d.nsel w.n then stCmFault
  else stOk

/-- The higher of two statuses in the precedence of R169. -/
def worseStatus (a b : Nat) : Nat :=
  let rank (n : Nat) : Nat :=
    match n with
    | 5 => 1
    | 4 => 1
    | 3 => 2
    | 2 => 3
    | 8 => 4
    | 0 => 5
    | _ => 0
  if rank b < rank a then b else a

/-! ## Auto-ranging (R161) -/

/-- The range a closing window moves its point to, and its count of consecutive windows toward DWELL; `part` is false
where the window takes no part. -/
def State.autoRange (s : State) (c : Nat) (d : Desc) (x : PointSt) (opened : Nat) (part ovl : Bool) (code : Int) :
    Nat × Nat :=
  let ar := s.reg (A.asyAr c)
  if !d.auto then (x.range, 0)
  else if !part then (x.range, 0)
  else if opened ≠ x.range then (x.range, x.dwell)
  else if ovl then (d.rwide, 0)
  else if (F.asyAr_upthr.get ar * 2 ^ 23 : Nat) < code.natAbs * 100 ∧ d.rwide < x.range then (x.range - 1, 0)
  else if code.natAbs * 100 < (F.asyAr_dnthr.get ar * 2 ^ 23 : Nat) then
    if F.asyAr_dwell.get ar ≤ x.dwell + 1 ∧ x.range < d.rnarrow then (x.range + 1, 0) else (x.range, x.dwell + 1)
  else (x.range, 0)

/-! ## Loop windows (R188 to R196) -/

/-- The state of loop Tn. -/
def State.loop (s : State) (n : Nat) : LoopSt :=
  match s.field.loops.find? (·.1 == n) with
  | some x => x.2
  | none => LoopSt.reset

/-- The state with loop Tn changed. -/
def State.modLoop (s : State) (n : Nat) (g : LoopSt → LoopSt) : State :=
  s.modField fun f => { f with loops := (n, g (s.loop n)) :: f.loops.filter (·.1 != n) }

/-- The classes of *Table: Loop current classification* (R206). -/
def clInRange : Nat := 0
def clBelow : Nat := 1
def clAbove : Nat := 2
def clFailSignal : Nat := 3
def clLoopFault : Nat := 4
def clOpen : Nat := 5

/-- The class of a corrected current of num / den nA (R190). -/
def loopClass (num : Int) (den : Nat) (ovl dir low : Bool) : Nat :=
  if ovl || decide ((21000000 * den : Nat) ≤ num) then (if dir then clFailSignal else clLoopFault)
  else if num < (1000000 * den : Nat) then clOpen
  else if num ≤ (3600000 * den : Nat) then (if dir then clLoopFault else clFailSignal)
  else if num < (3800000 * den : Nat) then clBelow
  else if num ≤ (20500000 * den : Nat) then clInRange
  else if low then clInRange else clAbove

/-- Readback currents of the samples over a common denominator, in µA (R192). -/
def State.readbacks (s : State) (n : Nat) (supplied : Bool) (ws : List WinSample) : List Int × Nat :=
  if supplied then (ws.map fun w => (w.ir : Int), 1)
  else (ws.map fun w => w.p * 1000000, s.fld (A.hrtLrb n) F.hrtLrb_rb)

/-- The least headroom of the samples in nV (R194). -/
def State.headroom (s : State) (n ts : Nat) (ws : List WinSample) : Option Int :=
  let r : Int := s.rlead ts + s.rlead n
  (ws.map fun w => (w.vts - w.p) * 1000000 - (w.ir : Int) * r).min?

/-- The flags of a loop window as HRT_LSTATUS holds them: those set together report one error, whose ADDR is their mask
(*Table: Error entry*, source 38). -/
def State.loopFlags (s : State) (n : Nat) (fs : List Fld) : State :=
  if fs.isEmpty then s
  else
    let m := fs.foldl (fun m f => m + 2 ^ f.lo) 0
    (fs.foldl (fun s f => s.event (A.hrtLstatus n) f) s).raise 38 n 0 0 (BitVec.ofNat 32 m) s.tbc

/-- The flag a class names (R190). -/
def classFlag (k : Nat) : List Fld :=
  if k = clOpen then [F.hrtLstatus_open]
  else if k = clFailSignal then [F.hrtLstatus_failsignal]
  else if k = clLoopFault then [F.hrtLstatus_loopfault]
  else []

/-- Headroom and LOWHEAD_NOW at the close of a loop window (R194, R195). -/
def State.loopHeadroom (s : State) (n : Nat) (sup : Option Nat) (ws : List WinSample) : State :=
  let a := A.hrtLstate n
  match sup.bind fun ts => s.headroom n ts ws with
  | none => s.setFld a F.hrtLstate_head 0xFFFF
  | some h =>
    let q := quant h 1000000
    let k := s.nextFree
    let s := if 0 ≤ q ∧ q < 65535 then s.setFld a F.hrtLstate_head q.toNat
      else k.2.setFld a F.hrtLstate_head (Config.freeWord k.1).toNat
    let hmin : Int := s.fld (A.hrtLcfg n) F.hrtLcfg_hmin * 100000000
    if h < hmin then s.setBit a F.hrtLstate_lowheadnow true
    else if hmin + 500000000 ≤ h then s.setBit a F.hrtLstate_lowheadnow false
    else s

/-- The comparison of a loop current of num / den nA with the readback (R193). -/
def State.loopCompare (s : State) (n : Nat) (num : Int) (den : Nat) (ir : List Int × Nat) : State :=
  match ir.1 with
  | [a, b, c] =>
    let hi := Max.max a (Max.max b c)
    let lo := Min.min a (Min.min b c)
    if (200 * ir.2 : Nat) < hi - lo then s
    else
      -- |i − Ir| > 50 µA + Ir / 100, with Ir = (a + b + c) / (3 d) µA and i = num / (1000 den) µA
      let d3 : Int := (3 * ir.2 : Nat)
      let sum := a + b + c
      let diff := (num * d3 - sum * 1000 * den).natAbs * 100
      let x := s.loop n
      if (100 * 50 * 1000 * den * d3 + sum * 1000 * den).toNat < diff then
        let s := s.modLoop n fun x => { x with mismatches := x.mismatches + 1, agreements := 0 }
        if 3 ≤ x.mismatches + 1 then s.setBit (A.hrtLstate n) F.hrtLstate_xmisnow true else s
      else
        let s := s.modLoop n fun x => { x with mismatches := 0, agreements := x.agreements + 1 }
        if 3 ≤ x.agreements + 1 then s.setBit (A.hrtLstate n) F.hrtLstate_xmisnow false else s
  | _ => s

/-- A loop window is converted: its current, class, headroom, cross-check and flags, and the status and value it
posts (R188 to R196). -/
def State.loopResult (s : State) (p : Nat) (d : Desc) (r : RawResult) : Nat × TWord × State :=
  let n := d.psel
  let a := A.hrtLstate n
  let rb := s.fld (A.hrtLrb n) F.hrtLrb_rb
  let gain := sgn 16 (s.fld (A.hrtLgain n) F.hrtLgain_gain)
  let ofs := sgn 16 (s.fld (A.hrtLofs n) F.hrtLofs_ofs)
  let den : Nat := 2 ^ 24 * rb
  let num := r.code * 5000000 * (1000000 + gain) + ofs * den
  let sup := s.supplyOf d
  let ir := s.readbacks n sup.isSome r.samples
  let s0 := s
  let s := s.setFld (A.hrtLcur n) F.hrtLcur_ia (clip16 num (den * 1000))
  let s := if r.samples.isEmpty then s
    else s.setFld (A.hrtLcur n) F.hrtLcur_ir (clip16 ir.1.sum (ir.1.length * ir.2))
  let s := (s.loopHeadroom n sup r.samples).loopCompare n num den ir
  let low := s.bit a F.hrtLstate_lowheadnow
  let k := loopClass num den r.ovl (s.bit (A.hrtLcfg n) F.hrtLcfg_dir) low
  let was := s.fld a F.hrtLstate_class
  let s := s.setFld a F.hrtLstate_class k
  let fresh := (s.loop n).afterWarm
  let flags :=
    (if fresh || decide (k ≠ was) then classFlag k else [])
      ++ (if s.bit a F.hrtLstate_xmisnow && (fresh || !s0.bit a F.hrtLstate_xmisnow)
          then [F.hrtLstatus_xmismatch] else [])
      ++ (if low && (fresh || !s0.bit a F.hrtLstate_lowheadnow) then [F.hrtLstatus_lowheadroom] else [])
  let s := if s.bit a F.hrtLstate_warmnow then s
    else (s.loopFlags n flags).modLoop n fun x => { x with afterWarm := false }
  -- the engineering value at a current of u / v nA
  let eng (s : State) (u : Int) (v : Nat) : Word × State :=
    if d.unit then s.toQ (u * 65536) (v * 1000000)
    else s.toQ (d.lo * 16000000 * v + (u - 4000000 * v) * (d.hi - d.lo)) (16000000 * v)
  let sat := decide (k = clInRange) && low && decide ((20000000 * den : Nat) ≤ num)
  let s := s.setBit a F.hrtLstate_sat sat
  if r.ovl then
    let x := eng s num den
    (stOverrange, ⟨x.1, .bad⟩, x.2)
  else if k = clOpen then (stOpen, s.held p .bad, s)
  else if k = clInRange then
    if sat then (stLowHeadroom, s.held p .uncertain, s)
    else
      let x := eng s num den
      if low then (stLowHeadroom, ⟨x.1, .uncertain⟩, x.2)
      else (stOk, ⟨x.1, .good⟩, x.2.modLoop n fun l => { l with okIa := some (clip16 num (den * 1000)) })
  else
    let x := eng s (if num < (3800000 * den : Nat) then 3800000 else 20500000) 1
    (stOverrange, ⟨x.1, .bad⟩, x.2)

/-! ## The result of a window (R143, R169, R170, R220) -/

/-- The converted value of a code that is OK or overloaded: status by conversion, value and worst tag (R211). `div` is
2 for the sum of a pair's codes. -/
def State.convert (s : State) (d : Desc) (code : Int) (div range : Nat) (stamp : Stamp) :
    Nat × Word × Tag × State :=
  match d.kind with
  | 0 =>
    let x := s.voltValue d code range
    (stOk, x.1, .good, x.2)
  | 1 =>
    let x := s.rtdValue d code div range
    (x.1, x.2, .good, s)
  | _ => s.tcValue d code range stamp

/-- The result of a window that closed with `status` fixed so far, posted with the value and tag of R170. -/
def State.postResult (s : State) (d : Desc) (r : RawResult) (status : Nat) (code : Int) (div : Nat) : State :=
  if status = stCmFault ∨ status = stOpen then s.postHeld r.slot status .bad r.stamp
  else if status = stRanging then s.postHeld r.slot status .uncertain r.stamp
  else if d.kind = 3 then
    let x := s.loopResult r.slot d r
    x.2.2.post r.slot x.2.1 x.1 r.stamp
  else
    let x := s.convert d code div r.range r.stamp
    let (st, tag) : Nat × Tag :=
      if status = stOverrange then (stOverrange, if r.wider then .uncertain else .bad)
      else if x.1 = stOverrange then (stOverrange, .bad) else (stOk, .good)
    x.2.2.2.post r.slot (s.worsen d ⟨x.2.1, tag.worst x.2.2.1⟩) st r.stamp

end Sys2Proof.Machine
end

