-- ==== Sys2Proof/Machine/Modems.lean ====
section
/-! DEFINITION. What the HART modems and loop switches share: aborts, lost terminals, warm-up and the variables a poll
reads (R196 to R206). -/

namespace Sys2Proof.Machine

/-- HRT_MSTATE.STATE (R206): 0 idle, 1 sending, 2 awaiting reply, 3 receiving, 4 reply complete. -/
def State.modem (s : State) (h : Nat) : Nat := s.fld (A.hrtMstate h) F.hrtMstate_state

/-- Whether modem h is idle or in reply complete. -/
def State.modemFree (s : State) (h : Nat) : Bool := s.modem h == 0 || s.modem h == 4

/-- Modem h enters a state. -/
def State.setModem (s : State) (h n : Nat) : State := s.setFld (A.hrtMstate h) F.hrtMstate_state n

/-- Modem h aborts: a partial reply is discarded, ABORTED is set and STATE is idle (R201). -/
def State.abortModem (s : State) (h : Nat) : State :=
  let a := A.hrtMstate h
  let s := if s.modem h = 4 then s else (s.setFld a F.hrtMstate_rxlen 0).setFld a F.hrtMstate_erridx 0xFF
  ((s.setModem h 0).setFld a F.hrtMstate_cd 0).event (A.hrtMstatus h) F.hrtMstatus_aborted

/-- The terminal of every modem connected to n leaves loop use (R201). -/
def State.loseTerminal (s : State) (n : Nat) : State :=
  (List.range 4).foldl
    (fun s h =>
      if s.fld (A.hrtMcfg h) F.hrtMcfg_term = n then
        ((s.abortModem h).event (A.hrtMstatus h) F.hrtMstatus_termlost).setFld (A.hrtMcfg h) F.hrtMcfg_term 0x3F
      else s) s

/-- Terminal n's loop switch opens, its request is cancelled and a modem on it loses its terminal (R106, R201). -/
def State.dropLoop (s : State) (n : Nat) : State := (s.openLoop n).loseTerminal n

/-- Terminal n's loop switch closes; the warm-up of every loop it supplies begins (R196). -/
def State.closeLoop (s : State) (n : Nat) : State :=
  let s := (s.cancelPermit n true).setBit (A.trmState n) F.trmState_loopsw true
  (List.range 48).foldl
    (fun s m =>
      if s.fld (A.hrtLcfg m) F.hrtLcfg_sup = n ∧ s.fld (A.hrtLcfg m) F.hrtLcfg_warm ≠ 0 then
        s.setBit (A.hrtLstate m) F.hrtLstate_warmnow true
      else s) s

/-! ## HART variables (R205) -/

/-- num × 2^e rounded to nearest, halves away from 0, for e of either sign. -/
def scaleRound (num : Nat) (up down : Nat) : Nat := (2 * num * 2 ^ up + 2 ^ down) / (2 ^ (down + 1))

/-- Magnitude in 1/65536, and whether it is a number, of an IEEE 754 single precision word. -/
def ieeeQ (w : Word) : Nat × Bool :=
  let e := bits8 (w.toNat / 2 ^ 23)
  let f := w.toNat % 2 ^ 23
  if e = 255 then (0, false)
  else
    let m := if e = 0 then f else f + 2 ^ 23
    let x := if e = 0 then 1 else e
    -- m × 2^(x − 150 + 16)
    (scaleRound m (x - 134) (134 - x), true)
where
  /-- The low eight bits. -/
  bits8 (n : Nat) : Nat := n % 256

/-- The Q16.16 value of an IEEE 754 word and whether it stands: beyond the range it saturates, and a NaN or infinity
gives 0 (R205). -/
def ieeeToQ (w : Word) : Word × Bool :=
  let p := ieeeQ w
  if !p.2 then (0, false)
  else if w.getLsbD 31 then
    if 0x80000000 < p.1 then (0x80000000#32, false) else (BitVec.ofInt 32 (-(p.1 : Int)), true)
  else if 0x7FFFFFFF < p.1 then (0x7FFFFFFF#32, false)
  else (BitVec.ofNat 32 p.1, true)

/-- The tag of a variable of command `cmd` (*Table: HART variable tags*). -/
def hartTag (dev : Byte) (vs : Option Byte) : Tag :=
  if dev.getLsbD 7 then .bad
  else
    match vs with
    | some b =>
      match b.toNat / 64 with
      | 0 => .bad
      | 2 => .substituted
      | 1 => .uncertain
      | _ => .good
    | none => if dev.getLsbD 0 || dev.getLsbD 1 || dev.getLsbD 3 then .uncertain else .good

/-- The ring-111 record of one variable of loop Tm (R205). -/
def hartRecord (tm : Nat) (dev : Byte) (v : HartVar) (stamp : Stamp) : InRec :=
  let q := ieeeToQ v.ieee
  let st : Byte := match v.status with | some b => b | none => 0xFF
  let pay : BitVec 64 := BitVec.ofNat 64
    (v.ieee.toNat + 2 ^ 32 * v.index.toNat + 2 ^ 40 * v.unit.toNat + 2 ^ 48 * st.toNat + 2 ^ 56 * dev.toNat)
  { mkRec 111 0x70 tm ⟨q.1, if q.2 then hartTag dev v.status else .bad⟩ 1 stamp 11 with payload := [pay] }

end Sys2Proof.Machine
end

