-- ==== Sys2Proof/Machine/Terminals.lean ====
section
/-! DEFINITION. Terminal cells: field supplies, mis-wiring, thermal shutdown, digital inputs, mode transitions and DO and
loop switches (R74 to R113). An event of the field side asserts the analogue condition and the time it held for; where
the digital state it needs is not there, nothing happens (DESIGN CHOICE, assumption 55). -/

namespace Sys2Proof.Machine

/-! ## Field supplies (R75, R76, R107) -/

/-- TRM_IOUT of terminal n: the current of the switch its mode uses, else 0 (R100); a measured current below the least
current limit is not in limit (R97). -/
def State.measureOut (s : State) (n : Nat) (i : BitVec 16) : State :=
  let live := s.mode n == 2 || s.mode n == 3 || s.mode n == 4
  let s := s.setFld (A.trmIout n) F.trmIout_iout (if live then i.toNat else 0)
  if i.toNat < 7000 then s.setBit (A.trmState n) F.trmState_limit false else s

/-- Group g's supply ceases to be present: its switches no longer conduct, their commanded state stands (R107). -/
def State.supplyLost (s : State) (g : Nat) : State :=
  let ts := (List.range 8).map (8 * g + ·)
  let s := s.setBit (groupAt A.trmGstate g) F.trmGstate_fldok false
  let s := s.modField fun f => { f with lost := f.lost.set g true }
  let t := ts.foldl (fun t n => if t.bit (A.trmState n) F.trmState_loopsw then t.dropLoop n else t)
    (ts.foldl State.openSwitch s)
  let t := ts.foldl (fun t n => s.noteIf t n) t
  (t.groupEvent g F.trmGstatus_fldlow).report 27 g

/-- Group g's supply becomes present: every switch whose commanded state is closed recloses through a permit; only a
presence after a loss is a return (R107). -/
def State.supplyBack (s : State) (g : Nat) : State :=
  let ts := (List.range 8).map (8 * g + ·)
  let s := s.setBit (groupAt A.trmGstate g) F.trmGstate_fldok true
  let s :=
    if s.field.lost.getD g false then
      let s := s.modField fun f => { f with lost := f.lost.set g false }
      (s.groupEvent g F.trmGstatus_fldret).report 28 g
    else s
  ts.foldl (fun s n => (s.reclose n).requestLoop n) s

/-- GROUP_MEASUREMENT (R75, R100): voltage in mV, current in mA, and the currents of the eight terminals in 0.1 mA. -/
def execGroupMeasurement (g : GroupId) (vfld ifld : BitVec 16) (iout : List (BitVec 16)) (s : State) : Out :=
  let a := groupAt A.trmGmeas g.val
  let s := (s.setFld a F.trmGmeas_vfld vfld.toNat).setFld a F.trmGmeas_ifld ifld.toNat
  let s := s.setBit (groupAt A.trmGstate g.val) F.trmGstate_overnow (decide (3000 < ifld.toNat))
  let s := (List.range 8).foldl (fun s k => s.measureOut (8 * g.val + k) (iout.getD k 0)) s
  let uv := 12000 + 500 * s.fld (groupAt A.trmGcfg g.val) F.trmGcfg_uv
  .next (
    if s.present g.val then (if vfld.toNat + 1000 < uv then s.supplyLost g.val else s)
    else if uv ≤ vfld.toNat then s.supplyBack g.val
    else s)

/-- GRP_OVER (R76). -/
def execGrpOver (g : GroupId) (s : State) : Out :=
  .next ((s.groupEvent g.val F.trmGstatus_grpover).report 26 g.val)

/-! ## Protections (R81 to R84, R104) -/

/-- A condition of a switch flagged in the TRM_STATUS of its terminal and of its leader (R104, R105). -/
def State.flagBoth (s : State) (n : Nat) (flag : Fld) : State :=
  match s.driver n with
  | some l => if l = n then s.termEvent n flag else (s.termEvent n flag).termEvent l flag
  | none => s.termEvent n flag

/-- The group of the switch of terminal n opens (R104); alone where no leader drives it. -/
def State.openDriven (s : State) (n : Nat) : State :=
  match s.driver n with
  | some l => s.openGroup l
  | none => s.openSwitch n

/-- A ring-106 change of the leader that drives terminal n, if an operation that began at `s0` made one. -/
def State.noteDriver (s0 s : State) (n : Nat) : State :=
  match s.driver n with
  | some l => s0.noteIf s l
  | none => s

/-- The leader that drives terminal n returns to its commanded state through a permit. -/
def State.recloseDriven (s : State) (n : Nat) : State :=
  match s.driver n with
  | some l => s.reclose l
  | none => s

/-- MISWIRE_DETECT (R82). -/
def execMiswireDetect (t : Term) (s : State) : Out :=
  let n := t.val
  .next (
    if s.miswired n then s
    else
      let u := ((s.setBit (A.trmState n) F.trmState_miswirenow true).openDriven n).dropLoop n
      let u := u.leaveTerminal n .bad none
      let u := (u.flagBoth n F.trmStatus_miswire).report 20 n
      (s.noteDriver u n).evalTrips)

/-- MISWIRE_CLEAR (R83). -/
def execMiswireClear (t : Term) (s : State) : Out :=
  let n := t.val
  .next (
    if s.miswired n then
      (((s.setBit (A.trmState n) F.trmState_miswirenow false).recloseDriven n).requestLoop n).evalTrips
    else s)

/-- OVERTEMP_SHUTDOWN (R84). -/
def execOvertempShutdown (t : Term) (s : State) : Out :=
  let n := t.val
  .next (
    if s.bit (A.trmState n) F.trmState_overtempnow then s
    else
      let u := (s.setBit (A.trmState n) F.trmState_overtempnow true).openDriven n
      s.noteDriver ((u.flagBoth n F.trmStatus_overtemp).report 21 n) n)

/-- THERMAL_RESTART (R84). -/
def execThermalRestart (t : Term) (s : State) : Out :=
  let n := t.val
  .next (
    if s.bit (A.trmState n) F.trmState_overtempnow then
      (s.setBit (A.trmState n) F.trmState_overtempnow false).recloseDriven n
    else s)

/-! ## Digital inputs (R85 to R93) -/

/-- DI_THRESHOLD_CROSSING (R88): the comparator of a terminal in DI mode changes. -/
def execDiThresholdCrossing (t : Term) (level : Bool) (s : State) : Out :=
  .next (
    if s.inMode t.val 1 then
      s.modCell t.val fun c =>
        if level then { c with raw := true, rise := s.tbc } else { c with raw := false, fall := s.tbc }
    else s)

/-- FILTERED_LEVEL_CHANGE (R87, R88, R362): an episode opens at the crossing that produced the level, and the trip
matrix sees the level at once. -/
def execFilteredLevelChange (t : Term) (level : Bool) (s : State) : Out :=
  let n := t.val
  let a := A.trmState n
  .next (
    if s.inMode n 1 && (s.bit a F.trmState_level != level) then
      let u := s.setBit a F.trmState_level level
      let c := s.cell n
      let u :=
        if c.initial || c.episode.isSome || level == s.bit a F.trmState_di then u
        else
          let e : Episode := ⟨if level then c.rise else c.fall, s.fld (A.trmDeb n) F.trmDeb_deb⟩
          u.modCell n fun c => { c with episode := some e }
      u.evalTrips
    else s)

/-- A confirmed edge of terminal n is released to the TSU (R90 to R92, R115). -/
def State.releaseEdge (s : State) (n : Nat) (rising : Bool) (stamp : Stamp) : State :=
  let sel := s.fld (A.trmDi n) F.trmDi_edge
  let passed := if rising then sel % 2 = 1 else sel / 2 = 1
  if ¬passed ∨ s.fld A.tsuCtrl F.tsuCtrl_en = 0 then s
  else if 256 ≤ s.fld A.tsuLevel F.tsuLevel_level then
    ((s.satInc A.tsuLevel F.tsuLevel_lost).event A.tsuStatus F.tsuStatus_overflow).modField
      fun f => { f with lostMark := true }
  else
    let src := (if s.field.lostMark then 32768 else 0) + (if rising then 16384 else 0) + n
    let s := (s.inc A.tsuLevel F.tsuLevel_level).modField fun f => { f with lostMark := false }
    s.send (mkRec 104 0x10 src TWord.zero 0 stamp islandTerm)

/-- DEBOUNCE_EXPIRY (R87). -/
def execDebounceExpiry (t : Term) (s : State) : Out :=
  let n := t.val
  let a := A.trmState n
  .next (
    match (s.cell n).episode with
    | none => s
    | some e =>
      let u := s.modCell n fun c => { c with episode := none }
      let l := s.bit a F.trmState_level
      if l == s.bit a F.trmState_di then u.satInc (A.trmCnt n) F.trmCnt_glitches
      else ((u.setBit a F.trmState_di l).releaseEdge n l e.stamp).termEvent n F.trmStatus_dichange)

/-- DI_INITIAL_LEVEL (R89). -/
def execDiInitialLevel (t : Term) (s : State) : Out :=
  let n := t.val
  .next (
    if s.inMode n 1 && (s.cell n).initial then
      (s.setBit (A.trmState n) F.trmState_di (s.bit (A.trmState n) F.trmState_level)).modCell n
        fun c => { c with initial := false }
    else s)

/-! ## Command latches (R349, R372) -/

/-- The three latches of terminal n hold `b`; the change of majority is to be journaled (R376). -/
def State.setLatches (s : State) (n : Nat) (b : Bool) : State :=
  let a := A.outState n
  let was := s.voted n
  let s := (s.setFld a F.outState_latch (if b then 7 else 0)).setBit a F.outState_voted b
  if was == b then s else s.modField fun f => { f with outDirty := true }

/-- Whether some terminal is in a transition toward DO mode. -/
def State.doComing (s : State) : Bool :=
  (List.range 48).any fun n => s.busy n && s.fld (A.trmMode n) F.trmMode_mode == 2

/-- RESTORE_DONE once the lamp room is ready and every leader has been loaded (R376, DEDUCED, assumption 56). -/
def State.restoreDone (s : State) : State :=
  if s.frame.f0.isSome && !s.field.leadersDone && !s.doComing then
    (s.event A.outStatus F.outStatus_restoredone).modField fun f => { f with leadersDone := true }
  else s

/-- A leader entering DO mode before the first voted frame is loaded with its kept state or SAFE value, hold as off
(R376). -/
def State.loadLeader (s : State) (n : Nat) : State :=
  let restore := s.bit (A.outCfg n) F.outCfg_restore
  let known := s.field.keptValid.getLsbD n
  let on := if restore && known then s.field.keptOn.getLsbD n
    else decide (s.fld (A.outCfg n) F.outCfg_safepol = 1)
  let s := s.setLatches n on
  let s := (s.setBit (A.outState n) F.outState_kept on).setBit (A.outState n) F.outState_keptvalid (restore && known)
  if restore && !known then s.event A.outStatus F.outStatus_keptmissing else s

/-! ## Modes (R108 to R111) -/

/-- DO_MEMBER terminals of group g that no leader covers but one covered at `s0` open their switch and set ORPHAN
(R103). -/
def State.orphan (s0 s : State) (g : Nat) : State :=
  ((List.range 8).map (8 * g + ·)).foldl
    (fun s m =>
      if (s0.leaderOf m).isSome && s.inMode m 3 && (s.leaderOf m).isNone then
        ((s.cancelPermit m false).openSwitch m).termEvent m F.trmStatus_orphan
      else s) s

/-- The gate of terminal n is ordered by nothing: GOV 00, CMD 0, ORDERED 0 (R108). -/
def State.noOrder (s : State) (n : Nat) : State :=
  let s := (s.showOrder n (0, false)).setBit (A.outState n) F.outState_pending false
  s.setBit (A.trmState n) F.trmState_offlatched false

/-- A manual source on terminal n is switched off (R108, R118). -/
def State.dropManual (s : State) (n : Nat) : State :=
  (List.range 16).foldl
    (fun s i =>
      if s.owner i = 0xE ∧ s.fld (A.excState i) F.excState_term = n then s.sourceOff i else s) s

/-- The cell leaves its mode: step 1 of R108, and step 2 as far as the stages' discharge. -/
def State.leaveMode (s : State) (n : Nat) : State :=
  let s0 := s
  match s.mode n with
  | 1 =>
    let s := s.setBit (A.trmState n) F.trmState_busy true
    s.modCell n fun c => { c with episode := none, initial := false }
  | 2 =>
    let s := (s.openGroup n).setBit (A.trmState n) F.trmState_busy true
    s0.orphan ((s.setLatches n false).noOrder n) (n / 8)
  | 3 => ((s.cancelPermit n false).openSwitch n).setBit (A.trmState n) F.trmState_busy true
  | 4 =>
    ((s.dropLoop n).setBit (A.trmState n) F.trmState_busy true).leaveTerminal n .uncertain (some n)
  | 0 => s.setBit (A.trmState n) F.trmState_busy true
  | _ =>
    ((s.setBit (A.trmState n) F.trmState_busy true).leaveTerminal n .uncertain (some n)).dropManual n

/-- TRM_MODE of terminal n has been written: a transition starts, or its target is replaced (R108, R109). -/
def State.modeWritten (s : State) (n : Nat) : State :=
  if s.busy n || s.fld (A.trmMode n) F.trmMode_mode == s.mode n then s else (s.leaveMode n).evalTrips

/-- The cell enters its new mode: step 3 of R108. -/
def State.enterMode (s : State) (n : Nat) : State :=
  match s.mode n with
  | 1 => s.modCell n fun c => { c with raw := false, episode := none, initial := true }
  | 2 =>
    let s := s.setLatches n false
    let s := if s.field.loading then s.loadLeader n else s
    let v := s.safeValue n
    let s := s.modCell n fun c => { c with safeVal := v }
    let p := s.governing n
    let u := (s.showOrder n p).driveGate n p
    (if s.field.loading then u.noteOut n else s.noteIf u n).restoreDone
  | 3 =>
    match s.leaderOf n with
    | none => s.termEvent n F.trmStatus_orphan
    | some l => if s.sw l then s.requestPermit n false else s
  | 4 => s.requestLoop n
  | _ => s

/-- Whether a stage released by terminal n's transition still discharges (R108). -/
def State.discharging (s : State) (n : Nat) : Bool :=
  allStages.any fun k => (s.stage k.1 k.2).leaving == some n

/-- MODE_TRANSITION_END (R108): the switch is open, the clamp at rest and the released stages discharged. -/
def execModeTransitionEnd (t : Term) (s : State) : Out :=
  let n := t.val
  let a := A.trmState n
  .next (
    if s.busy n && !s.sw n && !s.bit a F.trmState_demag && !s.discharging n then
      let m := s.fld (A.trmMode n) F.trmMode_mode
      let s := ((s.setFld a F.trmState_modeact m).setBit a F.trmState_busy false).setBit a F.trmState_level false
      let s := (s.setBit a F.trmState_di false).setFld (A.trmIout n) F.trmIout_iout 0
      ((s.termEvent n F.trmStatus_modedone).enterMode n).evalTrips
    else s)

/-- TRM_DO of terminal n is about to become `w`: a change of a leader's PAR opens its closed group, applies, and
recloses the new group to its commanded state (R101, R103). -/
def State.doWritten (s : State) (n : Nat) (w : Word) : State :=
  let a := A.trmDo n
  if s.leader n && (F.trmDo_par.get w != s.fld a F.trmDo_par) then
    let open_ := s.sw n
    let u := if open_ then s.openGroup n else s
    let u := u.setReg a w
    let u := s.orphan u (n / 8)
    s.noteIf (u.reclose n) n
  else s.setReg a w

/-! ## DO and loop switches (R94 to R106) -/

/-- GATE_ORDER (R94, R95, R371). -/
def execGateOrder (t : Term) (s : State) : Out := .next (s.resolveGate t.val)

/-- DEMAG_END (R98). -/
def execDemagEnd (t : Term) (s : State) : Out := .next (s.setBit (A.trmState t.val) F.trmState_demag false)

/-- CURRENT_LIMIT_ENGAGE (R97): a closed switch limits. -/
def execCurrentLimitEngage (t : Term) (s : State) : Out :=
  .next (if s.sw t.val then s.setBit (A.trmState t.val) F.trmState_limit true else s)

/-- OVERLOAD (R97, R104). -/
def execOverload (t : Term) (s : State) : Out :=
  let n := t.val
  .next (
    if s.sw n then
      let u := (s.openDriven n).setBit (A.trmState n) F.trmState_offlatched true
      let u := match s.driver n with
        | some l => u.setBit (A.trmState l) F.trmState_offlatched true
        | none => u
      let u := u.satInc (A.trmCnt n) F.trmCnt_overloads
      s.noteDriver ((u.flagBoth n F.trmStatus_overload).report 22 n) n
    else s)

/-- OVERLOAD_RETRY (R97, R104): the leader's RETRY governs, and the group asks for one permit. -/
def execOverloadRetry (t : Term) (s : State) : Out :=
  .next (
    match s.driver t.val with
    | none => s
    | some l =>
      if s.bit (A.trmState l) F.trmState_offlatched && s.bit (A.trmState l) F.trmState_cmd
          && decide (s.fld (A.trmDo l) F.trmDo_retry ≠ 0) && !s.heldOpen l then
        s.noteIf (s.requestPermit l false) l
      else s)

/-- OPEN_LOAD (R99, R102): on a closed switch with OL_ON or an open one with OL_OFF. -/
def execOpenLoad (t : Term) (s : State) : Out :=
  let n := t.val
  .next (
    match s.driver n with
    | none => s
    | some l =>
      if s.bit (A.trmDo l) (if s.sw n then F.trmDo_olon else F.trmDo_oloff) then
        (s.termEvent n F.trmStatus_openload).report 23 n
      else s)

/-- SHARE (R105). -/
def execShare (t : Term) (s : State) : Out :=
  let n := t.val
  .next (
    match s.driver n with
    | none => s
    | some l => if s.sw l then (s.flagBoth n F.trmStatus_share).report 24 n else s)

/-- LOOP_SHORT (R106, R201). -/
def execLoopShort (t : Term) (s : State) : Out :=
  let n := t.val
  .next (
    if s.bit (A.trmState n) F.trmState_loopsw then
      let s := (s.dropLoop n).modCell n fun c => { c with retrying := true }
      (s.termEvent n F.trmStatus_loopshort).report 25 n
    else s)

/-- LOOP_RETRY (R106). -/
def execLoopRetry (t : Term) (s : State) : Out :=
  let n := t.val
  .next (
    if (s.cell n).retrying && s.loopOrdered n && !s.miswired n then
      (s.modCell n fun c => { c with retrying := false }).requestPermit n true
    else s)

/-- TRM_LOOP of terminal n has been written: PWR 0 opens its loop switch, PWR 1 asks for its closing (R106, R201). -/
def State.loopWritten (s : State) (n : Nat) : State :=
  if s.inMode n 4 then
    if s.bit (A.trmLoop n) F.trmLoop_pwr then s.requestLoop n else s.dropLoop n
  else s

end Sys2Proof.Machine
end

