-- ==== Sys2Proof/Machine/Outputs.lean ====
section
/-! DEFINITION. The trip matrix's configuration and checks, the SAFE reaction at the gates, and the start permits (R362
to R384). -/

namespace Sys2Proof.Machine

/-! ## Trip terms -/

/-- TRP_CFG of term k has been written: EN 0 clears its latch and its assertion, EN 1 evaluates it (R369). -/
def State.trpCfgWritten (s : State) (k : Nat) : State :=
  (if s.bit (A.trpCfg k) F.trpCfg_en then s else s.setBitAt A.trpLatched k false).evalTrips

/-- A write of TRP_RESET: a term's latch is reset while its logic value is 0 (R363). -/
def State.resetTerms (s : State) (w : Word) : State :=
  ((List.range 32).foldl
    (fun t k => if w.getLsbD k && !s.termLogic k then t.setBitAt A.trpLatched k false else t) s).evalTrips

/-- DUP_MISMATCH (R366): one copy asserts term n alone, and either copy's assertion and latch count. -/
def execDupMismatch (n : TripId) (s : State) : Out :=
  let k := n.val
  let u := if s.bit (A.trpCfg k) F.trpCfg_latch then s.setBitAt A.trpLatched k true else s
  let u := if (s.reg A.trpAssert).getLsbD k then u else u.assertTerm k
  let u := (u.event A.trpStatus F.trpStatus_dupmismatch).satInc A.trpCnt F.trpCnt_mismatches
  .next ((List.range 48).foldl State.resolveGate (u.report 61 k))

/-- LATCH_SCRUB (R366): each configuration cell found to differ is rewritten from the other two. -/
def execLatchScrub (found : List TripId) (s : State) : Out :=
  .next (found.foldl
    (fun s n =>
      ((s.event A.trpStatus F.trpStatus_latchcorr).satInc A.trpCnt F.trpCnt_corrections).report 62 n.val) s)

/-! ## The SAFE reaction at the gates (R374, R375, R560, R561) -/

/-- A SAFE reaction comes into force: every leader's SAFE value is taken, and every gate follows. -/
def State.safeOn (s : State) : State :=
  if s.safeNow then s
  else
    let s := (s.setFld A.outSafe F.outSafe_safenow 1).setFld A.fltState F.fltState_safenow 1
    let s := (List.range 48).foldl (fun t n => let v := s.safeValue n; t.modCell n fun c => { c with safeVal := v }) s
    ((List.range 48).foldl State.resolveGate s).evrEvent 8 1 0 s.tbc

/-- The SAFE reaction is released: every gate passes to its next source. -/
def State.safeOff (s : State) : State :=
  if s.safeNow then
    let s := (s.setFld A.outSafe F.outSafe_safenow 0).setFld A.fltState F.fltState_safenow 0
    ((List.range 48).foldl State.resolveGate s).evrEvent 8 0 0 s.tbc
  else s

/-! ## Start permits (R378 to R381) -/

/-- Priority of a request: PRIO of the leader for a DO switch, LPRIO for a loop switch (R379). -/
def State.permitPrio (s : State) (r : PermitReq) : Nat :=
  if r.loop then s.fld (A.outCfg r.term) F.outCfg_lprio
  else
    s.fld (A.outCfg (match s.driver r.term with | some l => l | none => r.term)) F.outCfg_prio

/-- Whether request a stands before b in queue order: PRIO, then tick, then terminal (R379). -/
def State.permitBefore (s : State) (a b : PermitReq) : Bool :=
  let pa := s.permitPrio a
  let pb := s.permitPrio b
  decide (pa < pb) ||
    (decide (pa = pb) &&
      (decide (a.tick.toNat < b.tick.toNat) ||
        (decide (a.tick = b.tick) && decide (a.term < b.term))))

/-- A request put in its place of an ordered queue. -/
def State.permitInsert (s : State) (r : PermitReq) : List PermitReq → List PermitReq
  | [] => [r]
  | x :: t => if s.permitBefore r x then r :: x :: t else x :: s.permitInsert r t

/-- Whether group g is deferred now (R380). -/
def State.groupDeferred (s : State) (g : Nat) : Bool :=
  let uv := 12000 + 500 * s.fld (groupAt A.trmGcfg g) F.trmGcfg_uv
  s.bit A.supState F.supState_fldilimnow ||
    decide (s.fld (groupAt A.trmGmeas g) F.trmGmeas_vfld < uv + 100 * s.fld A.supPmtCfg F.supPmtCfg_margin)

/-- The requests granted of an ordered queue with `units` to spend: no request overtakes one that does not fit
(R379). -/
def State.permitGrants (s : State) : List PermitReq → Nat → List PermitReq
  | [], _ => []
  | r :: t, units =>
    if s.groupDeferred (r.term / 8) then s.permitGrants t units
    else if units < s.permitCost r then []
    else r :: s.permitGrants t (units - s.permitCost r)

/-- A request as a token leaves it: deferred since the first token that found its group deferred (R380). -/
def State.deferMark (s : State) (r : PermitReq) : PermitReq :=
  if s.groupDeferred (r.term / 8) then
    { r with deferred := match r.deferred with | some t => some t | none => some s.tbc }
  else { r with deferred := none, long := false }

/-- A granted switch closes (R101, R379). -/
def State.grant (s : State) (r : PermitReq) : State :=
  let s := s.satInc A.supPmtCnt F.supPmtCnt_grants
  if r.loop then s.closeLoop r.term
  else if s.leader r.term then s.noteIf (s.closeGroup r.term) r.term
  else ((s.cancelPermit r.term false).closeSwitch r.term).setBit (A.trmState r.term) F.trmState_offlatched false

/-- Loops ordered closed that have not entered the stagger (R381). -/
def State.loopsToCome (s : State) : List Nat :=
  (List.range 48).filter fun n =>
    !(s.cell n).staggered && s.bit (A.trmLoop n) F.trmLoop_pwr
      && (s.inMode n 4 || (s.busy n && s.fld (A.trmMode n) F.trmMode_mode == 4))

/-- The next loop of a present group enters the queue, in ascending terminal order (R381). -/
def State.staggerNext (s : State) : State :=
  match s.loopsToCome.find? fun n => s.inMode n 4 && s.present (n / 8) with
  | none => s
  | some n =>
    ((s.modCell n fun c => { c with staggered := true }).modField
      fun f => { f with staggerBegan := true }).requestLoop n

/-- STAGGER_DONE once the lamp room is ready and every loop has entered (R381, DEDUCED, assumption 56). -/
def State.staggerCheck (s : State) : State :=
  if s.frame.f0.isSome && !s.field.staggerDone && s.loopsToCome.isEmpty then
    (s.event A.supPmtStatus F.supPmtStatus_staggerdone).modField fun f => { f with staggerDone := true }
  else s

/-- STAGGER_SLOT (R381). -/
def execStaggerSlot (s : State) : Out :=
  .next (if s.field.staggerBegan && !s.field.staggerDone then s.staggerNext.staggerCheck else s)

/-- PERMIT_TOKEN (R379, R380, R381). -/
def execPermitToken (s : State) : Out :=
  let s := if s.field.staggerBegan || s.field.staggerDone then s else s.staggerNext
  let s := s.staggerCheck
  let s0 := s
  let gs := List.range (s.terms / 8)
  let s := gs.foldl (fun s g => s.setBit A.supPmtState ⟨16 + g, 16 + g⟩ (s0.groupDeferred g)) s
  let s := s.satAdd A.supPmtCnt F.supPmtCnt_defers (gs.filter s0.groupDeferred).length
  let s := s.modField fun f => { f with permits := f.permits.map s0.deferMark }
  let rs := s.permitGrants (s.field.permits.foldl (fun q r => s.permitInsert r q) [])
    (s.fld A.supPmtCfg F.supPmtCfg_units)
  let units := rs.foldl (fun n r => n + s.permitCost r) 0
  .next ((rs.foldl State.grant s).setFld A.supPmtState F.supPmtState_granted units)

/-- DEFER_LONG (R380): the request deferred longest without DEFER_LONG has been deferred for more than 1 s. -/
def execDeferLong (s : State) : Out :=
  .next (
    match s.field.permits.find? fun r => r.deferred.isSome && !r.long with
    | none => s
    | some r =>
      let s := s.modField fun f => { f with permits := f.permits.map fun q =>
        { q with long := q.long || (q.term == r.term && q.loop == r.loop) } }
      (s.event A.supPmtStatus F.supPmtStatus_deferlong).report 6 (r.term / 8))

end Sys2Proof.Machine
end

