-- ==== Sys2Proof/Machine/Routing.lean ====
section
/-! DEFINITION. Routing and excitation: the setup of a stage, open tests, excitation sources with their calibration, and
the cold-junction sensors (R116 to R147, R215, R216). -/

namespace Sys2Proof.Machine

/-! ## Connection (R118, R120, R216) -/

/-- Modes a stage input may connect in (R118). -/
def inputModes : List Nat := [4, 5, 7, 6, 8, 9]
/-- Modes a source may connect in (R118). -/
def sourceModes : List Nat := [6, 9]

/-- Whether terminal n is in one of the modes and in no transition. -/
def State.modeIn (s : State) (n : Nat) (ms : List Nat) : Bool := ms.contains (s.mode n) && !s.busy n

/-- Whether every terminal of the point is in a mode R118 allows. -/
def State.modesOk (s : State) (d : Desc) : Bool :=
  d.inputs.all (fun n => s.modeIn n inputModes)
    && (d.sources false ++ d.sources true).all (fun p => s.modeIn p.2 sourceModes)
    && (d.returns false ++ d.returns true).all (fun n => s.modeIn n [6])

/-- EXC_SRC MODE of source i (R126). -/
def State.sourceMode (s : State) (i : Nat) : Nat := s.fld (A.excSrc i) F.excSrc_mode

/-- Whether every source of the point is under the sequencer's control (R126). -/
def State.sourcesOurs (s : State) (d : Desc) : Bool := d.sourceIds.all fun i => s.sourceMode i == 0

/-- Whether every source of the point is free, or converter c holds it (R122, R215). -/
def State.sourcesFree (s : State) (c : Nat) (d : Desc) : Bool :=
  d.sourceIds.all fun i => s.owner i == ownerFree || s.owner i == c

/-- Whether a terminal of the point reports MISWIRE (R82). -/
def State.pointMiswired (s : State) (d : Desc) : Bool := (s.uses d).any s.miswired

/-- The range in force of point p (R161): its own where it auto-ranges, else the fixed one. -/
def State.rangeOf (s : State) (p : Nat) : Nat := if (s.desc p).auto then (s.point p).range else (s.desc p).rwide

/-- Stage st of converter c is free with nothing connected. -/
def State.freeStage (s : State) (c st : Nat) : State :=
  s.putStage c st { StageSt.reset with freed := s.tbc }

/-- Whether a terminal of the point has its open test set (R139). -/
def State.openTested (s : State) (d : Desc) : Bool :=
  ([d.psel, d.nsel, d.rsel, d.fsel].filter (· < 48)).any fun n => s.bit (A.muxTopt n) F.muxTopt_otest

/-- Stage st connects point p: its sources switch on and its open test or steep interval begins (R120, R127, R139). -/
def State.connect (s : State) (c st p : Nat) : State :=
  let d := s.desc p
  let r := s.rangeOf p
  let s := (s.connectSources c d false).showRange c st r
  s.putStage c st { s.stage c st with
    phase := if s.openTested d then .openTest else .steep
    second := false, range := r, compl := false, otFail := false, first := none, samples := [] }

/-- The point cannot connect: a terminal is mis-wired, in a wrong mode, or a source is withdrawn (R82, R126, R216).
On a dedicated converter nothing connects and the seams report (R609). -/
def State.refuse (s : State) (c st p : Nat) : State :=
  let d := s.desc p
  let s := s.freeStage c st
  if s.dedicated c then s
  else if s.pointMiswired d then s.postHeld p stCmFault .bad s.tbc
  else if !s.modesOk d then
    ((s.postHeld p stAbandoned .uncertain s.tbc).event A.seqStatus F.seqStatus_modeskip).report 40 p
  else s.postHeld p stAbandoned .bad s.tbc

/-- DISCHARGE_END (R120, R139, R216). -/
def execDischargeEnd (c : Conv) (st : Stage) (s : State) : Out :=
  let x := s.stage c.val st.val
  .next (
    if x.phase = .discharge then
      match x.slot with
      | none => s.freeStage c.val st.val
      | some p =>
        let d := s.desc p
        if s.pointMiswired d || !s.modesOk d || !s.sourcesOurs d then s.refuse c.val st.val p
        else if s.sourcesFree c.val d then s.connect c.val st.val p
        else s
    else s)

/-- OPEN_TEST_END (R139): a sample above 1.0 V fails the test; removing the current starts the steep interval. -/
def execOpenTestEnd (c : Conv) (st : Stage) (mv : BitVec 16) (s : State) : Out :=
  let x := s.stage c.val st.val
  .next (
    if x.phase = .openTest then
      s.putStage c.val st.val { x with phase := .steep, otFail := x.otFail || decide (1000 < mv.toInt) }
    else s)

/-- STEEP_INTERVAL_END (R127). -/
def execSteepIntervalEnd (c : Conv) (st : Stage) (s : State) : Out :=
  let x := s.stage c.val st.val
  .next (if x.phase = .steep then s.putStage c.val st.val { x with phase := .ready } else s)

/-! ## Sources (R121 to R126) -/

/-- RET_LIMIT (R121). -/
def execRetLimit (t : Term) (s : State) : Out :=
  let n := t.val
  let closed := if n < 32 then (s.reg A.muxRetLo).getLsbD n else (s.reg A.muxRetHi).getLsbD (n - 32)
  .next (if closed then (s.event A.muxStatus F.muxStatus_retlimit).report 29 n else s)

/-- Whether source i is one of the sources of the point on the stage, held by its converter. -/
def State.stageHolds (s : State) (i c st : Nat) : Bool :=
  match (s.stage c st).slot with
  | none => false
  | some p => (s.desc p).sourceIds.contains i && decide (s.owner i = c)

/-- COMPLIANCE_LOST (R124, R143). -/
def execComplianceLost (i : Source) (s : State) : Out :=
  let n := i.val
  .next (
    if s.fld (A.excState n) F.excState_on = 1 then
      let s := (s.setBitAt A.excComplNow n true).event A.excStatus ⟨n, n⟩
      (allStages.foldl
        (fun s k =>
          let x := s.stage k.1 k.2
          if s.stageHolds n k.1 k.2 && (x.phase == .steep || x.phase == .ready || x.phase == .window) then
            s.putStage k.1 k.2 { x with compl := true }
          else s) s).report 31 n
    else s)

/-- COMPLIANCE_REGAINED (R124). -/
def execComplianceRegained (i : Source) (s : State) : Out := .next (s.setBitAt A.excComplNow i.val false)

/-- Whether source i may be driven in manual mode onto terminal n (R118): the terminal's mode allows a source, no
other source drives it, and its return switch is open. -/
def State.manualOk (s : State) (i n : Nat) : Bool :=
  s.modeIn n sourceModes
    && !(List.range 16).any (fun j => j != i && decide (s.fld (A.excState j) F.excState_term = n)
      && decide (s.fld (A.excState j) F.excState_on = 1))
    && !(if n < 32 then (s.reg A.muxRetLo).getLsbD n else (s.reg A.muxRetHi).getLsbD (n - 32))

/-- Whether the word puts source i on terminal n by hand (R126). -/
def manualOn (w : Word) : Option Nat :=
  if F.excSrc_mode.get w = 1 ∧ F.excSrc_manen.get w = 1 ∧ F.excSrc_manterm.get w < 48 then
    some (F.excSrc_manterm.get w)
  else none

/-- EXC_SRC of source i becomes `w`: control of the source changes, and a change of a source a point holds, or of the
current on a point's terminal, is an excitation change (R126, R128, R147). -/
def State.excWritten (s : State) (i : Nat) (w : Word) : State :=
  let old := s.fld (A.excState i) F.excState_term
  let s0 := s
  let s := s.setReg (A.excSrc i) w
  if F.excSrc_mode.get w = 0 ∧ s0.sourceMode i = 0 then s
  else
    let s :=
      match manualOn w with
      | some n => (s.sourceOff i).sourceOn i 0xE n (F.excSrc_mancode.get w)
      | none => s.sourceOff i
    let s := if s0.field.calBusy = some i then s.modField fun f => { f with calBusy := none } else s
    let new := s.fld (A.excState i) F.excState_term
    s.changeWhere fun c st =>
      s0.stageHolds i c st || (old < 48 && s.stageUses c st old) || (new < 48 && s.stageUses c st new)

/-- MUX_TOPT of terminal n becomes `w`: a change of BIAS or OTEST is an excitation change (R128, R145). -/
def State.toptWritten (s : State) (n : Nat) (w : Word) : State :=
  let a := A.muxTopt n
  let changed := F.muxTopt_bias.get w != s.fld a F.muxTopt_bias || F.muxTopt_otest.get w != s.fld a F.muxTopt_otest
  let s := s.setReg a w
  if changed then s.changeWhere fun c st => s.stageUses c st n else s

/-! ## Calibration (R125) -/

/-- Whether calibration is suspended on source i's converter: it carries points or stands in (R222). -/
def State.calSuspended (s : State) (c : Nat) : Bool :=
  !s.field.carried.isEmpty &&
    (decide (s.fld (A.seqRun c) F.seqRun_hosts ≠ 0) || decide (s.fld (A.seqRun c) F.seqRun_dedicfor ≠ 0xF))

/-- The source whose calibration is due: of a round in progress, else the next in turn (R125). -/
def State.calDue (s : State) : Option Nat :=
  match s.field.calLeft with
  | [] => if s.fld A.excCtrl F.excCtrl_calperiod = 0 then none else some s.field.calNext
  | ls => ls.find? fun i => s.owner i == ownerFree && s.sourceMode i == 0

/-- CALIBRATION_SLOT (R125): the source due is calibrated while it is free. A round passes over a source out of the
sequencer's control. -/
def execCalibrationSlot (s : State) : Out :=
  .next (
    if s.field.calBusy.isSome || s.shed then s
    else
      let s := s.modField fun f => { f with calLeft := f.calLeft.filter fun i => s.sourceMode i == 0 }
      match s.calDue with
      | none => s
      | some i =>
        if s.owner i = ownerFree ∧ s.sourceMode i = 0 ∧ ¬s.calSuspended (i / 2) then
          let k := s.nextFree
          let s := k.2.sourceOn i 0xC 0x3F (Config.freeWord k.1).toNat
          s.modField fun f =>
            { f with calBusy := some i, calLeft := f.calLeft.erase i
                     calNext := if f.calLeft.isEmpty then (i + 1) % 16 else f.calNext }
        else s)

/-- CALIBRATION_DONE (R125): a correction of up to 1 % is applied; a larger one fails. -/
def execCalibrationDone (i : Source) (err : BitVec 16) (s : State) : Out :=
  let n := i.val
  .next (
    if s.field.calBusy = some n then
      let s := (s.sourceOff n).modField fun f =>
        { f with calBusy := none, calPending := f.calPending && !f.calLeft.isEmpty }
      if 10000 < err.toInt.natAbs then
        ((s.setBitAt A.excCalfailNow n true).event A.excStatus F.excStatus_calfail).report 32 n
      else (s.setBitAt A.excCalfailNow n false).setFld (A.excCal n) F.excCal_err err.toNat
    else s)

/-- A write of 1 to EXC_CTRL.CAL_NOW (R125): a complete round starts. -/
def State.calNow (s : State) : State := s.modField fun f => { f with calLeft := List.range 16 }

/-- CJS_READ (R142): each group's sensor, none where its read fails the plausibility check. -/
def execCjsRead (readings : List (Option Word)) (s : State) : Out :=
  let s := s.modField fun f => { f with cjsRead := some s.tbc }
  .next ((List.range (s.terms / 8)).foldl
    (fun s g =>
      match readings.getD g none with
      | some w =>
        (s.setReg (A.muxCjs g) w).modField fun f => { f with cjsTags := f.cjsTags.set g .good }
      | none =>
        ((s.modField fun f => { f with cjsTags := f.cjsTags.set g .bad }).event A.muxStatus
          F.muxStatus_cjsfail).report 30 g) s)

end Sys2Proof.Machine
end

