-- ==== Sys2Proof/Machine/Predict.lean ====
section
/-! DEFINITION. What the sequencer computes of a scan list: steep intervals, the predicted load of a cycle, and the
fallback plans (R129, R176, R217, R221). -/

namespace Sys2Proof.Machine

/-! ## Times of a point, in ticks -/

/-- Length of a window (*Table: Window lengths, scanned mode*). -/
def winTicks (win : Nat) : Nat := if win = 0 then 2000000 else if win = 1 then 1666667 else 10000000

/-- 10 × (rsrc × (cext + 0.4 nF)) in ns, as MUX_TOPT of terminal n declares it (R129, R144). -/
def State.tau10 (s : State) (n : Nat) : Nat :=
  let c := s.fld (A.muxTopt n) F.muxTopt_cext
  let cext10 := if c = 0 then 0 else 10 ^ c
  10 ^ (s.fld (A.muxTopt n) F.muxTopt_rsrc + 1) * (cext10 + 4)

/-- The computed steep interval at `range`, of which `change` says that it follows an excitation change (R129). -/
def State.steepComputed (s : State) (d : Desc) (range : Nat) (change : Bool) : Nat :=
  let tau := (d.inputs ++ [d.rsel, d.fsel].filter (· < 48)).foldl (fun m n => Nat.max m (s.tau10 n)) 0
  let n := if 2 ≤ range then 18 else 14
  let t := Nat.max 5000 (Nat.max ((n * tau + 99) / 100) (if change then 20000 else 0))
  Nat.min t 5000000

/-- The steep interval of a point: its descriptor's, or the computed one (R129). -/
def State.steepTicks (s : State) (d : Desc) (range : Nat) (second : Bool) : Nat :=
  if d.steep = 0 then s.steepComputed d range (second || !d.sourceIds.isEmpty || s.openTested d)
  else d.steep * 1000

/-- The discharge of a point, MUX_CTRL.DISCH where its descriptor gives none (R120). -/
def State.dischTicks (s : State) (d : Desc) : Nat :=
  100 * (if d.disch = 0 then s.fld A.muxCtrl F.muxCtrl_disch else d.disch)

/-! ## The cycle run through once (R217) -/

/-- A point on a stage: when it is ready, windows left, its window and second steep interval, its sources, its home
number and its place in the list. -/
structure Task where
  ready : Nat
  left : Nat
  win : Nat
  steep : Nat
  srcs : List Nat
  point : Nat
  place : Nat
  deriving DecidableEq, Repr

/-- The run: the task of each stage, the tick each stage was freed, the modulator's, each source's, the last setup's
start, and the points closed with the tick of their last window's close, newest first. -/
structure Run where
  tasks : List (Option Task)
  freed : List Nat
  modFree : Nat
  srcFree : List Nat
  setup : Nat
  place : Nat
  closed : List (Nat × Nat)
  deriving DecidableEq, Repr

/-- The stage in use that became free earlier, stage A first (R215). -/
def Run.freeStage (r : Run) : Option Nat :=
  let free := (List.range r.tasks.length).filter fun i => (r.tasks.getD i none).isNone
  match free with
  | [] => none
  | [i] => some i
  | i :: j :: _ => if r.freed.getD j 0 < r.freed.getD i 0 then some j else some i

/-- Point p with descriptor d takes a stage, if one is free and no task holds its sources (R215). -/
def State.runAssign (s : State) (r : Run) (p : Nat) (d : Desc) : Option Run :=
  let held := (r.tasks.filterMap id).any fun t => t.srcs.any d.sourceIds.contains
  match r.freeStage with
  | none => none
  | some i =>
    if held then none
    else
      let start := d.sourceIds.foldl (fun m k => Nat.max m (r.srcFree.getD k 0))
        (Nat.max (r.freed.getD i 0) r.setup)
      let range := if d.auto then d.rnarrow else d.rwide
      let test := if s.openTested d then 2000 else 0
      let t : Task := ⟨start + s.dischTicks d + test + s.steepTicks d range false, if d.pair then 2 else 1,
        winTicks d.win, s.steepTicks d range true, d.sourceIds, p, r.place⟩
      some { r with tasks := r.tasks.set i (some t), setup := start, place := r.place + 1 }

/-- The stage whose window opens next: the one ready first, the earlier point where both are (R152). -/
def Run.nextWindow (r : Run) : Option (Nat × Task) :=
  (r.tasks.zipIdx).foldl
    (fun b x =>
      match x.1, b with
      | none, _ => b
      | some t, none => some (x.2, t)
      | some t, some (i, u) =>
        let ot := Nat.max t.ready r.modFree
        let ou := Nat.max u.ready r.modFree
        if ot < ou ∨ (ot = ou ∧ (t.ready < u.ready ∨ (t.ready = u.ready ∧ t.place < u.place))) then some (x.2, t)
        else some (i, u)) none

/-- That window opens and closes. -/
def Run.window (r : Run) (i : Nat) (t : Task) : Run :=
  let close := Nat.max t.ready r.modFree + t.win
  if 1 < t.left then
    { r with modFree := close, tasks := r.tasks.set i (some { t with ready := close + t.steep, left := t.left - 1 }) }
  else
    { r with
      modFree := close, tasks := r.tasks.set i none, freed := r.freed.set i close
      srcFree := t.srcs.foldl (fun l k => l.set k close) r.srcFree
      closed := (t.point, close) :: r.closed }

/-- The run of the points left, `fuel` bounding its windows and assignments. -/
def State.runList' (s : State) : Nat → Run → List (Nat × Desc) → Run
  | 0, r, _ => r
  | fuel + 1, r, [] =>
    match r.nextWindow with
    | none => r
    | some (i, t) => s.runList' fuel (r.window i t) []
  | fuel + 1, r, (p, d) :: ps =>
    match s.runAssign r p d with
    | some r' => s.runList' fuel r' ps
    | none =>
      match r.nextWindow with
      | none => r
      | some (i, t) => s.runList' fuel (r.window i t) ((p, d) :: ps)

/-- The cycle of a list on `stages` stages. -/
def State.runCycle (s : State) (stages : Nat) (ps : List (Nat × Desc)) : Run :=
  s.runList' (4 * ps.length + 4)
    ⟨List.replicate stages none, List.replicate stages 0, 0, List.replicate 16 0, 0, 0, []⟩ ps

/-- The predicted load of a list: 256 × B / (CYCLE × period), rounded up (R217). -/
def State.predict (s : State) (stages cycle period : Nat) (ps : List (Nat × Desc)) : Nat :=
  let b := (s.runCycle stages ps).modFree
  if cycle * period = 0 then 0 else (256 * b + cycle * period - 1) / (cycle * period)

/-! ## A scan set: descriptors, list settings and the period -/

/-- A set of scan lists, staged or active: every word by its place, the list settings and the period in ticks. -/
structure ScanSet where
  desc : List (Nat × Desc)
  dedic : List Bool
  cycle : List Nat
  period : Nat
  deriving DecidableEq, Repr

/-- Words of a set: `copy` holds those that differ from their reset values, at staging addresses. -/
def copyWord (copy : List (Nat × Word)) (a : Nat) : Word := sget (resetWord a) copy a

/-- The set a staging copy describes; only its enabled descriptors are listed (R212). -/
def scanSet (copy : List (Nat × Word)) : ScanSet where
  desc := (List.range 512).filterMap fun p =>
    let d := mkDesc fun i => copyWord copy (A.sdMode p + 4 * i)
    if d.en then some (p, d) else none
  dedic := (List.range 8).map fun c => F.seqClist_dedic.get (copyWord copy (A.seqClist c)) == 1
  cycle := (List.range 8).map fun c => F.seqClist_cycle.get (copyWord copy (A.seqClist c))
  period := 100 * F.seqFrame_period.get (copyWord copy A.seqFrame)

/-- The active set. -/
def State.activeSet (s : State) : ScanSet where
  desc := (List.range 512).filterMap fun p =>
    let d := s.desc p
    if d.en then some (p, d) else none
  dedic := (List.range 8).map fun c => s.fld (A.seqClistAct c) F.seqClist_dedic == 1
  cycle := (List.range 8).map fun c => s.fld (A.seqClistAct c) F.seqClist_cycle
  period := s.frame.period

/-- The enabled points of converter c. -/
def ScanSet.list (t : ScanSet) (c : Nat) : List (Nat × Desc) := t.desc.filter fun x => x.1 / 64 == c

/-- Stages in use of converter c. -/
def State.stagesOf (s : State) (c : Nat) : Nat :=
  ((List.range 2).filter fun st =>
    !s.bit (A.asyState c) (if st = 0 then F.asyState_stgaout else F.asyState_stgbout)).length

/-- The predicted load of converter c with points `extra` added after its own: 256 in dedicated mode (R176). -/
def State.loadOf (s : State) (t : ScanSet) (c : Nat) (extra : List (Nat × Desc)) : Nat :=
  if t.dedic.getD c false then 256
  else s.predict (s.stagesOf c) (t.cycle.getD c 1) t.period (t.list c ++ extra)

/-- Whether converter c is failed or its EN is 0. -/
def State.converterDown (s : State) (c : Nat) : Bool :=
  s.fld (A.asyState c) F.asyState_state == 3 || s.fld (A.asyCtrl c) F.asyCtrl_en == 0

/-- Converters c+1, c+2 and so on modulo 8, without c (R221). -/
def after8 (c : Nat) : List Nat := (List.range 7).map fun i => (c + 1 + i) % 8

/-- The points of converter c in descending order of their share of B: what each adds to the close of the cycle's last
window (R221, DEDUCED, assumption 58). -/
def State.byShare (s : State) (t : ScanSet) (c : Nat) : List (Nat × Desc) :=
  let closed := (s.runCycle (s.stagesOf c) (t.list c)).closed.reverse
  let shares := (closed.foldl (fun (a : List (Nat × Nat) × Nat) x =>
    (a.1 ++ [(x.1, x.2 - a.2)], Nat.max a.2 x.2)) ([], 0)).1
  let sorted := shares.foldl (fun l x => insertShare x l) []
  sorted.filterMap fun x => (t.list c).find? fun y => y.1 == x.1
where
  /-- A share put in its place, larger ones first. -/
  insertShare (x : Nat × Nat) : List (Nat × Nat) → List (Nat × Nat)
    | [] => [x]
    | y :: l => if y.2 < x.2 then x :: y :: l else y :: insertShare x l

/-- The points placed one by one on the converters of `ds` that can take them, as pairs of home number and recipient
(R221). -/
def State.place (s : State) (t : ScanSet) (ds : List Nat) :
    List (Nat × Desc) → List (Nat × Desc × Nat) → Option (List (Nat × Desc × Nat))
  | [], acc => some acc
  | (p, d) :: ps, acc =>
    let fits (c : Nat) : Bool :=
      !t.dedic.getD c false && !s.converterDown c &&
        decide (s.loadOf t c (((acc.filter fun x => x.2.2 == c).map fun x => (x.1, x.2.1)) ++ [(p, d)]) ≤ 256)
    match ds.find? fits with
    | none => none
    | some c => s.place t ds ps (acc ++ [(p, d, c)])

/-- The fallback plan of converter c (R221). -/
def State.planFor (s : State) (t : ScanSet) (c : Nat) : Plan :=
  if t.dedic.getD c false then
    let try_ (d : Nat) : Option (List (Nat × Nat)) :=
      if t.dedic.getD d false || s.converterDown d then none
      else
        match s.place t ((after8 d).filter (· != c)) (s.byShare t d) [] with
        | none => none
        | some ms => some (ms.map fun m => (m.1, m.2.2))
    match (after8 c).findSome? fun d => (try_ d).map fun ms => (d, ms) with
    | none => .none
    | some (d, ms) => .standIn d ms
  else
    match s.place t (after8 c) (s.byShare t c) [] with
    | none => .none
    | some ms => .moved (ms.map fun m => (m.1, m.2.2))

/-- Whether a plan leaves converter c uncovered (R213, R222). -/
def Plan.missing : Plan → Bool
  | .none => true
  | _ => false

/-- SEQ_PLAN of converter c (R226). -/
def State.showPlan (s : State) (t : ScanSet) (c : Nat) (p : Plan) : State :=
  let a := A.seqPlan c
  let (d, ms) : Nat × List (Nat × Nat) :=
    match p with
    | .standIn d ms => (d, ms)
    | .moved ms => (0xF, ms)
    | .none => (0xF, [])
  let mask := (List.range 8).foldl (fun m k => if ms.any (·.2 == k) then m + 2 ^ k else m) 0
  ((s.setFld a F.seqPlan_standin d).setFld a F.seqPlan_recip mask).setFld a F.seqPlan_pred (s.loadOf t c [])

end Sys2Proof.Machine
end

