-- ==== Sys2Proof/Machine/Converters.lean ====
section
/-! DEFINITION. Assay converters: windows, results, blanking, failures and self-tests, and the supervision converters
(R143, R148 to R184, R219, R609). -/

namespace Sys2Proof.Machine

/-! ## Cycles -/

/-- Whether loop point p waits for its supply terminal's loop switch (R225). -/
def State.loopWaits (s : State) (p : Nat) : Bool :=
  match s.supplyOf (s.desc p) with
  | none => false
  | some n => !s.bit (A.trmState n) F.trmState_loopsw

/-- Whether a stage is free for a new point. -/
def StageSt.free (x : StageSt) : Bool := x.phase == .idle || x.phase == .selfTest

/-- Whether converter c's cycle has ended: no point left that can be taken, and none in flight (R218, R225). -/
def State.cycleEnded (s : State) (c : Nat) : Bool :=
  (s.conv c).todo.all s.loopWaits && (s.conv c).stages.all StageSt.free

/-- The home numbers a scanned converter takes in a cycle: its own enabled points in slot order unless it is carried or
stands in, then those it carries (R215, R221, R222). -/
def State.runList (s : State) (c : Nat) : List Nat :=
  let own := ((List.range 64).map (64 * c + ·)).filter fun p => (s.desc p).en
  let movesOf (x : Nat) : List Nat :=
    match s.field.plans.getD x .none with
    | .moved ms => (ms.filter fun m => m.2 == c).map (·.1)
    | .standIn _ ms => (ms.filter fun m => m.2 == c).map (·.1)
    | .none => []
  own ++ (s.field.carried.map movesOf).flatten

/-- LOAD of the cycle that ended: its time to the last window's close in 256ths of the cycle, rounded up, with PEAK
(R176, DEDUCED, assumption 57). -/
def State.showLoad (s : State) (c : Nat) : State :=
  let k := s.conv c
  let n := s.fld (A.seqClistAct c) F.seqClist_cycle * s.frame.period
  let b := k.lastClose.toNat - k.cycleStart.toNat
  if n = 0 ∨ k.lastClose = 0 then s
  else s.lastPeak (A.asyLoad c) F.asyLoad_load F.asyLoad_peak ((256 * b + n - 1) / n)

/-- A new cycle of converter c begins; points in flight count as their visit (R214, R215). -/
def State.newCycle (s : State) (c : Nat) : State :=
  let busy := ((s.conv c).stages.filter fun x => !x.free).filterMap (·.slot)
  let todo := (s.runList c).filter fun p => !busy.contains p
  s.modConv c fun k =>
    { k with todo := todo, running := true, late := false, cycleStart := s.tbc, opened := busy.length }

/-- After a stage of converter c became free: a late cycle that has ended is followed by the next (R218). -/
def State.cycleCheck (s : State) (c : Nat) : State :=
  if s.scanned c && (s.conv c).late && s.cycleEnded c then (s.showLoad c).newCycle c else s

/-! ## Windows -/

/-- A raw code clipped where the window overloaded (R160). -/
def clipCode (code : BitVec 24) (ovl : Bool) : Int :=
  if ovl then (if code.toInt < 0 then -0x7FFFFF else 0x7FFFFF) else code.toInt

/-- Whether a source of the point is out of compliance now. -/
def State.complNow (s : State) (d : Desc) : Bool := d.sourceIds.any fun i => (s.reg A.excComplNow).getLsbD i

/-- WINDOW_OPEN (R152): on a ready stage of a scanned converter whose other stage has no window open; a point whose
source has been withdrawn is posted ABANDONED with tag BAD instead (R126). -/
def execWindowOpen (c : Conv) (st : Stage) (s : State) : Out :=
  let x := s.stage c.val st.val
  .next (
    if s.scanned c.val && x.phase == .ready && (s.stage c.val (1 - st.val)).phase != .window then
      match x.slot with
      | none => s
      | some p =>
        let d := s.desc p
        if s.sourcesOurs d then
          (s.putStage c.val st.val { x with
            phase := .window, opened := s.tbc, blanked := 0, ovl := false, ranging := false
            compl := x.compl || s.complNow d, samples := [] }).setFld (A.asyState c.val) F.asyState_modstg st.val
        else
          (((s.postHeld p stAbandoned .bad s.tbc).freeSources c.val d).putStage c.val st.val
            { StageSt.reset with slot := some p, freed := s.tbc }).cycleCheck c.val
    else s)

/-- The overload of a closing window: its flag and count (R160). OVL_NOW shows it until the next window of the converter
closes (DEDUCED, assumption 179). -/
def State.countOverload (s : State) (c : Nat) (ovl : Bool) : State :=
  let s := s.setBit (A.asyState c) F.asyState_ovlnow ovl
  if ovl then (s.satInc (A.asyCnt c) F.asyCnt_overranges).event (A.asyStatus c) F.asyStatus_overrange else s

/-- The raw result of the window on stage st of converter c. -/
def State.rawOf (s : State) (st p : Nat) (x : StageSt) (code : Int) (ovl : Bool) : RawResult :=
  let d := s.desc p
  { slot := p, desc := d, stage := st, second := x.second, range := x.range, code := code, ovl := ovl, ranging := x.ranging
    wider := d.auto && decide (d.rwide < x.range), compl := x.compl, otFail := x.otFail, stamp := s.tbc
    first := x.first, samples := x.samples }

/-- The decision of a closing window on its point's range (R161); RANGINGS counts the changes. -/
def State.decideRange (s : State) (c : Nat) (r : RawResult) : State :=
  let d := s.desc r.slot
  let x := s.point r.slot
  let part := s.cmStatus d r.range r.compl r.otFail r.samples == stOk
  let n := s.autoRange c d x r.range part r.ovl r.code
  let s := s.modPoint r.slot fun q => { q with range := n.1, dwell := n.2 }
  if n.1 = x.range then s else s.satInc (A.asyCnt2 c) F.asyCnt2_rangings

/-- WINDOW_CLOSE (R135, R160, R161, R168): a scanned window closes with the mean `code`, `ovl` where it overloaded.
After the first window of a pair the sources are exchanged and a second steep interval begins. -/
def execWindowClose (c : Conv) (st : Stage) (code : BitVec 24) (ovl : Bool) (s : State) : Out :=
  let n := c.val
  let x := s.stage n st.val
  .next (
    if s.scanned n && x.phase == .window then
      match x.slot with
      | none => s
      | some p =>
        let d := s.desc p
        let k := clipCode code ovl
        let r := s.rawOf st.val p x k ovl
        let s := (s.countOverload n ovl).showLast n st.val p (if ovl then stOverrange else stOk) x.range k s.tbc
        let s := s.modConv n fun v => { v with checks := v.checks ++ [r], lastClose := s.tbc }
        if d.pair && !x.second then
          ((s.freeSources n d).connectSources n d true).putStage n st.val
            { x with phase := .steep, second := true, samples := [], compl := false }
        else
          (((s.decideRange n r).freeSources n d).putStage n st.val
            { StageSt.reset with slot := some p, range := x.range, freed := s.tbc }).cycleCheck n
    else s)

/-! ## Samples (R143, R167, R178) -/

/-- The supervision converter that serves AC c: SC(c mod 4), or the next alive one (R178, R179). -/
def State.svcFor (s : State) (c : Nat) : Nat :=
  match (List.range 4).find? fun k => (s.fld A.svcState F.svcState_alive / 2 ^ ((c + k) % 4)) % 2 = 1 with
  | some k => (c + k) % 4
  | none => c % 4

/-- A sample added where fewer than three are held. -/
def addSample (w : WinSample) (ws : List WinSample) : List WinSample := if ws.length < 3 then ws ++ [w] else ws

/-- WINDOW_BOUND_SAMPLE (R143, R156, R178): the voltages in mV of the terminals on P and N and of the supply terminal,
and its loop switch current in µA. A sample of a dedicated converter serves all its windows. -/
def execWindowBoundSample (c : Conv) (st : Stage) (p n vts ir : BitVec 16) (late : Bool) (s : State) : Out :=
  let k := c.val
  let w : WinSample := ⟨p.toInt, n.toInt, vts.toInt, ir.toNat⟩
  let all := s.dedicated k
  let s := s.modConv k fun v =>
    { v with
      lastSample := some (s.tbc, w)
      stages := v.stages.zipIdx.map fun y =>
        if y.1.phase = .window ∧ (all ∨ y.2 = st.val) then { y.1 with samples := addSample w y.1.samples } else y.1
      checks := v.checks.map fun r =>
        if all ∨ (r.stage = st.val ∧ (s.stage k st.val).phase ≠ .window) then
          { r with samples := addSample w r.samples } else r }
  .next (
    if late then
      ((s.satInc A.svcLateCnt F.svcLateCnt_count).event A.svcStatus F.svcStatus_late).report 35 (s.svcFor k)
    else s)

/-! ## Results -/

/-- The status of a raw result under R143, R160 and R163, in the precedence of R169. -/
def State.rawStatus (s : State) (d : Desc) (r : RawResult) : Nat :=
  let cm := s.cmStatus d r.range r.compl r.otFail r.samples
  if cm ≠ stOk then cm
  else if r.ranging then stRanging
  else if r.ovl && d.kind != 3 then stOverrange
  else stOk

/-- The pair's point ends after its first window, whose status fixes the outcome: no second window runs (R135). -/
def State.endPair (s : State) (c st p : Nat) : State :=
  let x := s.stage c st
  if x.slot = some p ∧ x.second ∧ (x.phase = .steep ∨ x.phase = .ready) then
    ((s.freeSources c (s.desc p)).putStage c st
      { StageSt.reset with slot := some p, range := x.range, freed := s.tbc }).cycleCheck c
  else s

/-- A stage that still serves point p keeps the first window of its pair. -/
def keepFirst (p : Nat) (h : FirstHalf) (x : StageSt) : StageSt :=
  if x.slot = some p then { x with first := some h } else x

/-- CM_CHECK_DONE (R135, R143, R169, R170, R220): the check of the oldest raw result of the stage finishes, and its
result is posted; the first window of a pair waits for the second. -/
def execCmCheckDone (c : Conv) (st : Stage) (s : State) : Out :=
  let n := c.val
  .next (
    match (s.conv n).checks.find? fun r => r.stage == st.val with
    | none => s
    | some r =>
      let s := s.modConv n fun v => { v with checks := v.checks.erase r }
      let d := r.desc
      let status := s.rawStatus d r
      if d.pair && !r.second then
        if status = stCmFault ∨ status = stOpen then
          (s.postResult d r status r.code 1).endPair n st.val r.slot
        else
          s.modConv n fun v => { v with stages := v.stages.modify st.val (keepFirst r.slot ⟨status, r.code, r.range⟩) }
      else
        match (if d.pair then (s.stage n st.val).first.or r.first else none) with
        | none => s.postResult d r status r.code 1
        | some f =>
          let code := if d.form = 4 then f.code - r.code else f.code + r.code
          s.postResult d r (worseStatus f.status status) code 2)

/-! ## Dedicated mode (R154 to R156, R163, R219, R225, R609) -/

/-- The home number a dedicated converter measures: its own slot 0, or that of the converter it stands in for
(R219, R221). -/
def State.dedicSlot (s : State) (c : Nat) : Nat :=
  let d := s.fld (A.seqRun c) F.seqRun_dedicfor
  64 * (if d < 8 then d else c)

/-- Whether the dedicated point of converter c may be connected now. -/
def State.dedicAllowed (s : State) (c : Nat) : Bool :=
  let p := s.dedicSlot c
  s.modesOk (s.desc p) && !s.pointMiswired (s.desc p) && s.sourcesOurs (s.desc p) && !s.loopWaits p

/-- A dedicated schedule restarts: open windows end ABANDONED, and both stages are set up again (R156, R219). -/
def State.restartDedicated (s : State) (c : Nat) : State :=
  let p := s.dedicSlot c
  let s := (s.abandon c 0 .uncertain none).abandon c 1 .uncertain none
  let s := s.modConv c fun v => { v with opened := 0, refused := false, todo := [], running := false }
  if (s.desc p).en && s.dedicAllowed c then
    [0, 1].foldl
      (fun s st =>
        s.putStage c st { StageSt.reset with phase := .discharge, slot := some p, freed := s.tbc }) s
  else s

/-- Whether the accumulators of dedicated converter c may run: every stage in use is connected and steeped. -/
def State.dedicReady (s : State) (c : Nat) : Bool :=
  let live := [0, 1].filter fun st => !s.stageOut c st
  !live.isEmpty && live.all fun st =>
    let x := s.stage c st
    x.phase == .ready || x.phase == .window

/-- A dedicated converter that opens no window posts the held value at its seam; a refused terminal is reported once
(R82, R126, R219, R225, R609). -/
def State.dedicHeld (s : State) (c : Nat) : State :=
  let p := s.dedicSlot c
  let d := s.desc p
  if s.pointMiswired d then s.postHeld p stCmFault .bad s.tbc
  else
    let s :=
      if !s.modesOk d && !(s.conv c).refused then
        ((s.event A.seqStatus F.seqStatus_modeskip).report 40 p).modConv c fun v => { v with refused := true }
      else s
    s.postHeld p stAbandoned (if s.sourcesOurs d then .uncertain else .bad) s.tbc

/-- Ticks of a window so far that a blank took, one in force included. -/
def State.blankedTicks (s : State) (c : Nat) (x : StageSt) : Nat :=
  x.blanked +
    (match (s.conv c).blankFrom with
      | none => 0
      | some t => s.tbc.toNat - Nat.max t.toNat x.opened.toNat)

/-- The dedicated window on accumulator st closes with mean `code` (R163, R166). A window blanked for more than 25 % of
its length is posted BLANKED; a range change makes the other open window and the next one RANGING. -/
def State.closeDedicated (s : State) (c st p : Nat) (code : BitVec 24) (ovl : Bool) : State :=
  let x := s.stage c st
  let k := clipCode code ovl
  if s.tbc.toNat - x.opened.toNat < 4 * s.blankedTicks c x then s.endWindow c st stBlanked .uncertain
  else
    let r := s.rawOf st p x k ovl
    let shown := if x.ranging then stRanging else if ovl then stOverrange else stOk
    let s := (s.countOverload c ovl).showLast c st p shown x.range k s.tbc
    let s := s.modConv c fun v => { v with checks := v.checks ++ [r], lastClose := s.tbc }
    if x.ranging then s
    else
      let was := (s.point p).range
      let s := s.decideRange c r
      let now := (s.point p).range
      if (s.desc p).auto && now != was then
        let s := ((s.showRange c 0 now).showRange c 1 now)
        s.modConv c fun v => { v with stages := v.stages.map fun y => { y with range := now, ranging := true } }
      else s

/-- A window opens on accumulator st, RANGING where the range changed at this seam; a sample taken at this tick is its
opening sample (R156). -/
def State.openDedicated (s : State) (c st p : Nat) (ranging : Bool) : State :=
  let x := s.stage c st
  let first := match (s.conv c).lastSample with
    | some (t, w) => if t = s.tbc then [w] else []
    | none => []
  s.putStage c st { x with
    phase := .window, opened := s.tbc, blanked := 0, ovl := false, ranging := ranging, second := false
    compl := s.complNow (s.desc p), samples := first }

/-- RESULT_SEAM (R156, R163, R219), at LEAD before the seam: the window opened two seams ago closes with the mean `code`
and another opens on its accumulator; a schedule just entered posts the held value instead. -/
def execResultSeam (c : Conv) (code : BitVec 24) (ovl : Bool) (s : State) : Out :=
  let n := c.val
  let p := s.dedicSlot n
  .next (
    if s.dedicated n && (s.desc p).en then
      if s.dedicAllowed n && s.dedicReady n then
        let k := (s.conv n).opened
        let st := k % 2
        let was := (s.point p).range
        let s := if 2 ≤ k then s.closeDedicated n st p code ovl else s.postHeld p stAbandoned .uncertain s.tbc
        let changed := (s.desc p).auto && (s.point p).range != was
        (s.openDedicated n st p changed).modConv n fun v => { v with opened := k + 1 }
      else s.dedicHeld n
    else s)

/-- At a frame seam a dedicated converter restarts whose LEAD or DIVLOG changed, or that has nothing connected and whose
point may be connected again (R156, R225, R609). -/
def State.dedicSeam (s : State) (c : Nat) : State :=
  if s.dedicated c && (s.conv c).rescheduled then
    (s.restartDedicated c).modConv c fun v => { v with rescheduled := false }
  else if s.dedicated c && (s.conv c).stages.all (fun x => x.free && x.slot.isNone) && s.dedicAllowed c then
    s.restartDedicated c
  else s

/-! ## Blanking (R164 to R167) -/

/-- BLANK_START (R164). -/
def execBlankStart (c : Conv) (s : State) : Out :=
  .next (
    if (s.conv c.val).blankFrom.isSome then s
    else
      (s.setBit (A.asyState c.val) F.asyState_blanknow true).modConv c.val
        fun v => { v with blankFrom := some s.tbc })

/-- BLANK_END (R164, R165, R166): the blanked time counts to every open window. -/
def execBlankEnd (c : Conv) (s : State) : Out :=
  .next (
    (s.setBit (A.asyState c.val) F.asyState_blanknow false).modConv c.val fun v =>
      { v with
        blankFrom := none
        stages := v.stages.map fun x =>
          if x.phase = .window then { x with blanked := s.blankedTicks c.val x } else x })

/-- BLANKED_WINDOW_END (R165): a scanned window blanked for more than 50 ms ends BLANKED. -/
def execBlankedWindowEnd (c : Conv) (st : Stage) (s : State) : Out :=
  let n := c.val
  let x := s.stage n st.val
  .next (
    if s.scanned n && x.phase == .window then
      match x.slot with
      | none => s
      | some p =>
        (((s.endWindow n st.val stBlanked .uncertain).freeSources n (s.desc p)).putStage n st.val
          { StageSt.reset with slot := some p, range := x.range, freed := s.tbc }).cycleCheck n
    else s)

/-! ## Converter failures (R172 to R177) -/

/-- A converter stops: its open windows end ABANDONED, its stages are released, its sources freed (R173, R177). -/
def State.stopConverter (s : State) (c : Nat) : State :=
  let s := [0, 1].foldl
    (fun s st =>
      let x := s.stage c st
      (if x.phase = .window then s.endWindow c st stAbandoned .uncertain else s).releaseStage c st none) s
  s.modConv c fun v => { v with todo := [], running := false, late := false, opened := 0, refused := false }

/-- Converter c fails (R173). -/
def State.failConverter (s : State) (c : Nat) : State :=
  if s.fld (A.asyState c) F.asyState_state = 3 then s
  else
    let s := (s.stopConverter c).setFld (A.asyState c) F.asyState_state 3
    let s := s.modConv c fun v => { v with enabling := false }
    (s.event (A.asyStatus c) F.asyStatus_failed).report 33 c

/-- CONVERTER_FAIL (R172, R173): check 0 REF_FAIL, 1 STUCK, 2 XCHK, 3 PARITY. -/
def execConverterFail (c : Conv) (check : BitVec 2) (s : State) : Out :=
  let flag := match check.toNat with
    | 0 => F.asyStatus_reffail
    | 1 => F.asyStatus_stuck
    | 2 => F.asyStatus_xchk
    | _ => F.asyStatus_parity
  .next ((s.event (A.asyStatus c.val) flag).failConverter c.val)

/-- Supervision converters in service (R179). -/
def State.svcAlive (s : State) : Nat :=
  ((List.range 4).filter fun k => (s.reg A.svcState).getLsbD (F.svcState_alive.lo + k)).length

/-- REFN_CHECK (R172, R179): the errors in ppm two supervision converters find; above 500 ppm in both, REF_FAIL. Fewer
than two in service fail no converter. -/
def execRefnCheck (c : Conv) (a b : BitVec 16) (s : State) : Out :=
  let n := c.val
  .next (
    if 0 < s.svcAlive then
      let s := (s.setFld (A.svcRefchk n) F.svcRefchk_ppm a.toNat).setFld (A.asyReferr n) F.asyReferr_ppm a.toNat
      if 2 ≤ s.svcAlive ∧ 500 < a.toInt.natAbs ∧ 500 < b.toInt.natAbs then
        (s.event (A.asyStatus n) F.asyStatus_reffail).failConverter n
      else s
    else s)

/-- The load of converter c is computed again with the stages it has left (R174, R217). -/
def State.recomputeLoad (s : State) (c : Nat) : State :=
  s.setFld (A.seqPlan c) F.seqPlan_pred (s.loadOf s.activeSet c [])

/-- STAGE_FAIL (R172, R174): the stage is taken out of use; both stages out fail the converter. A point in dedicated
mode continues on the other stage. -/
def execStageFail (c : Conv) (st : Stage) (s : State) : Out :=
  let n := c.val
  .next (
    if s.stageOut n st.val then s
    else
      let s :=
        if s.dedicated n then s
        else (s.abandon n st.val .uncertain none).releaseStage n st.val none
      let s := s.setFld (A.asyState n) (if st.val = 0 then F.asyState_stgaout else F.asyState_stgbout) 1
      let s := s.putStage n st.val (s.stage n st.val)
      let s := (s.event (A.asyStatus n) F.asyStatus_stagefail).report 34 n
      if s.stageOut n (1 - st.val) then s.failConverter n else (s.recomputeLoad n).cycleCheck n)

/-- Whether converter c carries points or stands in for another (R222). -/
def State.carrying (s : State) (c : Nat) : Bool :=
  s.fld (A.seqRun c) F.seqRun_hosts != 0 || s.fld (A.seqRun c) F.seqRun_dedicfor < 8

/-- STAGE_SELFTEST (R175): a free stage in use is put on the internal zero for its self-test; a failure is a STAGE_FAIL.
Suspended on a converter that carries points or stands in (R222). -/
def execStageSelftest (c : Conv) (st : Stage) (s : State) : Out :=
  let n := c.val
  let x := s.stage n st.val
  .next (
    if x.free && s.scanned n && !s.stageOut n st.val && !s.carrying n then
      s.putStage n st.val { x with phase := .selfTest }
    else s)

/-- A write of 1 to ASY_CTRL.SELFTEST: a failed converter runs its self-test (R175). -/
def State.selfTestWritten (s : State) (c : Nat) : State :=
  if s.fld (A.asyState c) F.asyState_state = 3 then s.modConv c fun v => { v with selfTesting := true } else s

/-- SELFTEST_DONE (R175): a passed self-test leaves the converter off with EN 0 and its stages in use again. -/
def execSelftestDone (c : Conv) (pass : Bool) (s : State) : Out :=
  let n := c.val
  .next (
    if (s.conv n).selfTesting then
      let s := (s.modConv n fun v => { v with selfTesting := false }).event (A.asyStatus n) F.asyStatus_selftestdone
      if pass then
        let s := (s.setFld (A.asyState n) F.asyState_state 0).setFld (A.asyCtrl n) F.asyCtrl_en 0
        (s.setFld (A.asyState n) F.asyState_stgaout 0).setFld (A.asyState n) F.asyState_stgbout 0
      else s
    else s)

/-- A write of 0 to ASY_CTRL.EN (R177): the converter stops at once; one that has failed stays failed. -/
def State.converterOff (s : State) (c : Nat) : State :=
  let s := (s.stopConverter c).modConv c fun v => { v with enabling := false }
  if s.fld (A.asyState c) F.asyState_state = 3 then s else s.setFld (A.asyState c) F.asyState_state 0

/-- A write of 1 to ASY_CTRL.EN after 0 (R177): the converter returns to its list from the next seam; none on a failed
converter (R175). -/
def State.converterOn (s : State) (c : Nat) : State :=
  if s.fld (A.asyState c) F.asyState_state = 3 then s else s.modConv c fun v => { v with enabling := true }

/-- ASY_CTRL of converter c becomes `w`: EN and SELFTEST act, and a changed LEAD or DIVLOG restarts a dedicated schedule
at the next frame seam (R156, R175, R177). -/
def State.asyWritten (s : State) (c : Nat) (w : Word) : State :=
  let a := A.asyCtrl c
  let old := s.reg a
  let failed := s.fld (A.asyState c) F.asyState_state == 3
  let on := F.asyCtrl_en.get w
  let keep := if failed && on == 1 then F.asyCtrl_en.get old else on
  let s := (s.setReg a (F.asyCtrl_selftest.set w 0)).setFld a F.asyCtrl_en keep
  let s :=
    if F.asyCtrl_en.get old = 1 ∧ on = 0 then s.converterOff c
    else if F.asyCtrl_en.get old = 0 ∧ on = 1 then s.converterOn c
    else s
  let s := if F.asyCtrl_selftest.get w = 1 then s.selfTestWritten c else s
  if s.dedicated c ∧
      (F.asyCtrl_lead.get w ≠ F.asyCtrl_lead.get old ∨ F.asyCtrl_divlog.get w ≠ F.asyCtrl_divlog.get old) then
    s.modConv c fun v => { v with rescheduled := true }
  else s

/-! ## Supervision converters (R178, R179) -/

/-- SVC_MUTUAL_CHECK (R179): the supervision converter found failed, or that no three agree. -/
def execSvcMutualCheck (failed : Option Svc) (noThree : Bool) (s : State) : Out :=
  .next (
    if noThree then (s.event A.svcStatus F.svcStatus_caldisagree).report 37 0
    else
      match failed with
      | none => s
      | some k =>
        if (s.reg A.svcState).getLsbD (F.svcState_alive.lo + k.val) then
          let s := s.event A.svcStatus ⟨F.svcStatus_scfail.lo + k.val, F.svcStatus_scfail.lo + k.val⟩
          (s.setFld A.svcState ⟨F.svcState_alive.lo + k.val, F.svcState_alive.lo + k.val⟩ 0).report 36 k.val
        else s)

/-- A terminal voltage as SVC_TV shows it: saturating at ±32,767 mV (R184). -/
def satMv (v : BitVec 16) : Nat := if v.toInt = -32768 then 0x8001 else v.toNat

/-- SVC_SWEEP (R178, R184): voltages in mV of the present terminals and currents in µA of those in AI_LOOP mode, by
terminal number, and the sampling load in percent. -/
def execSvcSweep (volts iloop : List (BitVec 16)) (load : Byte) (s : State) : Out :=
  .next (
    if s.shed then s
    else
      (List.range s.terms).foldl
        (fun s n =>
          let s := s.setFld (A.svcTv n) F.svcTv_volt (satMv (volts.getD n 0))
          s.setFld (A.svcIloop n) F.svcIloop_current
            (if s.mode n = 4 then (iloop.getD n 0).toNat else 0)) (s.setFld A.svcState F.svcState_load load.toNat))

end Sys2Proof.Machine
end

