-- ==== Sys2Proof/Machine/Sequencer.lean ====
section
/-! DEFINITION. The scan sequencer: commits, cycles, setups, and the converters carried by their plans (R208 to R225). -/

namespace Sys2Proof.Machine

/-! ## The staging copy -/

/-- Whether a register belongs to the staging copy (R212). -/
def isStaging (a : Nat) : Bool :=
  a == A.seqFrame || (decide (A.seqClist 0 ≤ a) && decide (a < A.seqClist 8))
    || (decide (A.sdMode 0 ≤ a) && decide (a < A.sdMode 512))

/-- The active register a staged one is applied to (R226). -/
def toActive (a : Nat) : Nat :=
  if a = A.seqFrame then A.seqFrameAct
  else if a < A.seqClist 8 then a + 0x20
  else a + 0x4000

/-- Whether a register belongs to the active set. -/
def isActive (a : Nat) : Bool :=
  a == A.seqFrameAct || (decide (A.seqClistAct 0 ≤ a) && decide (a < A.seqClistAct 8))
    || (decide (A.saMode 0 ≤ a) && decide (a < A.saMode 512))

/-- The staging register an active one stands for. -/
def toStaging (a : Nat) : Nat :=
  if a = A.seqFrameAct then A.seqFrame
  else if a < A.seqClistAct 8 then a - 0x20
  else a - 0x4000

/-- SEQ_COMMIT.BUSY. -/
def State.seqBusy (s : State) : Bool := s.bit A.seqCommit F.seqCommit_busy

/-- A write of 1 to SEQ_CTRL.COMMIT: the staging copy as it stands goes to its check (R212, R213). -/
def State.commitWritten (s : State) : State :=
  (s.setBit A.seqCommit F.seqCommit_busy true).modField
    fun f => { f with checking := some (s.regs.filter fun x => isStaging x.1) }

/-- A write of 1 to SEQ_CTRL.COPY: the staging copy becomes the active set (R212). -/
def State.copyWritten (s : State) : State :=
  let act := s.regs.filter fun x => isActive x.1
  let s := { s with regs := s.regs.filter fun x => !isStaging x.1 }
  act.foldl (fun s x => s.setReg (toStaging x.1) x.2) s

/-! ## The check (R211, R213) -/

/-- Whether a select code names a terminal. -/
def isTerm (n : Nat) : Bool := decide (n < 48)

/-- Whether code n is the group return of terminal p. -/
def isReturnOf (n p : Nat) : Bool := n == 0x30 + p / 8

/-- *Table: Descriptor shapes*. -/
def Desc.shapeOk (d : Desc) : Bool :=
  let none' := d.rsel == 0x3F && d.fsel == 0x3F
  let noSrc := d.srca == 0x1F && d.srcb == 0x1F && d.code == 0
  let oneSrc := d.srca != 0x1F && d.srcb == 0x1F && d.code != 0
  let twoSrc := d.srca != 0x1F && d.srcb != 0x1F && d.srca / 2 == d.srcb / 2 && d.srca != d.srcb && d.code != 0
  isTerm d.psel &&
    match d.kind with
    | 0 => (isTerm d.nsel || isReturnOf d.nsel d.psel) && none' && noSrc && !d.rev
    | 3 => isReturnOf d.nsel d.psel && none' && noSrc && !d.auto && d.rwide == 0 && !d.rev
    | 2 => isTerm d.nsel && d.nsel != d.psel && none' && noSrc && !d.rev
    | _ =>
      match d.form with
      | 0 => isTerm d.nsel && d.rsel == d.nsel && d.fsel == d.psel && oneSrc && !d.rev
      | 1 => isReturnOf d.nsel d.psel && d.rsel == 0x3F && d.fsel == d.psel && oneSrc && !d.rev
      | 4 => isTerm d.nsel && isTerm d.rsel && isTerm d.fsel && oneSrc
      | _ => isTerm d.nsel && isTerm d.rsel && d.fsel == 0x3F && twoSrc && !d.rev

/-- Slots a thread may use in a frame of `period` ticks: floor((P − 25 µs) × 198 MHz / 128) (R232). -/
def slotCeiling (period : Nat) : Nat := (period - 2500) * 198 / 12800

/-- Whether the budgets of an image fit a period (R233). -/
def Image.fits (i : Image) (period : Nat) : Bool :=
  let n := slotCeiling period
  i.threads.all (fun t => decide (t.budget ≤ n)) &&
    decide ((i.threads.map (·.budget)).sum ≤ 128 * n)

/-- Whether the budgets of an image, if there is one, fit a period. -/
def fitsIn (i : Option Image) (period : Nat) : Bool :=
  match i with
  | none => true
  | some i => i.fits period

/-- Whether DIVLOG and LEAD are not reserved at a period (R154). -/
def divlogOk (lead divlog period : Nat) : Bool :=
  decide (25000 * 2 ^ divlog ≤ period) && decide (period ≤ 40000000 * 2 ^ divlog)
    && decide (lead * 100 * 2 ^ divlog < period)

/-- Whether ASY_CTRL of converter c suits a period in dedicated mode. -/
def State.divlogFits (s : State) (c period : Nat) : Bool :=
  divlogOk (s.fld (A.asyCtrl c) F.asyCtrl_lead) (s.fld (A.asyCtrl c) F.asyCtrl_divlog) period

/-- The first failing cause of *Table: Commit rejection reasons*: REASON and WHERE. -/
def State.commitCause (s : State) (t : ScanSet) : Option (Nat × Nat) :=
  let convs := List.range 8
  let loads := convs.map fun c => s.loadOf t c []
  let dedic (c : Nat) : Bool := t.dedic.getD c false
  let badList (c : Nat) : Bool :=
    match t.list c with
    | [(p, d)] => p != 64 * c || d.pair
    | _ => true
  match t.desc.find? fun x => !x.2.shapeOk with
  | some x => some (1, x.1)
  | none =>
    match convs.find? fun c => dedic c && badList c with
    | some c => some (2, c)
    | none =>
      match convs.find? fun c => dedic c && !s.divlogFits c t.period with
      | some c => some (3, c)
      | none =>
        match convs.find? fun c => !dedic c && decide (224 < loads.getD c 0) with
        | some c => some (4, c)
        | none =>
          if 1792 < loads.sum then some (5, 0xFF)
          else
            match convs.find? fun c => (s.planFor t c).missing with
            | some c => some (6, c)
            | none => if fitsIn s.image t.period && fitsIn s.nextImage t.period then none else some (7, 0xFF)

/-- COMMIT_CHECK_DONE (R212, R213): the copy is rejected, or waits for the next seam. -/
def execCommitCheckDone (s : State) : Out :=
  .next (
    match s.field.checking with
    | none => s
    | some copy =>
      let s := (s.setBit A.seqCommit F.seqCommit_busy false).modField fun f => { f with checking := none }
      match s.commitCause (scanSet copy) with
      | none => s.modField fun f => { f with waiting := some copy }
      | some (why, at_) =>
        let s := (s.setFld A.seqCommit F.seqCommit_reason why).setFld A.seqCommit F.seqCommit_where at_
        (s.setFld A.seqCommitHi F.seqCommitHi_where8 (if why = 1 then at_ / 256 else 0)).event A.seqStatus
          F.seqStatus_rejected)

/-! ## Carried converters (R221 to R223) -/

/-- The moves of converter c's plan. -/
def Plan.moves : Plan → List (Nat × Nat)
  | .standIn _ ms => ms
  | .moved ms => ms
  | .none => []

/-- Whether the plan names d as stand-in. -/
def Plan.standsIn (p : Plan) (d : Nat) : Bool :=
  match p with
  | .standIn e _ => e == d
  | _ => false

/-- The converter that d stands in for. -/
def State.dedicFor (s : State) (d : Nat) : Option Nat :=
  s.field.carried.find? fun c => (s.field.plans.getD c .none).standsIn d

/-- The converters whose points d carries, those of the slots its moves name. -/
def State.hostsOf (s : State) (d : Nat) : List Nat :=
  let ms := (s.field.carried.map fun c => (s.field.plans.getD c .none).moves).flatten
  (List.range 8).filter fun k => ms.any fun m => m.2 == d && m.1 / 64 == k

/-- SEQ_RUN of every converter (R226). -/
def State.showRuns (s : State) : State :=
  (List.range 8).foldl
    (fun s d =>
      let s := s.setFld (A.seqRun d) F.seqRun_hosts ((s.hostsOf d).foldl (fun m k => m + 2 ^ k) 0)
      s.setFld (A.seqRun d) F.seqRun_dedicfor ((s.dedicFor d).getD 0xF)) s

/-- ASY_STATE.STATE that converter c's list, its enable and the plans give it (R177, R219, R221). -/
def State.modeOf (s : State) (c : Nat) : Nat :=
  if s.fld (A.asyState c) F.asyState_state = 3 then 3
  else if s.fld (A.asyCtrl c) F.asyCtrl_en = 0 then 0
  else if s.fld (A.seqClistAct c) F.seqClist_dedic = 1 ∨ (s.dedicFor c).isSome then 2
  else 1

/-- Both stages of converter c end their flights: open windows are posted ABANDONED, setups are dropped (R214, R222). -/
def State.endFlights (s : State) (c : Nat) : State :=
  [0, 1].foldl
    (fun s st =>
      let x := s.stage c st
      if x.inFlight then
        (if x.phase = .window then s.endWindow c st stAbandoned .uncertain else s).releaseStage c st none
      else s) s

/-- Converter c takes the mode its list and the plans give it, and in dedicated mode begins its schedule; its load is
then 256/256 (R176). A scanned converter waits for its next cycle. -/
def State.takeMode (s : State) (c : Nat) : State :=
  let m := s.modeOf c
  let s := s.setFld (A.asyState c) F.asyState_state m
  if m = 2 then (s.lastPeak (A.asyLoad c) F.asyLoad_load F.asyLoad_peak 256).restartDedicated c
  else s.modConv c fun v => { v with opened := 0, refused := false, todo := [], running := false }

/-- A cycle of scanned converter c begins unless the first calibration round is still running (R224). -/
def State.beginCycle (s : State) (c : Nat) : State :=
  if s.scanned c && !s.field.calPending then s.newCycle c else s

/-- The converter is carried: its plan's points are added to the cycles in progress of their recipients (R222). -/
def State.carryPoints (s : State) (ms : List (Nat × Nat)) : State :=
  ms.foldl (fun s m => s.modConv m.2 fun v => { v with todo := v.todo ++ [m.1] }) s

/-- CONVERTER_RELOCATE (R222, R223): at the seam after converter c failed or was disabled, its plan carries it, unless
another is carried already. -/
def execConverterRelocate (c : Conv) (s : State) : Out :=
  let n := c.val
  .next (
    let p := s.field.plans.getD n .none
    if s.converterDown n && s.field.carried.isEmpty && !p.missing then
      let s := ((s.modField fun f => { f with carried := [n] }).showRuns).carryPoints p.moves
      let s :=
        match p with
        | .standIn d _ => (s.endFlights d).takeMode d
        | _ => s
      s.event A.seqStatus F.seqStatus_relocated
    else s)

/-- A recipient gives up point p: it leaves the cycle, and a setup of it is dropped; an open window completes (R223). -/
def State.dropPoint (s : State) (d p : Nat) : State :=
  let s := s.modConv d fun v => { v with todo := v.todo.filter (· != p) }
  [0, 1].foldl
    (fun s st =>
      let x := s.stage d st
      if x.slot = some p ∧ x.inFlight ∧ x.phase ≠ .window then s.releaseStage d st none else s) s

/-- CONVERTER_RESTORE (R177, R223): at the seam after converter c was enabled again it returns to its own list; its
recipients and its stand-in give its points up. -/
def execConverterRestore (c : Conv) (s : State) : Out :=
  let n := c.val
  .next (
    if (s.conv n).enabling && s.fld (A.asyState n) F.asyState_state != 3 then
      let s := s.modConv n fun v => { v with enabling := false }
      let s :=
        if s.field.carried.contains n then
          let p := s.field.plans.getD n .none
          let s := p.moves.foldl (fun s m => s.dropPoint m.2 m.1) s
          let s := ((s.modField fun f => { f with carried := f.carried.erase n }).showRuns).event A.seqStatus
            F.seqStatus_restored
          match p with
          | .standIn d _ => ((s.endFlights d).takeMode d).beginCycle d
          | _ => s
        else s
      (s.takeMode n).beginCycle n
    else s)

/-! ## Application (R213, R214) -/

/-- Whether two word lists give home number p different descriptors. -/
def changedPoint (old new : List (Nat × Word)) (p : Nat) : Bool :=
  (List.range 7).any fun i =>
    sget (resetWord (A.saMode p + 4 * i)) old (A.saMode p + 4 * i)
      != sget (resetWord (A.saMode p + 4 * i)) new (A.saMode p + 4 * i)

/-- What the sequencer keeps of point p across a commit: a point newly enabled or removed starts afresh, and one whose
ranging changed at its widest range (R161, R170). -/
def State.keepPoint (s : State) (old : Desc) (p : Nat) : State :=
  let d := s.desc p
  if old.en != d.en then s.modPoint p fun _ => { PointSt.reset with range := d.rwide }
  else if (old.auto, old.rwide, old.rnarrow) != (d.auto, d.rwide, d.rnarrow) then
    s.modPoint p fun x => { x with range := d.rwide, dwell := 0 }
  else s

/-- COMMIT_APPLY (R213, R214, R221, R222, R224): at the seam the waiting copy becomes the active set. -/
def execCommitApply (s : State) : Out :=
  .next (
    match s.field.waiting with
    | none => s
    | some copy =>
      let new := copy.map fun x => (toActive x.1, x.2)
      let touched := (List.range 512).filter fun p => changedPoint s.regs new p
      let olds := touched.map fun p => (p, s.desc p)
      let t := scanSet copy
      let was := (List.range 8).map fun c => (s.modeOf c, s.dedicFor c)
      -- windows of the points the commit changes or removes end
      let s := allStages.foldl
        (fun s k =>
          let x := s.stage k.1 k.2
          match x.slot with
          | none => s
          | some p =>
            if touched.contains p && x.inFlight then
              (if x.phase = .window then s.endWindow k.1 k.2 stAbandoned .uncertain else s).releaseStage k.1 k.2 none
            else s) s
      -- the active set, the period and the plans
      let s := { s with regs := s.regs.filter fun x => !isActive x.1 }
      let s := new.foldl (fun s x => s.setReg x.1 x.2) s
      let s := olds.foldl (fun s x => s.keepPoint x.2 x.1) s
      let longer := t.period != s.frame.period
      let s := { s with frame := { s.frame with period := t.period } }
      let s := (List.range 3).foldl (fun s l => s.setFld (A.lnCeil l) F.lnCeil_s (slotCeiling t.period)) s
      let next : Stamp := s.frame.f + BitVec.ofNat 64 t.period
      let s :=
        if s.frame.running then
          (s.setReg A.seqNextSeamLo (next.truncate 32)).setReg A.seqNextSeamHi ((next >>> 32).truncate 32)
        else s
      let plans := (List.range 8).map fun c => s.planFor t c
      let down := (List.range 8).filter fun c =>
        s.converterDown c && !(t.list c).isEmpty && !(plans.getD c .none).missing
      let s := s.modField fun f => { f with waiting := none, plans := plans, carried := down }
      let s := (List.range 8).foldl (fun s c => s.showPlan t c (plans.getD c .none)) s
      let s := s.showRuns
      -- modes, dedicated schedules and cycles
      let s := (List.range 8).foldl
        (fun s c =>
          let m := s.modeOf c
          let now := (m, s.dedicFor c)
          let fresh := now != was.getD c (0, none) || s.fld (A.asyState c) F.asyState_state != m
          if fresh then (s.endFlights c).takeMode c
          else if m = 2 && (longer || touched.contains (s.dedicSlot c)) then s.restartDedicated c
          else s) s
      let s := (List.range 8).foldl (fun s c => s.beginCycle c) s
      s.event A.seqStatus F.seqStatus_applied)

/-! ## Cycles and setups (R215, R218, R225) -/

/-- CYCLE_START (R215, R218, R224): converter c's next cycle seam. -/
def execCycleStart (c : Conv) (s : State) : Out :=
  let n := c.val
  .next (
    if s.scanned n && !s.field.calPending && !s.shed then
      if (s.conv n).running && !s.cycleEnded n then
        ((s.modConv n fun v => { v with late := true }).event A.seqStatus F.seqStatus_cyclelate).report 41 n
      else (if (s.conv n).running then s.showLoad n else s).newCycle n
    else s)

/-- Whether source i can be given to a new point: the sequencer controls it, it is free and no point in flight names it;
a source that is withdrawn does not hold a point back (R122, R126, R215). -/
def State.sourceReady (s : State) (i : Nat) : Bool :=
  s.sourceMode i != 0 ||
    (s.owner i == ownerFree &&
      !allStages.any fun k =>
        (s.stage k.1 k.2).inFlight &&
          match (s.stage k.1 k.2).slot with
          | none => false
          | some p => (s.desc p).sourceIds.contains i)

/-- The stage the next point takes: of those in use and free, the one freed earlier; A at the start of a cycle and where
both were freed together (R215). -/
def State.nextStage (s : State) (c : Nat) : Option Nat :=
  let free (st : Nat) : Bool := (s.stage c st).free && !s.stageOut c st
  match free 0, free 1 with
  | true, true =>
    if (s.conv c).opened ≠ 0 ∧ (s.stage c 1).freed.toNat < (s.stage c 0).freed.toNat then some 1 else some 0
  | true, false => some 0
  | false, true => some 1
  | false, false => none

/-- POINT_SETUP_START (R120, R215, R225): the next point of the cycle, loop points whose switch is open passed over,
takes its stage, which disconnects and begins to discharge. -/
def execPointSetupStart (c : Conv) (s : State) : Out :=
  let n := c.val
  .next (
    if s.scanned n && (s.conv n).running then
      match (s.conv n).todo.find? fun p => !s.loopWaits p, s.nextStage n with
      | some p, some st =>
        if (s.desc p).sourceIds.all s.sourceReady then
          (s.putStage n st { StageSt.reset with phase := .discharge, slot := some p, freed := (s.stage n st).freed }).modConv n
            fun v => { v with todo := v.todo.erase p, opened := v.opened + 1 }
        else s
      | _, _ => s
    else s)

end Sys2Proof.Machine
end

