-- ==== Sys2Proof/Machine/Loops.lean ====
section
/-! DEFINITION. Loop warm-up and the HART modems (R196 to R204). -/

namespace Sys2Proof.Machine

/-- WARM_UP_END (R196): the warm-up of loop Tm ends; its next window sets each flag whose condition holds. -/
def execWarmUpEnd (t : Term) (s : State) : Out :=
  let n := t.val
  .next (
    if s.bit (A.hrtLstate n) F.hrtLstate_warmnow then
      (s.setBit (A.hrtLstate n) F.hrtLstate_warmnow false).modLoop n fun x => { x with afterWarm := true }
    else s)

/-! ## Modems -/

/-- The receive buffer of modem h is emptied. -/
def State.emptyRx (s : State) (h : Nat) : State :=
  (s.setFld (A.hrtMstate h) F.hrtMstate_rxlen 0).setFld (A.hrtMstate h) F.hrtMstate_erridx 0xFF

/-- A write of 1 to HRT_MCMD.SEND (R199). -/
def State.sendWritten (s : State) (h : Nat) : State :=
  if s.modemFree h && s.fld (A.hrtMtxlen h) F.hrtMtxlen_len != 0 then (s.emptyRx h).setModem h 1 else s

/-- A write of 1 to HRT_MCMD.RXCLR (R206). -/
def State.rxclrWritten (s : State) (h : Nat) : State :=
  let s := s.emptyRx h
  if s.modem h = 4 then s.setModem h 0 else s

/-- HRT_MCMD of modem h is written: ABORT, then RXCLR, then SEND. -/
def State.mcmdWritten (s : State) (h : Nat) (w : Word) : State :=
  let s := if F.hrtMcmd_abort.get w = 1 then s.abortModem h else s
  let s := if F.hrtMcmd_rxclr.get w = 1 then s.rxclrWritten h else s
  if F.hrtMcmd_send.get w = 1 then s.sendWritten h else s

/-- Whether a modem may be connected to terminal n (R198): AI_LOOP mode with PWR 1 and no other modem. -/
def State.modemMay (s : State) (h n : Nat) : Bool :=
  s.inMode n 4 && s.bit (A.trmLoop n) F.trmLoop_pwr
    && !(List.range 4).any fun k => k != h && s.fld (A.hrtMcfg k) F.hrtMcfg_term == n

/-- Whether a write of `w` to HRT_MCFG of modem h is accepted (R198): TERM only changes on a modem that is idle or in
reply complete, to a terminal it may be connected to, or to none. -/
def State.mcfgOk (s : State) (h : Nat) (w : Word) : Bool :=
  let n := F.hrtMcfg_term.get w
  n == s.fld (A.hrtMcfg h) F.hrtMcfg_term || (s.modemFree h && (n == 0x3F || s.modemMay h n))

/-- TX_DONE (R199). -/
def execTxDone (h : Modem) (s : State) : Out :=
  .next (
    if s.modem h.val = 1 then (s.setModem h.val 2).event (A.hrtMstatus h.val) F.hrtMstatus_txdone else s)

/-- NO_REPLY (R199). -/
def execNoReply (h : Modem) (s : State) : Out :=
  let n := h.val
  .next (
    if s.modem n = 2 then
      let s := (s.setModem n 4).setFld (A.hrtMstate n) F.hrtMstate_rxlen 0
      (s.satInc (A.hrtMerr n) F.hrtMerr_noreplies).event (A.hrtMstatus n) F.hrtMstatus_noreply
    else s)

/-- CARRIER_DETECT (R199). -/
def execCarrierDetect (h : Modem) (s : State) : Out :=
  let n := h.val
  let s := s.setFld (A.hrtMstate n) F.hrtMstate_cd 1
  .next (if s.modem n = 2 then s.setModem n 3 else s)

/-- UNSOLICITED_FRAME (R199): a frame that arrives while the modem is idle or in reply complete is discarded. -/
def execUnsolicitedFrame (h : Modem) (s : State) : Out :=
  let n := h.val
  .next (
    if s.modemFree n then
      (s.setFld (A.hrtMstate n) F.hrtMstate_cd 0).satInc (A.hrtMerr n) F.hrtMerr_rxerrs
    else s)

/-- OWNER_CHANGE (R202): once every modem is idle or in reply complete, OWNER takes effect. -/
def execOwnerChange (s : State) : Out :=
  .next (
    if (List.range 4).all s.modemFree then
      s.modField fun f => { f with owner := s.bit A.hrtCtrl F.hrtCtrl_owner }
    else s)

/-- Four bytes from the list, the first in the low byte. -/
def word4 (bs : List Byte) (j : Nat) : Word :=
  BitVec.ofNat 32 ((List.range 4).foldl (fun n i => n + (bs.getD (4 * j + i) 0).toNat * 2 ^ (8 * i)) 0)

/-- Bytes stored into the words of a buffer from address a; words the bytes do not reach keep their value. -/
def State.putBytes (s : State) (a : Nat) (bs : List Byte) : State :=
  (List.range ((bs.length + 3) / 4)).foldl (fun s j => s.setReg (a + 4 * j) (word4 bs j)) s

/-- HART_POLL (R202, R203): the lamp room connects a free modem to the supply terminal of loop Tm and sends a request. -/
def execHartPoll (h : Modem) (t : Term) (req : List Byte) (s : State) : Out :=
  let k := h.val
  let n := s.fld (A.hrtLcfg t.val) F.hrtLcfg_sup
  .next (
    if !s.field.owner && s.modemFree k && s.fld (A.hrtLcfg t.val) F.hrtLcfg_hpoll != 0 && n < 48
        && s.modemMay k n && !req.isEmpty && req.length ≤ 128 then
      let s := s.setFld (A.hrtMcfg k) F.hrtMcfg_term n
      (((s.putBytes (A.hrtMtxbuf k 0) req).setFld (A.hrtMtxlen k) F.hrtMtxlen_len req.length)).sendWritten k
    else s)

end Sys2Proof.Machine
end

