-- ==== Sys2Proof/Machine/Clock.lean ====
section
/-! DEFINITION. Real-time clock: the backup domain and its interface (R450 to R467). -/

namespace Sys2Proof.Machine

/-- The state with the clock's interface changed. -/
def State.modRtc (s : State) (g : RtcSt → RtcSt) : State := { s with rtc := g s.rtc }

/-- The register of a time field (*Table: RTC registers*). -/
def timeReg : TimeField → Nat
  | .subsec => A.rtcSubsec
  | .sec => A.rtcSec
  | .min => A.rtcMin
  | .hour => A.rtcHour
  | .date => A.rtcDate
  | .month => A.rtcMonth
  | .year => A.rtcYear

/-! ## The domain's counters (R454, R455) -/

/-- The domain's time set, its second beginning now with SUBSEC 0. -/
def State.setTime (s : State) (t : RtcTime) : State :=
  let s := (s.setReg A.rtcSec (BitVec.ofNat 32 t.sec)).setReg A.rtcMin (BitVec.ofNat 32 t.min)
  let s := (s.setReg A.rtcHour (BitVec.ofNat 32 t.hour)).setReg A.rtcDate (BitVec.ofNat 32 t.date)
  let s := (s.setReg A.rtcMonth (BitVec.ofNat 32 t.month)).setReg A.rtcYear (BitVec.ofNat 32 t.year)
  (s.setReg A.rtcSubsec 0).modRtc fun r => { r with secondAt := s.tbc }

/-- The time one second later, the calendar rolling over (R454). -/
def RtcTime.next (t : RtcTime) : RtcTime :=
  if t.sec < 59 then { t with sec := t.sec + 1 }
  else if t.min < 59 then { t with sec := 0, min := t.min + 1 }
  else if t.hour < 23 then { t with sec := 0, min := 0, hour := t.hour + 1 }
  else
    let t := { t with sec := 0, min := 0, hour := 0 }
    if t.date < monthDays t.year t.month then { t with date := t.date + 1 }
    else if t.month < 12 then { t with date := 1, month := t.month + 1 }
    else { t with date := 1, month := 1, year := (t.year + 1) % 100 }

/-- Whether the oscillator gives edges. -/
def State.oscOk (s : State) : Bool := s.bit A.rtcFlags F.rtcFlags_oscok

/-- Whether the gate is open (R457). -/
def State.gateOpen (s : State) : Bool := s.bit A.rtcGate F.rtcGate_open

/-- RTC_SECOND (R454): the prescaler overflows. -/
def execRtcSecond (s : State) : Out := .next (if s.oscOk then s.setTime s.rtcNow.next else s)

/-- RTC_CALIBRATION (R455): a 32 s boundary; the CAL written is in force from now. -/
def execRtcCalibration (s : State) : Out :=
  .next (let c := s.fld A.rtcCal F.rtcCal_cal
    s.modRtc fun r => { r with calInForce := c })

/-! ## Flags (R452, R453, R464, R465) -/

/-- OSF becomes or stays 1; OSF_SET where it becomes 1 while the gate is open. -/
def State.setOsf (s : State) : State :=
  let was := s.bit A.rtcFlags F.rtcFlags_osf
  let s := s.setBit A.rtcFlags F.rtcFlags_osf true
  if !was && s.gateOpen then s.event A.rtcStatus F.rtcStatus_osfset else s

/-- LBV becomes or stays 1; LBV_SET where it becomes 1 while the gate is open. -/
def State.setLbv (s : State) : State :=
  let was := s.bit A.rtcFlags F.rtcFlags_lbv
  let s := s.setBit A.rtcFlags F.rtcFlags_lbv true
  if !was && s.gateOpen then s.event A.rtcStatus F.rtcStatus_lbvset else s

/-- VBAT_READING (R452), in mV. -/
def execVbatReading (mv : BitVec 12) (s : State) : Out :=
  let s := s.setFld A.rtcVbat F.rtcVbat_mv mv.toNat
  .next (if mv.toNat < 2300 then s.setLbv else s)

/-- OSCILLATOR_STOP (R453): the counters stand where they are. -/
def execOscillatorStop (s : State) : Out :=
  let n := s.subsecNow
  .next (((s.setFld A.rtcSubsec F.rtcSubsec_subsec n).setBit A.rtcFlags F.rtcFlags_oscok false).setOsf)

/-- OSCILLATOR_RESTART (R453): the counters resume from where they stood. -/
def execOscillatorRestart (s : State) : Out :=
  .next (
    if s.oscOk then s
    else
      let back := s.fld A.rtcSubsec F.rtcSubsec_subsec * second / 256
      (s.setBit A.rtcFlags F.rtcFlags_oscok true).modRtc fun r => { r with secondAt := s.tbc - BitVec.ofNat 64 back })

/-- RTC_FCLR has been written (R464): OSF stays while the oscillator gives no edge, LBV while VBAT reads low. -/
def State.fclrWritten (s : State) (w : Word) : State :=
  let s := if F.rtcFclr_osf.get w = 1 ∧ s.oscOk then s.setBit A.rtcFlags F.rtcFlags_osf false else s
  if F.rtcFclr_lbv.get w = 1 ∧ 2300 ≤ s.fld A.rtcVbat F.rtcVbat_mv then s.setBit A.rtcFlags F.rtcFlags_lbv false else s

/-- DOMAIN_RESET (R451). -/
def execDomainReset (s : State) : Out :=
  let s := s.setTime ⟨0, 0, 0, 0, 1, 1, 0⟩
  let s := (s.setReg A.rtcCal 0).modRtc fun r => { r with loads := [], calInForce := 0 }
  .next s.setOsf.setLbv

/-- VBAT_SWITCHOVER (R450). -/
def execVbatSwitchover (s : State) : Out := .next (s.modRtc fun r => { r with onVbat := true })

/-- VBAT_SWITCHBACK (R450). -/
def execVbatSwitchback (s : State) : Out := .next (s.modRtc fun r => { r with onVbat := false })

/-! ## The gate (R456, R457) -/

/-- The gate closes: every master's shadows and staged values are discarded. -/
def State.closeGate (s : State) : State :=
  (s.setBit A.rtcGate F.rtcGate_open false).modRtc fun r => { r with shadows := [], staged := [] }

/-- GATE_CLOSE (R456). -/
def execGateClose (s : State) : Out := .next s.closeGate

/-- GATE_OPEN (R457, R465). -/
def execGateOpen (s : State) : Out :=
  let s := s.setBit A.rtcGate F.rtcGate_open true
  let s := if s.bit A.rtcFlags F.rtcFlags_osf then s.event A.rtcStatus F.rtcStatus_osfset else s
  .next (if s.bit A.rtcFlags F.rtcFlags_lbv then s.event A.rtcStatus F.rtcStatus_lbvset else s)

/-! ## Reading (R459) -/

/-- Master m's shadows are released. -/
def State.releaseShadows (s : State) (m : Nat) : State :=
  s.modRtc fun r => { r with shadows := r.shadows.filter fun x => x.1 ≠ m }

/-- The side effect of master m's read of a time register: it freezes the shadows, and a read of RTC_YEAR releases
them. -/
def State.timeRead (s : State) (m a : Nat) : State :=
  if a = A.rtcYear then s.releaseShadows m
  else if (s.shadowOf m).isSome then s
  else
    let t := s.rtcNow
    s.modRtc fun r => { r with shadows := r.shadows ++ [(m, t, s.tbc)] }

/-- SHADOW_TIMEOUT (R459): shadows of a master left frozen for 250 ms. -/
def execShadowTimeout (m : Master) (s : State) : Out :=
  .next (
    if (s.shadowOf m.id).isSome then (s.releaseShadows m.id).event A.rtcStatus F.rtcStatus_shadowtimeout else s)

/-! ## Setting (R461 to R463) -/

/-- Whether a value lies in the range of the time register at `a` (R461, R467). -/
def timeValueOk (a n : Nat) : Bool :=
  if a = A.rtcSec ∨ a = A.rtcMin then decide (n ≤ 59)
  else if a = A.rtcHour then decide (n ≤ 23)
  else if a = A.rtcDate then decide (1 ≤ n ∧ n ≤ 31)
  else if a = A.rtcMonth then decide (1 ≤ n ∧ n ≤ 12)
  else decide (n ≤ 99)

/-- Master m stages a field: `a` is the register of SEC to MONTH (R461). -/
def State.stageTime (s : State) (m a n : Nat) : State :=
  let k := (a - A.rtcSec) / 4
  let old := s.rtcStagedOf m
  s.modRtc fun r =>
    { r with staged := (r.staged.filter fun x => x.1 ≠ m) ++ [(m, (old.filter fun x => x.1 ≠ k) ++ [(k, n)])] }

/-- Master m's write of RTC_YEAR: its staged fields and the year go to the domain, and its staged values and shadows are
gone (R462). -/
def State.commitTime (s : State) (m year : Nat) : State :=
  let fs := s.rtcStagedOf m
  (s.modRtc fun r =>
    { r with loads := r.loads ++ [⟨fs, year⟩], staged := r.staged.filter fun x => x.1 ≠ m }).releaseShadows m

/-- The time a commit loads: the fields not staged keep the values they hold at the load edge (R462). -/
def RtcLoadReq.time (q : RtcLoadReq) (t : RtcTime) : RtcTime :=
  let f (k d : Nat) : Nat := match q.fields.find? fun x => x.1 == k with
    | none => d
    | some x => x.2
  ⟨0, f 0 t.sec, f 1 t.min, f 2 t.hour, f 3 t.date, f 4 t.month, q.year⟩

/-- RTC_LOAD (R458, R462): the next edge of the oscillator loads the first commit, unless its date does not exist. -/
def execRtcLoad (s : State) : Out :=
  .next (
    match s.rtc.loads with
    | [] => s
    | q :: rest =>
      let t := q.time s.rtcNow
      let s := s.modRtc fun r => { r with loads := rest }
      if monthDays t.year t.month < t.date then s.event A.rtcStatus F.rtcStatus_commiterr
      else
        let s := (s.setTime t).event A.rtcStatus F.rtcStatus_committed
        if q.fields.length = 5 then s.setBit A.rtcFlags F.rtcFlags_osf false else s)

end Sys2Proof.Machine
end

