-- ==== Sys2Proof/Machine/Network.lean ====
section
/-! DEFINITION. Network links: ship time, SNX elements in their two forms, transmit queues and associations (R504, R509 to
R526). -/

namespace Sys2Proof.Machine

/-- The state with the network links changed. -/
def State.modNet (s : State) (g : NetSt → NetSt) : State := { s with net := g s.net }

/-- Association a outside its registers. -/
def State.assoc (s : State) (a : Nat) : AssocSt := s.net.assocs.getD a AssocSt.reset

/-- Association a changed. -/
def State.modAssoc (s : State) (a : Nat) (g : AssocSt → AssocSt) : State :=
  s.modNet fun n => { n with assocs := n.assocs.modify a g }

/-- Whether the SNX engine runs (R528). -/
def State.netOn (s : State) : Bool := s.bit A.netCtrl F.netCtrl_en

/-! ## Associations (R513, R515) -/

/-- State of association a: 0 DOWN, 1 OFFER, 2 UP, 3 REFUSED. -/
def State.assocState (s : State) (a : Nat) : Nat := s.fld (A.netAstate a) F.netAstate_state

/-- Version chosen by association a, 0 for none. -/
def State.assocVer (s : State) (a : Nat) : Nat := s.fld (A.netAstate a) F.netAstate_ver

/-- Whether association a is enabled. -/
def State.assocOn (s : State) (a : Nat) : Bool := s.bit (A.netAcfg a) F.netAcfg_en

/-- MEDIUM of association a: 0 the Ethernet pair, 1 C0, 2 C1. -/
def State.medium (s : State) (a : Nat) : Nat := s.fld (A.netAcfg a) F.netAcfg_medium

/-- Whether association a is UP. -/
def State.assocUp (s : State) (a : Nat) : Bool := s.assocOn a && s.assocState a == 2

/-- The numbers of the associations. -/
def assocNos : List Nat := List.range 64

/-- CAPS the node sends on association a (*Table: HELLO capabilities*). -/
def State.ownCaps (s : State) (a : Nat) : Nat :=
  let acc := s.fld (A.netAcfg a) F.netAcfg_acc
  let on := s.bit A.netCtrl F.netCtrl_remote
  (if on && acc != 0 then 1 else 0) + (if on && acc == 2 then 2 else 0)
    + (if s.bit (A.netAcfg a) F.netAcfg_img && s.medium a == 0 then 4 else 0)

/-- Ring in which association a's records are delivered (R516, R524). -/
def State.assocRing (s : State) (a : Nat) : Nat := if s.medium a = 0 then 107 else 108

/-! ## Ship time (R504, R517) -/

/-- Whether ship time is valid. -/
def State.shipValid (s : State) : Bool := s.bit A.netPtpstate F.netPtpstate_valid

/-- OFS. -/
def State.ofs (s : State) : BitVec 64 := BitVec.ofNat 64 (s.pair A.netOfsLo)

/-- Milliseconds since 2000-01-01 UTC of a stamp: from ship time while it is valid, otherwise from the RTC while that is
valid (R517). -/
def State.utcMs (s : State) (t : Stamp) : Option Nat :=
  if s.shipValid then
    some ((t + s.ofs).toNat / 100000 - 1000 * s.fld A.netPtpstate F.netPtpstate_utcofs - 946684800000)
  else if s.rtcValid then
    some (s.rtcNow.seconds * 1000 + s.rtcNow.subsec * 1000 / 256 - (s.tbc - t).toNat / 100000)
  else none

/-- STAMP32 of a stamp. -/
def State.stamp32 (s : State) (t : Stamp) : List Byte :=
  be 4 (match s.utcMs t with
    | none => 0xFFFFFFFF
    | some ms => ms % 86400000)

/-- A stamp as an element carries it: ship time, or the node's own ticks while ship time is not valid (R510). -/
def State.stamp64 (s : State) (t : Stamp) : List Byte :=
  be 8 (if s.shipValid then (t + s.ofs).toNat else t.toNat)

/-! ## Elements (R510, R517, R518) -/

/-- An element's bytes: head and body. -/
def element (typ subj : Nat) (body : List Byte) : List Byte :=
  be 1 typ ++ be 1 ((4 + body.length) / 4) ++ be 2 subj ++ body

/-- A value at version 1 with INV (R518). -/
def fold1 (v : TWord) : Word × Nat :=
  match v.tag with
  | .bad => (0x80000000#32, 1)
  | t => (if v.val = 0x80000000#32 then 0x80000001#32 else v.val, if t = .good then 0 else 1)

/-- A POINT element. -/
def State.pointElem (s : State) (ver point : Nat) (v : TWord) (t : Stamp) : List Byte :=
  element 0x10 point
    (if ver = 1 then be 4 (fold1 v).1.toNat ++ be 1 (fold1 v).2 ++ be 3 0 ++ s.stamp32 t
     else be 4 v.val.toNat ++ be 1 v.tag.code ++ be 3 0 ++ s.stamp64 t)

/-- An ALARM element. -/
def State.alarmElem (s : State) (ver alarm mask : Nat) (ast : TWord) (at_ t : Stamp) : List Byte :=
  element 0x11 alarm
    (if ver = 1 then
      be 1 mask ++ be 1 (ast.val.toNat / 2 % 4 + if ast.tag = .good then 0 else 4) ++ be 2 0
        ++ s.stamp32 at_ ++ s.stamp32 t
     else be 1 mask ++ be 1 ast.tag.code ++ be 2 0 ++ be 4 ast.val.toNat ++ s.stamp64 at_ ++ s.stamp64 t)

/-- A CALL or CALL_END element. -/
def State.callElem (s : State) (ver zone serial stage eng : Nat) (pub : Bool) (mark : CallMark) (cause : TWord)
    (t : Stamp) : List Byte :=
  let stamp := if ver = 1 then s.stamp32 t else s.stamp64 t
  match mark with
  | .ended ae ao => element 0x14 zone (be 1 serial ++ be 1 ae ++ be 1 ao ++ be 1 eng ++ stamp)
  | m =>
    let flags := (if pub then 1 else 0) + (if m = .repeated then 2 else 0)
    element 0x13 zone (be 1 serial ++ be 1 stage ++ be 1 flags ++ be 1 eng
      ++ (if ver = 1 then be 4 (fold1 cause).1.toNat
          else be 4 cause.val.toNat ++ be 1 cause.tag.code ++ be 3 0) ++ stamp)

/-- A MSG element. -/
def State.msgElem (s : State) (subtype : Nat) (ws : List TWord) (t : Stamp) : List Byte :=
  element 0x16 subtype
    (be 1 ws.length ++ be 3 0 ++ be 4 (ws.zipIdx.foldl (fun n x => n + x.1.tag.code * 4 ^ x.2) 0)
      ++ ws.flatMap (fun w => be 4 w.val.toNat) ++ s.stamp64 t)

/-- A HELLO element of association a with AGREED `agreed` (R514). -/
def State.helloElem (s : State) (a agreed : Nat) : List Byte :=
  element 0x01 0
    (be 1 1 ++ be 1 (s.fld (A.netAcfg a) F.netAcfg_vmax) ++ be 1 agreed ++ be 1 10 ++ be 4 (s.ownCaps a))

/-! ## Transmit queues (R508, R521 to R523) -/

/-- A TXDROP of an element for association a. -/
def State.txDrop (s : State) (a : Nat) : State :=
  (s.satInc (A.netAcnt a) F.netAcnt_txdrop).event A.netStatus F.netStatus_txdrop

/-- An element dropped, counted for each association it was for. -/
def State.dropElem (s : State) (e : TxElem) : State :=
  if e.assocs.isEmpty then s.event A.netStatus F.netStatus_txdrop else e.assocs.foldl State.txDrop s

/-- Bytes waiting for the Ethernet pair. -/
def State.ethFill (s : State) : Nat := s.net.eth.foldl (fun n e => n + e.bytes.length) 0

/-- The oldest queued POINT element taken out of a queue. -/
def takePoint : List TxElem → Option (TxElem × List TxElem)
  | [] => none
  | e :: t =>
    if e.typ = 0x10 then some (e, t)
    else match takePoint t with
      | none => none
      | some (x, t') => some (x, e :: t')

/-- An element put into the queue of the Ethernet pair; none where it has to wait at the crossing (R522). -/
def State.queueEth (s : State) (e : TxElem) : Nat → Option State
  | 0 => if e.typ = 0x10 then some (s.dropElem e) else none
  | fuel + 1 =>
    if s.ethFill + e.bytes.length ≤ 49152 then some (s.modNet fun n => { n with eth := n.eth ++ [e] })
    else
      match takePoint s.net.eth with
      | none => if e.typ = 0x10 then some (s.dropElem e) else none
      | some (x, q) => ((s.modNet fun n => { n with eth := q }).dropElem x).queueEth e fuel

/-- PRIO of an element TYPE on SNX-C (*Table: SNX elements*). -/
def canPrio (typ : Nat) : Nat :=
  match typ with
  | 0x20 => 0
  | 0x12 => 1
  | 0x13 => 1
  | 0x14 => 1
  | 0x15 => 1
  | 0x11 => 2
  | 0x10 => 4
  | 0x16 => 4
  | 0x01 => 5
  | 0x17 => 5
  | _ => 6

/-- A data field filled up to a CAN FD data length (R511). -/
def canPad (b : List Byte) : List Byte :=
  let n := b.length
  let k := if n ≤ 8 then n else if n ≤ 24 then (n + 3) / 4 * 4 else if n ≤ 32 then 32 else if n ≤ 48 then 48 else 64
  b ++ List.replicate (k - n) 0#8

/-- The frames of an element to CAN address `dst` (R511, R512). -/
def State.canFrames (s : State) (assoc : Option Nat) (dst typ : Nat) (b : List Byte) : List CanFrame :=
  let id := canPrio typ * 2 ^ 26 + typ % 128 * 2 ^ 19 + dst % 256 * 256 + s.fld A.netNodeid F.netNodeid_canaddr
  let n := (b.length + 63) / 64
  if n ≤ 1 then [⟨id, canPad b, assoc, typ⟩]
  else
    (List.range n).map fun i =>
      let seg := if i = 0 then 1 else if i + 1 = n then 3 else 2
      ⟨id + seg * 2 ^ 17 + i % 2 * 2 ^ 16, canPad ((b.drop (64 * i)).take 64), assoc, typ⟩

/-- The queue of C port c. -/
def State.canQueue (s : State) (c : Nat) : List CanFrame := s.net.can.getD c []

/-- The queue of C port c set. -/
def State.setCan (s : State) (c : Nat) (q : List CanFrame) : State := s.modNet fun n => { n with can := n.can.set c q }

/-- The oldest POINT frame taken out of a queue. -/
def takePointFrame : List CanFrame → Option (CanFrame × List CanFrame)
  | [] => none
  | e :: t =>
    if e.typ = 0x10 then some (e, t)
    else match takePointFrame t with
      | none => none
      | some (x, t') => some (x, e :: t')

/-- A frame dropped, counted for its association. -/
def State.dropFrame (s : State) (f : CanFrame) : State :=
  match f.assoc with
  | none => s.event A.netStatus F.netStatus_txdrop
  | some a => s.txDrop a

/-- Whether C port c sends: enabled and not bus-off (R508). -/
def State.canRuns (s : State) (c : Nat) : Bool :=
  s.bit (A.netCcfg c) F.netCcfg_en && s.fld (A.netCstate c) F.netCstate_state < 2

/-- Frames put into C port c's queue; none where they have to wait at the crossing (R508, R522). -/
def State.queueCan (s : State) (c : Nat) (fs : List CanFrame) : Nat → Option State
  | 0 => none
  | fuel + 1 =>
    if !s.canRuns c then some (fs.take 1 |>.foldl State.dropFrame s)
    else if (s.canQueue c).length + fs.length ≤ 32 then some (s.setCan c (s.canQueue c ++ fs))
    else
      match takePointFrame (s.canQueue c) with
      | none => if fs.any fun f => f.typ == 0x10 then some (fs.take 1 |>.foldl State.dropFrame s) else none
      | some (x, q) => ((s.setCan c q).dropFrame x).queueCan c fs fuel

/-- One element put into the queues of its medium; none where it has to wait. -/
def State.queueElem (s : State) (e : TxElem) : Option State :=
  match e.assocs with
  | [] => s.queueEth e 4096
  | a :: _ =>
    if s.medium a = 0 then s.queueEth e 4096
    else
      let c := s.medium a - 1
      s.queueCan c (s.canFrames (some a) (s.fld (A.netAcfg a) F.netAcfg_partner) e.typ e.bytes) 64

/-- Elements put into the queues in order; none where one of them has to wait (R521, R522). -/
def State.queueAll (s : State) : List TxElem → Option State
  | [] => some s
  | e :: t => match s.queueElem e with
    | none => none
    | some s => s.queueAll t

/-- Elements NET itself sends: one that would have to wait is dropped and counted. -/
def State.sendElem (s : State) (e : TxElem) : State := (s.queueElem e).getD (s.dropElem e)

/-- An element for association a in the form of its version; discarded and counted while it is not UP (R515). -/
def State.sendTo (s : State) (a typ : Nat) (bytes : List Byte) : State :=
  if !s.netOn then s
  else if s.assocUp a then s.sendElem ⟨[a], s.assocVer a, !s.shipValid, typ, bytes, s.tly.votedFrame⟩
  else s.txDrop a

/-! ## What the lanes send (R520) -/

/-- Whether association a is subscribed to a point. -/
def State.subscribed (s : State) (a point : Nat) : Bool :=
  let b := A.netAsub a
  (decide (s.fld b F.netAsub_first ≤ point) && decide (point ≤ s.fld b F.netAsub_last))
    || (s.assoc a).ranges.any fun r => decide (r.1 ≤ point) && decide (point ≤ r.2)

/-- Elements for a list of associations: on Ethernet one for those of a version where two or more want it (R523). -/
def State.grouped (s : State) (typ : Nat) (as : List Nat) (form : Nat → List Byte) : List TxElem :=
  let eth (v : Nat) : List Nat := as.filter fun a => s.medium a == 0 && s.assocVer a == v
  let one (a : Nat) : TxElem := ⟨[a], s.assocVer a, !s.shipValid, typ, form (s.assocVer a), s.tly.votedFrame⟩
  ([1, 2, 3].flatMap fun v =>
    if 2 ≤ (eth v).length then [⟨eth v, v, !s.shipValid, typ, form v, s.tly.votedFrame⟩] else (eth v).map one)
    ++ (as.filter fun a => s.medium a != 0).map one

/-- The elements NET forms of a voted transaction (R520, R523). -/
def State.elementsOf (s : State) (t : Txn) : List TxElem :=
  let up := assocNos.filter s.assocUp
  match t.body with
  | .snxPoint p v => s.grouped 0x10 (up.filter fun a => s.subscribed a p) fun ver => s.pointElem ver p v t.stamp
  | .snxAlarm n m ast at_ =>
    s.grouped 0x11 (up.filter fun a => s.bit (A.netAcfg a) F.netAcfg_alarms || (s.assoc a).alarms)
      fun ver => s.alarmElem ver n m ast at_ t.stamp
  | .snxMsg sub assoc ws =>
    ((if assoc = 0xFF then up else [assoc]).filter fun a => s.assocUp a && decide (2 ≤ s.assocVer a)).map
      fun a => ⟨[a], s.assocVer a, !s.shipValid, 0x16, s.msgElem sub ws t.stamp, s.tly.votedFrame⟩
  | .call z sr st eng pub mark cause =>
    (up.filter fun a => s.bit (A.netAcfg a) F.netAcfg_calls).map fun a =>
      let b := s.callElem (s.assocVer a) z sr st eng pub mark cause t.stamp
      ⟨[a], s.assocVer a, !s.shipValid, leAt b 0 1, b, s.tly.votedFrame⟩
  | _ => []

/-- A MSG for an association that cannot take it is discarded and counted (R515, R517). -/
def State.msgDrops (s : State) (t : Txn) : State :=
  match t.body with
  | .snxMsg _ assoc _ => if assoc < 64 ∧ (!s.assocUp assoc || s.assocVer assoc = 1) then s.txDrop assoc else s
  | _ => s

/-- A voted transaction handed to NET; none where an element has to wait at the crossing (R522). -/
def State.netTake (s : State) (t : Txn) : Option State :=
  if s.netOn then (s.msgDrops t).queueAll (s.elementsOf t) else some s

/-- HART elements of a poll's variables (R520). -/
def State.sendHart (s : State) (term : Nat) (dev : Byte) (v : HartVar) (t : Stamp) : State :=
  let b := element 0x50 term
    (be 1 v.index.toNat ++ be 1 v.unit.toNat ++ be 1 dev.toNat ++ be 1 0 ++ be 4 v.ieee.toNat ++ s.stamp64 t)
  (assocNos.filter fun a => s.assocUp a && s.assocVer a == 3 && (s.assoc a).hart
      && decide ((s.assoc a).pcaps / 8 % 2 = 1)).foldl
    (fun s a => s.sendTo a 0x50 b) s

/-! ## HELLO and state changes (R514 to R516) -/

/-- AGREED of association a. -/
def State.agreed (s : State) (a : Nat) : Nat := if s.assocState a = 3 then 0 else s.assocVer a

/-- A HELLO sent now on association a. -/
def State.sendHello (s : State) (a : Nat) : State :=
  if s.netOn && s.assocOn a then
    let b := s.helloElem a (s.agreed a)
    let e : TxElem := ⟨if s.medium a = 0 then [] else [a], 1, !s.shipValid, 0x01, b, s.tly.votedFrame⟩
    (s.sendElem e).modAssoc a fun x => { x with sentAt := some s.tbc, owed := false }
  else s

/-- A HELLO sent at once, but at most once per second (R514): one owed too early is sent at the timer. -/
def State.helloAtOnce (s : State) (a : Nat) : State :=
  match (s.assoc a).sentAt with
  | none => s.sendHello a
  | some t =>
    if second ≤ (s.tbc - t).toNat then s.sendHello a else s.modAssoc a fun x => { x with owed := true }

/-- A transfer of association a is aborted: set by the update engine's own definition of an abort (R527). -/
def State.abortXfer (s : State) : State :=
  let s := (s.setFld A.updState F.updState_xfer 6).event A.updStatus F.updStatus_aborted
  { s with upd := { s.upd with xfer := none } }

/-- Association a leaves UP: ranges and flags are cleared, and its transfer ends (R515, R527). -/
def State.leaveUp (s : State) (a : Nat) : State :=
  let s := (s.modAssoc a fun x => { x with ranges := [], alarms := false, hart := false }).event
    A.netStatus F.netStatus_assocdown
  let s := s.setFld (A.netAstate a) F.netAstate_ranges 0
  match s.upd.xfer with
  | none => s
  | some x => if x.assoc = some a then s.abortXfer.event A.netStatus F.netStatus_img else s

/-- Association a takes a state and version; a change is reported to the lanes (R515, R516). -/
def State.setAssoc (s : State) (a st ver : Nat) : State :=
  let old := (s.assocState a, s.assocVer a)
  let s := (s.setFld (A.netAstate a) F.netAstate_state st).setFld (A.netAstate a) F.netAstate_ver ver
  if old = (st, ver) then s
  else
    let s := if old.1 = 2 ∧ st ≠ 2 then s.leaveUp a else s
    let s := if st = 2 ∧ old.1 ≠ 2 then s.event A.netStatus F.netStatus_assocup else s
    s.send (mkRec (s.assocRing a) 0x01 a ⟨BitVec.ofNat 32 (st + 16 * ver), .good⟩ 0 s.tbc 9)

/-- Association a goes DOWN (R515, R529). -/
def State.assocDown (s : State) (a : Nat) : State :=
  (s.setAssoc a 0 0).modAssoc a fun x => { x with pagreed := 0, pcaps := 0, mac := 0, sentAt := none, owed := false }

/-- A HELLO received on association a (R515). -/
def State.takeHello (s : State) (a : Nat) (e : RxElem) : State :=
  let vmin := leAt e.body 0 1
  let pmax := leAt e.body 1 1
  let pagreed := leAt e.body 2 1
  let caps := beAt e.body 4 4
  let before := s.agreed a
  let v := Nat.min (s.fld (A.netAcfg a) F.netAcfg_vmax) pmax
  let s := (s.modAssoc a fun x => { x with mac := e.mac, pcaps := caps, pagreed := pagreed }).setFld
    (A.netAstate a) F.netAstate_pcaps (caps % 32)
  let s :=
    if v < vmin ∨ v < 1 then s.setAssoc a 3 0
    else
      let wasUp := s.assocState a = 2
      let up := pagreed = v ∧ ¬(wasUp ∧ s.assocVer a ≠ v)
      s.setAssoc a (if up then 2 else 1) v
  if s.agreed a ≠ before then s.helloAtOnce a else s

end Sys2Proof.Machine
end

