-- ==== Sys2Proof/Machine/Frames.lean ====
section
/-! DEFINITION. Network links: frames received and sent on the Ethernet pair and the C ports, their redundancy, and the
ports' own events (R498 to R512, R521). -/

namespace Sys2Proof.Machine

/-! ## Elements of a frame (R509, R510) -/

/-- The elements of a frame's element bytes: TYPE, SUBJ and body of each, and whether the bytes end in a length no element
can have. -/
def parseElems : Nat → List Byte → List (Nat × Nat × List Byte) × Bool
  | 0, b => ([], !b.isEmpty)
  | fuel + 1, b =>
    if b.isEmpty then ([], false)
    else
      let n := 4 * leAt b 1 1
      if n = 0 ∨ b.length < n then ([], true)
      else
        let x := parseElems fuel (b.drop n)
        ((leAt b 0 1, beAt b 2 2, (b.take n).drop 4) :: x.1, x.2)

/-- Element TYPEs the node takes (*Table: SNX elements*). -/
def elemKnown (typ : Nat) : Bool :=
  [0x01, 0x10, 0x12, 0x15, 0x16, 0x17, 0x30, 0x31, 0x40, 0x41, 0x43].contains typ

/-- An element the node does not take is counted in SKIPPED (R510, R514, R517). -/
def State.skip (s : State) : State := s.satInc A.netCnt F.netCnt_skipped

/-- The enabled association that names a partner on a medium (R513). -/
def State.assocFor (s : State) (medium partner : Nat) : Option Nat :=
  assocNos.find? fun a =>
    s.assocOn a && s.medium a == medium
      && decide (s.fld (A.netAcfg a) F.netAcfg_partner % (if medium = 0 then 65536 else 256) = partner)

/-- One received element: kept for its command, or counted where its TYPE is unknown; an element of a partner that no
association names is ignored, its HELLO counted (R510, R513). -/
def State.takeElem (s : State) (a : Option Nat) (isLocal : Bool) (mac : Nat) (e : Nat × Nat × List Byte) : State :=
  match a with
  | none => if e.1 = 0x01 then s.satInc A.netCnt F.netCnt_unknown else s
  | some a =>
    let s := s.satInc (A.netAcnt a) F.netAcnt_rx
    if elemKnown e.1 then
      s.modNet fun n => { n with rx := n.rx ++ [⟨a, s.tbc, isLocal, mac, e.1, e.2.1, e.2.2⟩] }
    else s.skip

/-! ## Ethernet (R499 to R501, R509) -/

/-- NET_PRP.NODES follows the nodes table, whose entries are forgotten after 60 s. -/
def State.showNodes (s : State) : State :=
  let s := s.modNet fun n => { n with nodes := n.nodes.filter fun x => (s.tbc - x.2).toNat ≤ 60 * second }
  s.setFld A.netPrp F.netPrp_nodes s.net.nodes.length

/-- A source enters the nodes table; a full table gives up its oldest entry. -/
def State.noteNode (s : State) (mac : Nat) : State :=
  (s.modNet fun n =>
    let l := n.nodes.filter fun x => x.1 ≠ mac
    { n with nodes := l.drop (l.length - 127) ++ [(mac, s.tbc)] }).showNodes

/-- Entries of the duplicate discard within the forget time; a new source beyond 128 replaces the oldest (R501). -/
def State.seenWith (s : State) (mac seq : Nat) : List (Nat × Nat × Stamp) :=
  let l := s.net.seen.filter fun x => (s.tbc - x.2.2).toNat ≤ 40000000
  let l :=
    if (l.any fun x => x.1 == mac) || decide ((l.map fun x => x.1).eraseDups.length < 128) then l
    else match l with
      | [] => []
      | x :: _ => l.filter fun y => y.1 ≠ x.1
  l ++ [(mac, seq, s.tbc)]

/-- Whether the frame is the second copy of one that has arrived. -/
def State.isDuplicate (s : State) (mac seq : Nat) : Bool :=
  s.net.seen.any fun x => x.1 == mac && x.2.1 == seq && decide ((s.tbc - x.2.2).toNat ≤ 40000000)

/-- The elements of an SNX frame addressed to the node (R509). -/
def State.takeFrame (s : State) (mac : Nat) (b : List Byte) : State :=
  let dst := beAt b 4 2
  if !s.netOn || decide (b.length < 12) then s
  else if dst = s.fld A.netNodeid F.netNodeid_node ∨ dst = 0xFFFF then
    let n := beAt b 8 2
    let x := parseElems 400 ((b.drop 12).take n)
    let a := s.assocFor 0 (beAt b 2 2)
    let s := x.1.foldl (fun s e => s.takeElem a (decide (leAt b 1 1 % 2 = 1)) mac e) s
    if x.2 then s.skip else s
  else s

/-- A valid frame of port p: counted, and kept unless it is a second copy (R499, R501). -/
def State.validFrame (s : State) (p mac ethertype : Nat) (tr : Option PrpTrailer) (b : List Byte) : State :=
  let s := (s.inc (A.netPrx p) F.netPrx_frames).setBit (A.netPstate p) F.netPstate_lost false
  let s := s.noteNode mac
  let kept (s : State) : State := if ethertype = 0x88B5 then s.takeFrame mac b else s
  match tr with
  | none => kept s
  | some t =>
    let s := if t.lan.toNat = 0xB - p then s.satInc (A.netPerr p) F.netPerr_wronglan else s
    if ethertype = 0x88F7 then kept s
    else if s.isDuplicate mac t.seq.toNat then s.satInc A.netPrp F.netPrp_dups
    else
      let l := s.seenWith mac t.seq.toNat
      kept (s.modNet fun n => { n with seen := l })

/-- ETH_FRAME_RECEIVE (R499, R501): a frame on an enabled port. -/
def execEthFrameReceive (port : EthPort) (fcsOk : Bool) (src : BitVec 48) (ethertype : BitVec 16)
    (trailer : Option PrpTrailer) (body : List Byte) (s : State) : Out :=
  let p := port.val
  .next (
    if !s.bit (A.netPcfg p) F.netPcfg_en then s
    else if fcsOk then s.validFrame p src.toNat ethertype.toNat trailer body
    else s.satInc (A.netPerr p) F.netPerr_crcerr)

/-- PRP_SUPERVISION (R501): one supervision frame, with the node's next sequence number. -/
def execPrpSupervision (s : State) : Out :=
  .next ((s.modNet fun n => { n with prpSeq := (n.prpSeq + 1) % 65536 }).showNodes)

/-- PATH_LOST (R499). -/
def execPathLost (port : EthPort) (s : State) : Out :=
  let a := A.netPstate port.val
  .next (
    if s.bit a F.netPstate_lost then s
    else ((s.setBit a F.netPstate_lost true).event A.netStatus F.netStatus_pathlost).report 70 port.val)

/-- LINK_CHANGE (R498, R499): `low` where the amplitude mode negotiated is 1.0 Vpp; a forced mode stands. -/
def execLinkChange (port : EthPort) (up low : Bool) (s : State) : Out :=
  let p := port.val
  let amp := s.fld (A.netPcfg p) F.netPcfg_amp
  .next (
    if up && !s.bit (A.netPcfg p) F.netPcfg_en then s
    else
      let s := s.setBit (A.netPstate p) F.netPstate_link up
      if up then
        s.setBit (A.netPstate p) F.netPstate_ampact (if amp = 1 then false else if amp = 2 then true else low)
      else s)

/-- NET_PCFG of port p has been written (R499): a disabled port has no link, and with both disabled the frames queued are
dropped. -/
def State.pcfgWritten (s : State) (p : Nat) : State :=
  if s.bit (A.netPcfg p) F.netPcfg_en then s
  else
    let s := s.setBit (A.netPstate p) F.netPstate_link false
    if s.bit (A.netPcfg (1 - p)) F.netPcfg_en then s
    else
      let q := s.net.eth
      q.foldl State.dropElem (s.modNet fun n => { n with eth := [] })

/-! ## SNX-C (R507, R508, R511, R512) -/

/-- A frame of C port c discarded. -/
def State.canDiscard (s : State) (c : Nat) : State := s.satInc (A.netCcnt c) F.netCcnt_discard

/-- A whole element received on C port c from address `src`; one shorter than its ELEN says is a broken one. -/
def State.canElem (s : State) (c src : Nat) (b : List Byte) : State :=
  let n := 4 * leAt b 1 1
  if n = 0 ∨ b.length < n then s.canDiscard c
  else s.takeElem (s.assocFor (c + 1) src) false src (leAt b 0 1, beAt b 2 2, (b.take n).drop 4)

/-- The partial element of a sender and TYPE. -/
def State.pieceOf (s : State) (c src typ : Nat) : Option Partial :=
  s.net.pieces.find? fun x => x.port == c && x.src == src && x.typ == typ

/-- The partial element of a sender and TYPE replaced. -/
def State.setPiece (s : State) (c src typ : Nat) (x : Option Partial) : State :=
  s.modNet fun n =>
    { n with pieces := (n.pieces.filter fun x => !(x.port == c && x.src == src && x.typ == typ)) ++ x.toList }

/-- A segment received: taken in sequence, discarded as a retransmission, or breaking the sequence (R512). -/
def State.canSegment (s : State) (c src typ seg tog : Nat) (b : List Byte) : State :=
  match s.pieceOf c src typ with
  | none =>
    if seg = 1 ∧ tog = 0 then s.setPiece c src typ (some ⟨c, src, typ, b, tog⟩) else s.canDiscard c
  | some x =>
    if tog = x.toggle ∧ (seg ≠ 1 ∨ x.bytes.length ≤ 64) then s
    else if seg = 1 then
      (s.canDiscard c).setPiece c src typ (if tog = 0 then some ⟨c, src, typ, b, tog⟩ else none)
    else if seg = 2 then
      if b.length = 64 then s.setPiece c src typ (some { x with bytes := x.bytes ++ b, toggle := tog })
      else (s.canDiscard c).setPiece c src typ none
    else (s.setPiece c src typ none).canElem c src (x.bytes ++ b)

/-- CAN_FRAME_RECEIVE (R507, R511, R512): `ext` where the identifier has 29 bits. -/
def execCanFrameReceive (c : CanPort) (ext : Bool) (id : BitVec 29) (data : List Byte) (s : State) : Out :=
  let k := c.val
  let n := id.toNat
  let dst := n / 256 % 256
  let src := n % 256
  .next (
    if !s.canRuns k then s
    else if !ext then s.canDiscard k
    else if (dst = s.fld A.netNodeid F.netNodeid_canaddr ∨ dst = 0xFF) ∧ src ≠ 0 ∧ src ≠ 0xFF then
      let s := s.inc (A.netCcnt k) F.netCcnt_rx
      if !s.netOn then s
      else
        let seg := n / 2 ^ 17 % 4
        if seg = 0 then s.canElem k src data
        else s.canSegment k src (n / 2 ^ 19 % 128) seg (n / 2 ^ 16 % 2) data
    else s)

/-- The frames queued for C port c are discarded and counted (R508). -/
def State.dropCanQueue (s : State) (c : Nat) : State :=
  let q := s.canQueue c
  q.foldl State.dropFrame (s.setCan c [])

/-- BUS_OFF (R508). -/
def execBusOff (c : CanPort) (s : State) : Out :=
  let k := c.val
  let a := A.netCstate k
  .next (
    if s.canRuns k then
      let s := (s.setFld a F.netCstate_state 2).setFld a F.netCstate_tec 0xFF
      ((s.event A.netStatus F.netStatus_busoff).report 72 k).dropCanQueue k
    else s)

/-- C port c is error active with its error counters 0. -/
def State.canActive (s : State) (c : Nat) : State := s.setReg (A.netCstate c) 0

/-- BUS_OFF_RECOVERY (R508): with AUTO the port rejoins. -/
def execBusOffRecovery (c : CanPort) (s : State) : Out :=
  let k := c.val
  .next (
    if s.bit (A.netCcfg k) F.netCcfg_en && s.bit (A.netCcfg k) F.netCcfg_auto
        && s.fld (A.netCstate k) F.netCstate_state == 2 then s.canActive k
    else s)

/-- NET_CCFG of C port c has been written with word `w` over `old` (R508): EN 0 disables the port, EN 1 enables it and
ends a bus-off where AUTO is 0. -/
def State.ccfgWritten (s : State) (c : Nat) (old : Word) : State :=
  let a := A.netCcfg c
  if !s.bit a F.netCcfg_en then (s.dropCanQueue c).setReg (A.netCstate c) 0x00030000
  else if F.netCcfg_en.get old = 0 then s.canActive c
  else if s.fld (A.netCstate c) F.netCstate_state = 2 ∧ !s.bit a F.netCcfg_auto then s.canActive c
  else s

/-! ## Transmission (R509, R521, R523) -/

/-- Whether two elements may share a frame: the same receivers, version, LOCAL and voted frame, HELLO elements apart. -/
def TxElem.together (a b : TxElem) : Bool :=
  a.assocs == b.assocs && a.ver == b.ver && a.isLocal == b.isLocal && a.frame == b.frame
    && ((a.typ == 0x01) == (b.typ == 0x01))

/-- The elements of a queue that go into the frame of element `k` with `room` bytes left, and the queue without them: no
element of an association overtakes an earlier one, and none of a later voted frame joins (R521). -/
def gatherElems (k : TxElem) : Nat → List TxElem → List TxElem × List TxElem
  | _, [] => ([], [])
  | room, e :: t =>
    if e.together k then
      if e.bytes.length ≤ room then
        let x := gatherElems k (room - e.bytes.length) t
        (e :: x.1, x.2)
      else ([], e :: t)
    else if e.frame ≠ k.frame ∨ e.assocs.any k.assocs.contains then ([], e :: t)
    else
      let x := gatherElems k room t
      (x.1, e :: x.2)

/-- The frame of elements that share one: its header and elements (*Table: SNX frame header*). -/
def State.snxFrame (s : State) (k : TxElem) (es : List TxElem) : List Byte :=
  let b := es.flatMap TxElem.bytes
  let dst := match k.assocs with
    | [a] => s.fld (A.netAcfg a) F.netAcfg_partner
    | _ => 0xFFFF
  let seq := match k.assocs with
    | [a] => (s.assoc a).fseq
    | _ => s.net.groupSeq
  be 1 k.ver ++ be 1 (if k.isLocal then 1 else 0) ++ be 2 (s.fld A.netNodeid F.netNodeid_node) ++ be 2 dst ++ be 2 seq
    ++ be 2 b.length ++ be 2 0 ++ b

/-- A frame of element `k` and those with it has left: the sequence numbers advance (R501, R509). -/
def State.frameSent (s : State) (k : TxElem) (b : List Byte) : State :=
  let s := s.modNet fun n => { n with sentEth := b, prpSeq := (n.prpSeq + 1) % 65536 }
  match k.assocs with
  | [a] => s.modAssoc a fun x => { x with fseq := (x.fseq + 1) % 65536 }
  | _ => s.modNet fun n => { n with groupSeq := (n.groupSeq + 1) % 65536 }

/-- The Ethernet pair has sent its next frame (R509, R521). -/
def State.ethSent (s : State) : State :=
  match s.net.eth with
  | [] => s
  | k :: t =>
    if s.bit (A.netPcfg 0) F.netPcfg_en || s.bit (A.netPcfg 1) F.netPcfg_en then
      let x := gatherElems k (1476 - k.bytes.length) t
      let b := s.snxFrame k (k :: x.1)
      (s.modNet fun n => { n with eth := x.2 }).frameSent k b
    else s

/-- An identifier without SEG and TOGGLE. -/
def CanFrame.base (f : CanFrame) : Nat := f.id / 2 ^ 19 * 2 ^ 19 + f.id % 65536

/-- SEG of an identifier. -/
def CanFrame.seg (f : CanFrame) : Nat := f.id / 2 ^ 17 % 4

/-- The frame a C port sends next: the next segment of an element begun, else the lowest identifier, oldest first (R508,
R512). -/
def State.nextCan (s : State) (c : Nat) : Option CanFrame :=
  let q := s.canQueue c
  let low := q.foldl (fun (o : Option CanFrame) f => match o with
    | none => some f
    | some g => if f.base < g.base then some f else o) none
  match s.net.sentCan.getD c none with
  | none => low
  | some l =>
    if l.seg = 1 ∨ l.seg = 2 then
      match q.find? fun f => f.base == l.base && (f.seg == 2 || f.seg == 3) with
      | some f => some f
      | none => low
    else low

/-- C port c has sent its next frame. -/
def State.canSent (s : State) (c : Nat) : State :=
  match s.nextCan c with
  | none => s
  | some f =>
    let q := (s.canQueue c).erase f
    (s.setCan c q).modNet fun n => { n with sentCan := n.sentCan.set c (some f) }

/-- TRANSMISSION_COMPLETE (R508, R521, R522): the Ethernet pair, C0 or C1 has sent its next frame, whose room is free. -/
def execTransmissionComplete (medium : Fin 3) (s : State) : Out :=
  .next (if medium.val = 0 then s.ethSent else if s.canRuns (medium.val - 1) then s.canSent (medium.val - 1) else s)

end Sys2Proof.Machine
end

