-- ==== Sys2Proof/Machine/CodeCheck.lean ====
section
/-! DEFINITION. Code words as the static check of an image reads them: which words are reserved encodings (R266, R267),
where each leads, what each needs of its thread, and the check of R334. -/

namespace Sys2Proof.Machine

/-- Where an instruction leads (R334). -/
inductive Flow where
  /-- To the next word. -/
  | next
  /-- To TARGET only. -/
  | jump (t : Nat)
  /-- To TARGET and to the next word: a conditional branch, or a JAL and the word after it. -/
  | fork (t : Nat)
  /-- A LOOP of BODY words, and whether it may skip its body. -/
  | loop (body : Nat) (skips : Bool)
  /-- Nowhere that the check follows: FEND, HALT and JR. -/
  | stop
  deriving DecidableEq, Repr

/-- What an instruction needs of its thread (R334). -/
inductive Need where
  | nothing
  /-- The keep words at a fixed address. -/
  | keep (a : Int) (n : Nat)
  /-- A ring to take from, and whether the pair is based on w0. -/
  | take (r : Nat) (w0 : Bool)
  /-- A ring to post to, and whether the pair is based on w0. -/
  | post (r : Nat) (w0 : Bool)
  /-- A ring to count. -/
  | count (r : Nat)
  | outputs | segments | zones | snx | journal | regRead | regWrite
  deriving DecidableEq, Repr

/-- Whether a field may name a pair (R267). -/
def pairField (r : Nat) : Bool := decide (r % 2 = 0) && decide (2 ≤ r)

/-- An 18-bit immediate's value (R266). -/
def immOf (w : Nat) : Int := if w % 2 ^ 18 < 2 ^ 17 then (w % 2 ^ 18 : Nat) else (w % 2 ^ 18 : Nat) - 2 ^ 18

/-- The alarm, counter and call instructions (*Table: Alarm, counter and call instructions*): whether OP and FN are
assigned, which of RD, RA and RB must be pairs or 0, and the need. -/
def alarmCode (op fn rd ra rb : Nat) : Option Need :=
  let p := pairField
  let ok (b : Bool) (n : Need) : Option Need := if b then some n else none
  match op, fn with
  | 0x28, 0 => ok (p rb) .nothing
  | 0x28, 1 => ok (p rb) .nothing
  | 0x29, 0 => ok (p rb) .nothing
  | 0x29, 1 => ok (p rb) .nothing
  | 0x29, 2 => ok (p rb) .nothing
  | 0x2A, 0 => ok (p rb) .journal
  | 0x2B, 0 => ok (p rb) .journal
  | 0x2C, 0 => ok (p rb) .journal
  | 0x2D, 0 => ok (decide (rb = 0)) .journal
  | 0x2E, 0 => ok (p rb) .journal
  | 0x2F, 0 => ok (p rb) .journal
  | 0x30, 0 => ok (p rd) .zones
  | 0x31, 0 => ok (decide (rb = 0)) .zones
  | 0x31, 1 => ok (p rd) .zones
  | 0x31, 2 => ok (p rd && decide (rb = 0)) .zones
  | 0x32, 0 => ok (p rd) .outputs
  | 0x33, 0 => ok (p rd) .segments
  | 0x34, 0 => ok (p rd) .snx
  | 0x34, 1 => ok (p rd) .snx
  | 0x34, 2 => ok (p rd) .snx
  | 0x35, 0 => ok (decide (rd = 0 ∧ ra = 0 ∧ rb = 0)) .journal
  | 0x35, 1 => ok (decide (rd = 0 ∧ ra = 0 ∧ rb = 0)) .journal
  | 0x36, 0 => ok (p rd) .journal
  | _, _ => none

/-- Format R words of the core set but SEL, JR and REGW: whether OP, FN and the fields are assigned. -/
def coreCode (op fn rd ra rb : Nat) : Option Flow :=
  let p := pairField
  let ok (b : Bool) : Option Flow := if b then some .next else none
  if op = 0x00 then
    if fn ≤ 0x16 ∨ fn = 0x1C then some .next
    else if fn = 0x17 ∨ fn = 0x18 ∨ fn = 0x1A ∨ fn = 0x1B then ok (decide (rb = 0))
    else if fn = 0x19 then ok (decide (rd = 0))
    else none
  else if op = 0x0B then
    (match fn with
     | 0 => ok (decide (rd = 0 ∧ rb < 4))
     | 1 => ok (decide (rb = 0))
     | 2 => ok (decide (rb < 4))
     | 3 => some .next
     | 4 => ok (decide (rb < 4))
     | 5 => ok (decide (rb = 0))
     | _ => none)
  else if op = 0x15 then
    (match fn with
     | 0 => ok (decide (rd = 0 ∧ ra = 0 ∧ rb = 0))
     | 1 => if rd = 0 ∧ ra = 0 ∧ rb = 0 then some .stop else none
     | 2 => if rd = 0 ∧ ra = 0 ∧ rb = 0 then some .stop else none
     | 3 => ok (decide (ra < 4 ∧ rb = 0))
     | _ => none)
  else if op = 0x21 then
    (match fn with
     | 0 => ok (p rd && p ra)
     | 1 => ok (p rd && p ra && p rb)
     | 2 => ok (p rd && p ra && p rb)
     | 3 => ok (decide (rd = 0) && p ra && p rb)
     | 4 => ok (decide (rd = 0 ∧ rb = 0) && p ra)
     | 5 => ok (p ra && p rb)
     | 6 => ok (p ra && p rb)
     | 7 => ok (p rd && decide (rb = 0))
     | 8 => ok (p rd && decide (rb = 0))
     | _ => none)
  else none

/-- A code word as the static check reads it; none for a reserved encoding and for a Vupore-M instruction (R266, R268,
R334). -/
def readCode (word : Word) : Option (Flow × Need) :=
  let w := word.toNat
  let op := w / 2 ^ 26
  let rd := w / 2 ^ 22 % 16
  let ra := w / 2 ^ 18 % 16
  let rb := w / 2 ^ 14 % 16
  let mid := w / 2 ^ 10 % 16
  let cond := w / 2 ^ 6 % 16
  let fn := w % 64
  let imm := w % 2 ^ 18
  let target := w % 2 ^ 16
  let ring := w / 2 ^ 15 % 128
  let plain : Option (Flow × Need) := some (.next, .nothing)
  let ok (b : Bool) (x : Flow × Need) : Option (Flow × Need) := if b then some x else none
  if op ≤ 0x05 ∧ 0 < op then plain
  else if 0x06 ≤ op ∧ op ≤ 0x08 then ok (decide (imm < 32)) (.next, .nothing)
  else if op = 0x09 then plain
  else if op = 0x0A then ok (decide (rd = 0)) (.next, .nothing)
  else if op = 0x0C then ok (decide (mid = 0 ∧ cond ≤ 10 ∧ fn = 0)) (.next, .nothing)
  else if op = 0x10 then
    ok (decide (rd ≤ 10 ∧ w / 2 ^ 16 % 64 = 0)) (if rd = 0 then .jump target else .fork target, .nothing)
  else if op = 0x11 then ok (decide (w / 2 ^ 16 % 64 = 0)) (.fork target, .nothing)
  else if op = 0x12 then ok (decide (rd = 0 ∧ imm = 0)) (.stop, .nothing)
  else if op = 0x13 then
    let body := w / 2 ^ 10 % 1024
    ok (decide (body ≠ 0 ∧ w % 1024 ≠ 0)) (.loop body (decide (rd ≠ 0)), .nothing)
  else if op = 0x14 then ok (decide (rd % 4 = 0 ∧ w / 2 ^ 16 % 64 = 0)) (.jump target, .nothing)
  else if op = 0x18 ∨ op = 0x19 then some (.next, if ra = 0 then .keep (immOf w) 1 else .nothing)
  else if op = 0x1A ∨ op = 0x1B then ok (pairField rd) (.next, if ra = 0 then .keep (immOf w) 2 else .nothing)
  else if op = 0x1C ∨ op = 0x1D then
    ok (decide (rd % 2 = 0 ∧ w % 2 ^ 15 = 0)) (.next, .take ring (decide (rd = 0)))
  else if op = 0x1E then ok (decide (rd % 2 = 0 ∧ w % 2 ^ 15 = 0)) (.next, .post ring (decide (rd = 0)))
  else if op = 0x1F then ok (decide (w % 2 ^ 15 = 0)) (.next, .count ring)
  else if op = 0x20 then ok (pairField rd && decide (ra = 0 ∧ imm < 4)) (.next, .nothing)
  else if op = 0x22 then ok (decide (rd = 0 ∧ imm < 2 ^ 16)) (.next, .regRead)
  else if op = 0x23 then ok (decide (rd = 0 ∧ w % 2 ^ 14 = 0)) (.next, .regWrite)
  else if mid ≠ 0 ∨ cond ≠ 0 then none
  else if 0x28 ≤ op ∧ op ≤ 0x36 then
    match alarmCode op fn rd ra rb with
    | none => none
    | some n => some (.next, n)
  else
    match coreCode op fn rd ra rb with
    | none => none
    | some f => some (f, .nothing)

/-- Code addresses an instruction at `a` leads to. -/
def Flow.succ (f : Flow) (a : Nat) : List Nat :=
  match f with
  | .next => [a + 1]
  | .jump t => [t]
  | .fork t => [t, a + 1]
  | .loop body skips => if skips then [a + 1, a + body + 1] else [a + 1]
  | .stop => []

/-- Whether the keep word is in a region of thread t (R239). -/
def Image.reaches (im : Image) (t a : Nat) : Bool :=
  im.regions.any fun r => decide (r.first ≤ a) && decide (a < r.first + r.count) && r.threads.getLsbD t

/-- Whether thread t has what the instruction needs (R334, cases 3 to 5). -/
def Image.meets (im : Image) (t : Nat) : Need → Bool
  | .nothing => true
  | .keep a n => decide (0 ≤ a) && (List.range n).all fun i => im.reaches t (a.toNat + i)
  | .take r w0 => !w0 && (im.takers.getD r 0).getLsbD t
  | .post r w0 => !w0 && decide (r < 96) && (im.posters.getD r 0).getLsbD t
  | .count r => (im.takers.getD r 0).getLsbD t || (im.posters.getD r 0).getLsbD t
  | n =>
    match im.decls[t]? with
    | none => false
    | some d =>
      match n with
      | .outputs => decide (d.outputs ≠ 0)
      | .segments => decide (d.segments ≠ 0)
      | .zones => decide (d.zones ≠ 0) && d.journal
      | .snx => d.snx
      | .journal => d.journal
      | .regRead => d.regRead
      | .regWrite => d.regWrite
      | _ => true

/-- Whether the word at `a` fails a case of R334 for thread t. -/
def Image.wordFails (im : Image) (t a : Nat) : Bool :=
  match readCode (im.code.getD a 0) with
  | none => true
  | some (f, n) =>
    !im.meets t n || (f.succ a).any (fun x => decide (im.code.length ≤ x))
      || (match f with
          | .loop body _ => decide (im.code.length ≤ a + body)
          | _ => false)

/-- The code reachable from a work list, `seen` having been reached (R334). -/
def Image.reachable (im : Image) : Nat → List Nat → List Nat → List Nat
  | 0, _, seen => seen
  | _ + 1, [], seen => seen
  | fuel + 1, a :: todo, seen =>
    if seen.contains a || decide (im.code.length ≤ a) then im.reachable fuel todo seen
    else
      let next := match readCode (im.code.getD a 0) with
        | none => []
        | some (f, _) => f.succ a
      im.reachable fuel (next ++ todo) (a :: seen)

/-- The lowest failing code address of a thread (R334, R335). -/
def Image.threadFails (im : Image) (t : Nat) (e : ThreadEntry) : Option Nat :=
  if e.budget = 0 then none
  else ((im.reachable (3 * im.code.length + 1) [e.entry] []).filter (im.wordFails t)).min?

/-- The lowest failing code address over all threads (R335). -/
def Image.codeFails (im : Image) : Option Nat :=
  (im.threads.zipIdx.filterMap fun x => im.threadFails x.2 x.1).min?

end Sys2Proof.Machine
end

