-- ==== Sys2Proof/Machine/Crypto.lean ====
section
/-! DEFINITION. SHA-256, SHA-512 and the Ed25519 signature check of RFC 8032, which the spec names for image digests, the
key hash and image signatures (R324, R544). -/

namespace Sys2Proof.Machine

/-- Initial hash value of SHA-256 (FIPS 180-4). -/
def sha256Init : List Nat := [
  0x6a09e667, 0xbb67ae85, 0x3c6ef372, 0xa54ff53a, 0x510e527f, 0x9b05688c, 0x1f83d9ab, 0x5be0cd19]

/-- Round constants of SHA-256 (FIPS 180-4), part 1. -/
def sha256KA : List Nat := [
  0x428a2f98, 0x71374491, 0xb5c0fbcf, 0xe9b5dba5, 0x3956c25b, 0x59f111f1, 0x923f82a4, 0xab1c5ed5,
  0xd807aa98, 0x12835b01, 0x243185be, 0x550c7dc3, 0x72be5d74, 0x80deb1fe, 0x9bdc06a7, 0xc19bf174,
  0xe49b69c1, 0xefbe4786, 0x0fc19dc6, 0x240ca1cc, 0x2de92c6f, 0x4a7484aa, 0x5cb0a9dc, 0x76f988da,
  0x983e5152, 0xa831c66d, 0xb00327c8, 0xbf597fc7, 0xc6e00bf3, 0xd5a79147, 0x06ca6351, 0x14292967]

/-- Round constants of SHA-256 (FIPS 180-4), part 2. -/
def sha256KB : List Nat := [
  0x27b70a85, 0x2e1b2138, 0x4d2c6dfc, 0x53380d13, 0x650a7354, 0x766a0abb, 0x81c2c92e, 0x92722c85,
  0xa2bfe8a1, 0xa81a664b, 0xc24b8b70, 0xc76c51a3, 0xd192e819, 0xd6990624, 0xf40e3585, 0x106aa070,
  0x19a4c116, 0x1e376c08, 0x2748774c, 0x34b0bcb5, 0x391c0cb3, 0x4ed8aa4a, 0x5b9cca4f, 0x682e6ff3,
  0x748f82ee, 0x78a5636f, 0x84c87814, 0x8cc70208, 0x90befffa, 0xa4506ceb, 0xbef9a3f7, 0xc67178f2]

/-- Initial hash value of SHA-512 (FIPS 180-4). -/
def sha512Init : List Nat := [
  0x6a09e667f3bcc908, 0xbb67ae8584caa73b, 0x3c6ef372fe94f82b, 0xa54ff53a5f1d36f1,
  0x510e527fade682d1, 0x9b05688c2b3e6c1f, 0x1f83d9abfb41bd6b, 0x5be0cd19137e2179]

/-- Round constants of SHA-512 (FIPS 180-4), part 1. -/
def sha512KA : List Nat := [
  0x428a2f98d728ae22, 0x7137449123ef65cd, 0xb5c0fbcfec4d3b2f, 0xe9b5dba58189dbbc,
  0x3956c25bf348b538, 0x59f111f1b605d019, 0x923f82a4af194f9b, 0xab1c5ed5da6d8118,
  0xd807aa98a3030242, 0x12835b0145706fbe, 0x243185be4ee4b28c, 0x550c7dc3d5ffb4e2,
  0x72be5d74f27b896f, 0x80deb1fe3b1696b1, 0x9bdc06a725c71235, 0xc19bf174cf692694,
  0xe49b69c19ef14ad2, 0xefbe4786384f25e3, 0x0fc19dc68b8cd5b5, 0x240ca1cc77ac9c65]

/-- Round constants of SHA-512 (FIPS 180-4), part 2. -/
def sha512KB : List Nat := [
  0x2de92c6f592b0275, 0x4a7484aa6ea6e483, 0x5cb0a9dcbd41fbd4, 0x76f988da831153b5,
  0x983e5152ee66dfab, 0xa831c66d2db43210, 0xb00327c898fb213f, 0xbf597fc7beef0ee4,
  0xc6e00bf33da88fc2, 0xd5a79147930aa725, 0x06ca6351e003826f, 0x142929670a0e6e70,
  0x27b70a8546d22ffc, 0x2e1b21385c26c926, 0x4d2c6dfc5ac42aed, 0x53380d139d95b3df,
  0x650a73548baf63de, 0x766a0abb3c77b2a8, 0x81c2c92e47edaee6, 0x92722c851482353b]

/-- Round constants of SHA-512 (FIPS 180-4), part 3. -/
def sha512KC : List Nat := [
  0xa2bfe8a14cf10364, 0xa81a664bbc423001, 0xc24b8b70d0f89791, 0xc76c51a30654be30,
  0xd192e819d6ef5218, 0xd69906245565a910, 0xf40e35855771202a, 0x106aa07032bbd1b8,
  0x19a4c116b8d2d0c8, 0x1e376c085141ab53, 0x2748774cdf8eeb99, 0x34b0bcb5e19b48a8,
  0x391c0cb3c5c95a63, 0x4ed8aa4ae3418acb, 0x5b9cca4f7763e373, 0x682e6ff3d6b2b8a3,
  0x748f82ee5defb2fc, 0x78a5636f43172f60, 0x84c87814a1f0ab72, 0x8cc702081a6439ec]

/-- Round constants of SHA-512 (FIPS 180-4), part 4. -/
def sha512KD : List Nat := [
  0x90befffa23631e28, 0xa4506cebde82bde9, 0xbef9a3f7b2c67915, 0xc67178f2e372532b,
  0xca273eceea26619c, 0xd186b8c721c0c207, 0xeada7dd6cde0eb1e, 0xf57d4f7fee6ed178,
  0x06f067aa72176fba, 0x0a637dc5a2c898a6, 0x113f9804bef90dae, 0x1b710b35131c471b,
  0x28db77f523047d84, 0x32caab7b40c72493, 0x3c9ebe0a15c9bebc, 0x431d67c49c100d4c,
  0x4cc5d4becb3e42b6, 0x597f299cfc657e2a, 0x5fcb6fab3ad6faec, 0x6c44198c4a475817]

/-- What the two hash functions of FIPS 180-4 differ in: word width w, length of the length field in bytes, round
constants, initial value and the rotation counts of their four sigma functions. -/
structure Sha where
  w : Nat
  lenBytes : Nat
  k : List Nat
  init : List Nat
  big0 : Nat × Nat × Nat
  big1 : Nat × Nat × Nat
  small0 : Nat × Nat × Nat
  small1 : Nat × Nat × Nat
  deriving DecidableEq, Repr

/-- SHA-256. -/
def sha256Par : Sha :=
  ⟨32, 8, sha256KA ++ sha256KB, sha256Init, (2, 13, 22), (6, 11, 25), (7, 18, 3), (17, 19, 10)⟩

/-- SHA-512. -/
def sha512Par : Sha :=
  ⟨64, 16, sha512KA ++ sha512KB ++ sha512KC ++ sha512KD, sha512Init, (28, 34, 39), (14, 18, 41), (1, 8, 7), (19, 61, 6)⟩

/-- A word of w bits rotated right by n. -/
def Sha.rotr (h : Sha) (x n : Nat) : Nat := x / 2 ^ n + x % 2 ^ n * 2 ^ (h.w - n)

/-- A big sigma: three rotations. -/
def Sha.big (h : Sha) (c : Nat × Nat × Nat) (x : Nat) : Nat := (h.rotr x c.1 ^^^ h.rotr x c.2.1) ^^^ h.rotr x c.2.2

/-- A small sigma: two rotations and a shift. -/
def Sha.small (h : Sha) (c : Nat × Nat × Nat) (x : Nat) : Nat := (h.rotr x c.1 ^^^ h.rotr x c.2.1) ^^^ (x / 2 ^ c.2.2)

/-- The message padded to whole blocks. -/
def Sha.pad (h : Sha) (m : List Byte) : List Byte :=
  let b := 2 * h.w
  m ++ [0x80#8] ++ List.replicate ((b - (m.length + 1 + h.lenBytes) % b) % b) 0#8 ++ be h.lenBytes (8 * m.length)

/-- One more word of the message schedule, the newest of the last 16 words first. -/
def Sha.next (h : Sha) (ws : List Nat) : List Nat :=
  let w (i : Nat) : Nat := ws.getD (i - 1) 0
  ((h.small h.small1 (w 2) + w 7 + h.small h.small0 (w 15) + w 16) % 2 ^ h.w) :: ws.take 15

/-- One round: the working words a to h, and the schedule with the round's word at its end. -/
def Sha.round (h : Sha) (x : List Nat × List Nat) (k : Nat) : List Nat × List Nat :=
  match x.1 with
  | [a, b, c, d, e, f, g, v] =>
    let n := 2 ^ h.w
    let wt := x.2.getD 15 0
    let ch := (e &&& f) ^^^ ((n - 1 - e) &&& g)
    let maj := ((a &&& b) ^^^ (a &&& c)) ^^^ (b &&& c)
    let t := v + h.big h.big1 e + ch + k + wt
    ([(t + h.big h.big0 a + maj) % n, a, b, c, (d + t) % n, e, f, g], h.next x.2)
  | _ => x

/-- One block of the message taken into the hash value. -/
def Sha.block (h : Sha) (hv : List Nat) (b : List Byte) : List Nat :=
  let n := h.w / 8
  let ws := (List.range 16).map fun i => beNat (slice b (n * i) n)
  let r := (h.k.foldl h.round (hv, ws.reverse)).1
  (hv.zip r).map fun x => (x.1 + x.2) % 2 ^ h.w

/-- The blocks of a padded message taken in turn. -/
def Sha.blocks (h : Sha) : Nat → List Byte → List Nat → List Nat
  | 0, _, hv => hv
  | k + 1, m, hv => h.blocks k (m.drop (2 * h.w)) (h.block hv (m.take (2 * h.w)))

/-- The digest of a message. -/
def Sha.digest (h : Sha) (m : List Byte) : List Byte :=
  let p := h.pad m
  (h.blocks (p.length / (2 * h.w)) p h.init).flatMap fun x => be (h.w / 8) x

/-- SHA-256 of a message. -/
def sha256 (m : List Byte) : List Byte := sha256Par.digest m

/-- SHA-512 of a message. -/
def sha512 (m : List Byte) : List Byte := sha512Par.digest m

/-! ## Ed25519 (RFC 8032, section 5.1) -/

/-- The prime of the field. -/
def edP : Nat := 2 ^ 255 - 19

/-- The order of the base point. -/
def edL : Nat := 2 ^ 252 + 27742317777372353535851937790883648493

/-- b to the power e modulo p, e of at most `k` bits. -/
def powMod (p b : Nat) : Nat → Nat → Nat
  | 0, _ => 1
  | k + 1, e =>
    let r := powMod p (b * b % p) k (e / 2)
    if e % 2 = 1 then r * b % p else r

/-- The inverse in the field. -/
def edInv (x : Nat) : Nat := powMod edP (x % edP) 256 (edP - 2)

/-- The difference in the field. -/
def edSub (a b : Nat) : Nat := (a + edP - b % edP) % edP

/-- The curve's constant d. -/
def edD : Nat := (edP - 121665) * edInv 121666 % edP

/-- A square root of −1. -/
def edI : Nat := powMod edP 2 256 ((edP - 1) / 4)

/-- The x of a point with y and sign bit `sign`, where there is one. -/
def edX (y sign : Nat) : Option Nat :=
  let u := edSub (y * y) 1
  let v := (edD * (y * y % edP) + 1) % edP
  let xx := u * edInv v % edP
  let x := powMod edP xx 256 ((edP + 3) / 8)
  let x := if x * x % edP = xx then x else x * edI % edP
  if x * x % edP ≠ xx then none
  else if x = 0 ∧ sign = 1 then none
  else some (if x % 2 = sign then x else (edP - x) % edP)

/-- A point in extended coordinates X, Y, Z, T. -/
structure EdPoint where
  x : Nat
  y : Nat
  z : Nat
  t : Nat
  deriving DecidableEq, Repr

/-- The point of 32 bytes, where they encode one. -/
def edDecode (bs : List Byte) : Option EdPoint :=
  let n := leNat bs
  let y := n % 2 ^ 255
  if edP ≤ y then none
  else
    match edX y (n / 2 ^ 255 % 2) with
    | none => none
    | some x => some ⟨x, y, 1, x * y % edP⟩

/-- The neutral element. -/
def EdPoint.zero : EdPoint := ⟨0, 1, 1, 0⟩

/-- The base point B. -/
def edBase : EdPoint :=
  let y := 4 * edInv 5 % edP
  match edX y 0 with
  | none => EdPoint.zero
  | some x => ⟨x, y, 1, x * y % edP⟩

/-- Point addition. -/
def EdPoint.add (p q : EdPoint) : EdPoint :=
  let a := edSub p.y p.x * edSub q.y q.x % edP
  let b := (p.y + p.x) * (q.y + q.x) % edP
  let c := 2 * p.t * q.t % edP * edD % edP
  let d := 2 * p.z * q.z % edP
  let e := edSub b a
  let f := edSub d c
  let g := (d + c) % edP
  let h := (b + a) % edP
  ⟨e * f % edP, g * h % edP, f * g % edP, e * h % edP⟩

/-- n times a point, n of at most `k` bits. -/
def EdPoint.mul : Nat → Nat → EdPoint → EdPoint
  | 0, _, _ => EdPoint.zero
  | k + 1, n, p =>
    let r := EdPoint.mul k (n / 2) (p.add p)
    if n % 2 = 1 then r.add p else r

/-- Whether two points are the same. -/
def EdPoint.same (p q : EdPoint) : Bool :=
  decide (p.x * q.z % edP = q.x * p.z % edP) && decide (p.y * q.z % edP = q.y * p.z % edP)

/-- Whether a 64-byte signature of a message verifies with a public key: 8·S·B = 8·R + 8·k·A (RFC 8032, section 5.1.7;
PRESUMED, assumption 101). -/
def ed25519 (pub msg sig : List Byte) : Bool :=
  let r := sig.take 32
  let n := leNat (sig.drop 32)
  match edDecode pub, edDecode r with
  | some a, some rp =>
    let k := leNat (sha512 (r ++ pub ++ msg)) % edL
    decide (n < edL) && (EdPoint.mul 4 8 (EdPoint.mul 253 n edBase)).same
      (EdPoint.mul 4 8 (rp.add (EdPoint.mul 253 k a)))
  | _, _ => false

end Sys2Proof.Machine
end

