-- ==== Sys2Proof/Machine/Images.lean ====
section
/-! DEFINITION. Program images: their format, what a lane image declares, and the checks of R335 from FORMAT to CODE
(R321 to R334). -/

namespace Sys2Proof.Machine

/-- A refusal: reason and detail (*Table: Image refusal reasons*). -/
abbrev Refused := Nat × Nat

/-- The first refusal of a list of checks. -/
def firstRefusal (cs : List (Option Refused)) : Option Refused :=
  match cs.filterMap id with
  | [] => none
  | r :: _ => some r

/-- A refusal with the lowest of the failing items, where there is one (R335). -/
def lowest (reason : Nat) (bad : List Nat) : Option Refused :=
  match bad.min? with
  | none => none
  | some d => some (reason, d)

/-- A section table entry (R323). -/
structure Sect where
  typ : Nat
  flags : Nat
  off : Nat
  len : Nat
  crc : Nat
  deriving DecidableEq, Repr

/-- The image's bytes cut to the section. -/
def Sect.bytes (b : List Byte) (x : Sect) : List Byte := (b.drop x.off).take x.len

/-- The header (*Table: Image header*). -/
def imageHeader (b : List Byte) : List Byte := slice b 0 256

/-- The section table. -/
def sections (b : List Byte) : List Sect :=
  let t := b.drop 256
  (List.range (leAt b 0x0A 2)).map fun i =>
    ⟨leAt t (16 * i) 2, leAt t (16 * i + 2) 2, leAt t (16 * i + 4) 4, leAt t (16 * i + 8) 4, leAt t (16 * i + 12) 4⟩

/-- The bytes of the section of a type; empty where there is none. -/
def sectBytes (b : List Byte) (typ : Nat) : List Byte :=
  match (sections b).find? fun x => x.typ == typ with
  | none => []
  | some x => x.bytes b

/-- Whether a type is one of the sections of a KIND (*Table: Lane image sections*, *Table: Management image sections*). -/
def knownSect (kind typ : Nat) : Bool :=
  if kind = 1 then decide (1 ≤ typ ∧ typ ≤ 9)
  else if kind = 2 then decide (typ = 1 ∨ typ = 5 ∨ typ = 9)
  else false

/-- Types a KIND requires. -/
def requiredSects (kind : Nat) : List Nat := if kind = 1 then [1, 2, 3, 4, 6] else if kind = 2 then [1] else []

/-- Whether a section of a known type has a length its table allows. -/
def sectLenOk (kind typ n : Nat) : Bool :=
  match typ with
  | 1 => decide (4 ≤ n) && decide (n ≤ if kind = 1 then 262144 else 229376) && decide (n % 4 = 0)
  | 2 => decide (n = 1024)
  | 3 => decide (n = 4096)
  | 4 => decide (n % 20 = 0 ∧ 20 ≤ n ∧ n ≤ 5120)
  | 5 => decide (n % 4 = 0)
  | 6 => decide (n = 3072)
  | 7 => decide (n % 12 = 0 ∧ 12 ≤ n ∧ n ≤ 3072)
  | 8 => decide (n = 32)
  | _ => true

/-- Whether n bytes from offset i are 0. -/
def zeroAt (b : List Byte) (i n : Nat) : Bool := decide (leAt b i n = 0)

/-- Whether the header bytes and bits the format marks 0 are 0 (R322, R325). -/
def headerZeros (h : List Byte) : Bool :=
  let lane := leAt h 6 1 ≠ 2
  decide (0 < leAt h 5 1) ||
    (zeroAt h 0x16 2 && zeroAt h 0x2B 1 && zeroAt h 0x36 2 && zeroAt h 0x3C 4 && zeroAt h 0x80 124
      && (lane || zeroAt h 0x20 0x20))

/-- Whether the header is in format (R321, R322, R325), of an image of `n` bytes. -/
def headerOkFor (h : List Byte) (n : Nat) : Bool :=
  decide (h.take 4 = [0x53#8, 0x52#8, 0x4E#8, 0x49#8]) && decide (leAt h 4 1 = 1) && decide (leAt h 8 2 = 0x100)
    && decide (1 ≤ leAt h 0x0A 2 ∧ leAt h 0x0A 2 ≤ 32) && decide (leAt h 0x0C 4 = n ∧ n % 4 = 0)
    && decide (256 + 16 * leAt h 0x0A 2 + 64 ≤ n) && decide (leAt h 7 1 ≠ 0)
    && decide (leAt h 0xFC 4 = (crc32c (h.take 252)).toNat) && headerZeros h
    && decide (leAt h 0x20 8 < 2 ^ 48 ∧ leAt h 0x28 1 < 64 ∧ leAt h 0x29 1 < 16 ∧ leAt h 0x2A 1 < 2)

/-- Whether section x is in format beside the others (R323). -/
def sectOk (b : List Byte) (kind : Nat) (all : List Sect) (x : Sect) : Bool :=
  let lo := 256 + 16 * all.length
  let hi := b.length - 64
  decide (x.off % 4 = 0 ∧ lo ≤ x.off ∧ x.off + x.len ≤ hi ∧ x.flags < 2)
    && (all.filter fun y => y != x && decide (x.off < y.off + y.len ∧ y.off < x.off + x.len)).isEmpty
    && decide ((all.filter fun y => y.typ == x.typ).length = 1)
    && decide (x.crc = (crc32c (x.bytes b)).toNat)
    && (!knownSect kind x.typ || sectLenOk kind x.typ x.len)
    && (!(requiredSects kind).contains x.typ || decide (x.flags = 1))

/-- The check FORMAT (R321 to R325). -/
def checkFormat (b : List Byte) : Option Refused :=
  let h := imageHeader b
  if !headerOkFor h b.length then some (1, 0)
  else
    let kind := leAt h 6 1
    let all := sections b
    lowest 1 (((all.filter fun x => !sectOk b kind all x).map (·.typ))
      ++ (requiredSects kind).filter fun t => !all.any fun x => x.typ == t)

/-- The check SIGNATURE (R324, R544, R545). -/
def State.checkSignature (s : State) (b : List Byte) : Option Refused :=
  let pub := slice b 0x60 32
  let hash := (List.range 8).flatMap fun j => wordBytes (s.reg (A.idKeyhash j))
  let keyOk := !s.bit A.idFuse F.idFuse_keyset || sha256 pub == hash
  if keyOk && ed25519 pub (b.take (b.length - 64)) (b.drop (b.length - 64)) then none else some (2, 0)

/-- The checks KIND and ISA (R326). -/
def State.checkKind (s : State) (b : List Byte) (kind : Nat) : Option Refused :=
  let k := leAt b 6 1
  let isa := leAt b 7 1
  let part := if kind = 1 then s.fld A.idIsa F.idIsa_isa else s.fld A.idIsa F.idIsa_isam
  if k ≠ kind then some (3, k) else if part < isa then some (4, isa) else none

/-- The check UNKNOWN (R323). -/
def checkUnknown (b : List Byte) (kind : Nat) : Option Refused :=
  lowest 5 (((sections b).filter fun x => !knownSect kind x.typ && x.flags == 1).map (·.typ))

/-- The check RESOURCE (R8). -/
def State.checkResource (s : State) (b : List Byte) : Option Refused :=
  if 2 ^ s.terms ≤ leAt b 0x20 8 then some (6, 0x20)
  else if 2 ^ (s.terms / 8) ≤ leAt b 0x28 1 then some (6, 0x28)
  else if 4 ≤ leAt b 0x29 1 ∧ !s.bit A.idVariant variantCan then some (6, 0x29)
  else if leAt b 0x2A 1 = 1 ∧ !s.bit A.idVariant variantPanel then some (6, 0x2A)
  else none

/-! ## Sections -/

/-- The blocks of a KEEPINIT section (R330), and the ADDR of a block that is not in format. -/
def keepBlocks : Nat → List Byte → List KeepBlock × Option Nat
  | 0, _ => ([], none)
  | fuel + 1, b =>
    if b.isEmpty then ([], none)
    else
      let n := leAt b 2 2
      if b.length < 8 + 4 * n ∨ n = 0 ∨ 3 < leAt b 4 1 ∨ leAt b 5 3 ≠ 0 then ([], some (leAt b 0 2))
      else
        let x := keepBlocks fuel (b.drop (8 + 4 * n))
        (⟨leAt b 0 2, Tag.ofCode (leAt b 4 1), bytesWords (slice b 8 (4 * n))⟩ :: x.1, x.2)

/-- The blocks of an image's KEEPINIT section. -/
def imageBlocks (b : List Byte) : List KeepBlock × Option Nat :=
  let k := sectBytes b 5
  keepBlocks (k.length / 4 + 1) k

/-- Thread t's entry of the thread table (R327). -/
def threadEntry (b : List Byte) (t : Nat) : ThreadEntry :=
  ⟨leAt b (8 * t) 2, leAt b (8 * t + 2) 3, decide (leAt b (8 * t + 5) 1 % 2 = 1)⟩

/-- Thread t's entry of TXNDECL (R332). -/
def txnDecl (b : List Byte) (t : Nat) : TxnDecl :=
  let d := slice b (24 * t) 24
  let fl := leAt d 18 2
  ⟨BitVec.ofNat 64 (leAt d 0 8), BitVec.ofNat 64 (leAt d 8 8), BitVec.ofNat 16 (leAt d 16 2),
    decide (fl % 2 = 1), decide (fl / 2 % 2 = 1), decide (fl / 4 % 2 = 1), decide (fl / 8 % 2 = 1)⟩

/-- Entry i of REGDECL (R333). -/
def regDecl (b : List Byte) (i : Nat) : RegDecl :=
  let d := slice b (12 * i) 12
  ⟨leAt d 0 1, decide (leAt d 1 1 % 2 = 1), decide (leAt d 1 1 / 2 % 2 = 1), leAt d 4 4, leAt d 8 4⟩

/-- What a lane image declares (R322, R327 to R333). -/
def parseImage (b : List Byte) : Image :=
  let h := imageHeader b
  let rings := sectBytes b 3
  let km := sectBytes b 4
  let rd := sectBytes b 7
  let txn := sectBytes b 6
  let th := sectBytes b 2
  { isa := leAt h 7 1
    version := BitVec.ofNat 32 (leAt h 0x10 4)
    lineage := leAt h 0x14 2
    terms := BitVec.ofNat 64 (leAt h 0x20 8)
    groups := BitVec.ofNat 8 (leAt h 0x28 1)
    ports := BitVec.ofNat 8 (leAt h 0x29 1)
    panel := decide (leAt h 0x2A 1 = 1)
    abase := leAt h 0x2C 2
    gbase := leAt h 0x2E 2
    zbase := leAt h 0x30 2
    nalm := leAt h 0x32 2
    ngrp := leAt h 0x34 1
    nzone := leAt h 0x35 1
    code := bytesWords (sectBytes b 1)
    threads := (List.range 128).map (threadEntry th)
    posters := (List.range 128).map fun r => BitVec.ofNat 128 (leAt rings (32 * r) 16)
    takers := (List.range 128).map fun r => BitVec.ofNat 128 (leAt rings (32 * r + 16) 16)
    regions := (List.range (km.length / 20)).map fun i =>
      ⟨leAt km (20 * i) 2, leAt km (20 * i + 2) 2, BitVec.ofNat 128 (leAt km (20 * i + 4) 16)⟩
    keepInit := (imageBlocks b).1
    decls := (List.range 128).map (txnDecl txn)
    regDecls := (List.range (rd.length / 12)).map (regDecl rd)
    restore := BitVec.ofNat 256 (leNat (sectBytes b 8)) }

/-! ## The check MAP -/

/-- Threads whose entry is not as R327 requires; thread 0 where none has a budget. -/
def Image.badThreads (im : Image) (b : List Byte) : List Nat :=
  let th := sectBytes b 2
  let bad := (List.range 128).filter fun t =>
    let e := threadEntry th t
    decide (2 ≤ leAt th (8 * t + 5) 1 ∨ leAt th (8 * t + 6) 2 ≠ 0 ∨ 4194303 < e.budget)
      || (if e.budget = 0 then decide (leAt th (8 * t) 8 ≠ 0) else decide (im.code.length ≤ e.entry))
  if im.threads.all fun e => e.budget == 0 then 0 :: bad else bad

/-- The threads with a budget, as a mask. -/
def Image.live (im : Image) : BitVec 128 :=
  BitVec.ofNat 128 (im.threads.zipIdx.foldl (fun n x => if x.1.budget = 0 then n else n + 2 ^ x.2) 0)

/-- Rings whose masks are not as R328 requires. -/
def Image.badRings (im : Image) : List Nat :=
  (List.range 128).filter fun r =>
    let p := im.posters.getD r 0
    let k := im.takers.getD r 0
    decide ((96 ≤ r ∧ p ≠ 0) ∨ (117 ≤ r ∧ k ≠ 0) ∨ (p ||| k) &&& ~~~im.live ≠ 0)

/-- Whether word `a` lies in a region. -/
def Image.inRegion (im : Image) (a : Nat) : Bool :=
  im.regions.any fun r => decide (r.first ≤ a) && decide (a < r.first + r.count)

/-- Whether `n` records of `size` words at `base` lie wholly within one region (R329). -/
def Image.areaOk (im : Image) (base n size : Nat) : Bool :=
  decide (n = 0) || im.regions.any fun r => decide (r.first ≤ base) && decide (base + size * n ≤ r.first + r.count)

/-- Keep addresses of what R329, R330 and R385 refuse: regions, record areas and KEEPINIT blocks. -/
def Image.badKeep (im : Image) (b : List Byte) : List Nat :=
  let rs := im.regions.zipIdx
  let regions := rs.filterMap fun x =>
    let r := x.1
    let overlaps := rs.any fun y =>
      decide (y.2 ≠ x.2) && decide (r.first < y.1.first + y.1.count) && decide (y.1.first < r.first + r.count)
    if decide (r.count = 0 ∨ 32768 < r.first + r.count) || overlaps then some r.first else none
  let areas :=
    [(im.abase, im.nalm, 8, 1024), (im.gbase, im.ngrp, 16, 64), (im.zbase, im.nzone, 16, 16)].filterMap fun x =>
      if x.2.2.2 < x.2.1 ∨ !im.areaOk x.1 x.2.1 x.2.2.1 then some x.1 else none
  let ks := im.keepInit.zipIdx
  let blocks := ks.filterMap fun x =>
    let k := x.1
    let overlaps := ks.any fun y =>
      decide (y.2 ≠ x.2) && decide (k.addr < y.1.addr + y.1.vals.length) && decide (y.1.addr < k.addr + k.vals.length)
    if overlaps || (List.range k.vals.length).any (fun i => !im.inRegion (k.addr + i)) then some k.addr else none
  regions ++ areas ++ blocks ++ (imageBlocks b).2.toList

/-- The check MAP: threads, then rings, then keep addresses (R327 to R330, R385). -/
def Image.checkMap (im : Image) (b : List Byte) : Option Refused :=
  firstRefusal [lowest 7 (im.badThreads b), lowest 7 im.badRings, lowest 7 (im.badKeep b)]

/-! ## The check DECL -/

/-- The check DECL (R332, R333). -/
def Image.checkDecl (im : Image) (b : List Byte) : Option Refused :=
  let txn := sectBytes b 6
  let rd := sectBytes b 7
  let threads := (List.range 128).filter fun t =>
    let d := txnDecl txn t
    let before := (im.decls.take t).foldl (fun m x => m ||| x.outputs) 0
    decide (d.outputs &&& (before ||| ~~~im.terms) ≠ 0 ∨ 2 ^ 55 ≤ d.segments.toNat
        ∨ 2 ^ im.nzone ≤ d.zones.toNat ∨ 16 ≤ leAt txn (24 * t + 18) 2 ∨ leAt txn (24 * t + 20) 4 ≠ 0)
      || (!im.panel && decide (d.segments ≠ 0))
      || ((d.regRead || d.regWrite) && !im.regDecls.any fun x => x.thread == t)
  let ranges := (List.range im.regDecls.length).filterMap fun i =>
    let x := regDecl rd i
    let ok := decide (x.thread < 128 ∧ leAt rd (12 * i + 1) 1 < 4 ∧ leAt rd (12 * i + 2) 2 = 0
      ∧ x.base % 4 = 0 ∧ x.limit % 4 = 0 ∧ x.base ≤ x.limit)
    if ok then none else some x.thread
  lowest 8 (threads ++ ranges)

/-- The check CODE (R334). -/
def Image.checkCode (im : Image) : Option Refused :=
  match im.codeFails with
  | none => none
  | some a => some (9, a)

/-- Verification of the bytes of a slot of a kind, 1 lane program or 2 management: the first check that fails (R335,
R544). -/
def State.verifyImage (s : State) (kind : Nat) (b : List Byte) : Option Refused :=
  match checkFormat b with
  | some r => some r
  | none =>
    match firstRefusal [s.checkSignature b, s.checkKind b kind, checkUnknown b kind] with
    | some r => some r
    | none =>
      if kind = 2 then none
      else
        let im := parseImage b
        firstRefusal [s.checkResource b, im.checkMap b, im.checkDecl b, im.checkCode]

/-- The first thread whose budget does not fit a slot ceiling; where every one fits and the sum does not, thread 0. -/
def Image.overBudget (im : Image) (ceil : Nat) : Option Nat :=
  match (im.threads.zipIdx.filterMap fun x => if ceil < x.1.budget then some x.2 else none).min? with
  | some t => some t
  | none => if 128 * ceil < (im.threads.map (·.budget)).sum then some 0 else none

end Sys2Proof.Machine
end

