-- ==== Sys2Proof/Machine/Journal.lean ====
section
/-! DEFINITION. Journal store: records in bytes, the index, segments, the caddy and the compaction's moves (R402 to
R431). -/

namespace Sys2Proof.Machine

/-- The state with the journal controller changed. -/
def State.modJnl (s : State) (g : JnlSt → JnlSt) : State := { s with jnl := g s.jnl }

/-! ## Records (R405, R410) -/

/-- A record's bytes: by `writer`, with SEQ `q`, and GCOUNT `g` where it closes its group, else 0. -/
def recBytes (r : JRec) (writer q g : Nat) : List Byte :=
  let b := le 2 r.len ++ le 1 r.kind ++ le 1 r.ver ++ le 6 q ++ le 1 writer
    ++ [BitVec.ofNat 8 (if g = 0 then 0 else 128 + g)] ++ le 2 r.subj ++ le 1 r.subt
    ++ le 1 (if writer = 3 then r.thread else 0) ++ le 8 r.stamp.toNat ++ r.payload.flatMap wordBytes
  let b := b ++ List.replicate (r.len - 4 - b.length) 0#8
  b ++ wordBytes (crc32c b)

/-- Bytes of a group's records. -/
def JGroup.len (g : JGroup) : Nat := g.recs.foldl (fun n r => n + r.len) 0

/-- A group's bytes, its first record with SEQ `q`. -/
def JGroup.bytes (g : JGroup) (q : Nat) : List Byte :=
  (List.range g.recs.length).flatMap fun i =>
    match g.recs[i]? with
    | none => []
    | some r => recBytes r g.writer (q + i) (if i + 1 = g.recs.length then g.recs.length else 0)

/-- EXT of a record of a kind with its first payload word: LINEAGE, ADDR or 0 (R421). -/
def extOf (kind : Nat) (w : Word) : Nat :=
  if kind = 0x04 ∨ kind = 0x10 then w.toNat % 65536 else if kind = 0x30 then w.toNat else 0

/-- Whether SUBT takes part in a kind's identity, and whether SUBJ does (*Table: Record kinds*). -/
def subtCounts (kind : Nat) : Bool := decide (kind = 0x10) || decide (0x70 ≤ kind ∧ kind ≤ 0x7F)
def subjCounts (kind : Nat) : Bool :=
  decide (kind < 0x20) || decide (kind = 0x50) || decide (0x70 ≤ kind ∧ kind ≤ 0x7F)

/-- Whether records of a kind are ever live (R419, *Table: Record kinds*). -/
def indexed (kind : Nat) : Bool := decide (kind < 0xE0)

/-- The index entry of a record with SEQ `q` at flash offset `at_` (R420). -/
def recEntry (r : JRec) (q at_ : Nat) : IndexEntry where
  kind := r.kind
  subj := if subjCounts r.kind then r.subj else 0
  subt := if subtCounts r.kind then r.subt else 0
  ext := extOf r.kind (r.payload.getD 0 0)
  seq := q
  at_ := at_
  len := r.len
  leaders := BitVec.ofNat 64 ((r.payload.getD 0 0).toNat + 2 ^ 32 * (r.payload.getD 1 0).toNat)

/-- Whether two entries have the same KIND and identity (R419). -/
def IndexEntry.same (a b : IndexEntry) : Bool :=
  decide (a.kind = b.kind) && decide (a.subj = b.subj) && decide (a.subt = b.subt) && decide (a.ext = b.ext)

/-- The output-state records that stay live: the latest, and the latest whose LEADERS bit n is 1 for some n (R419). -/
def liveOutputs (es : List IndexEntry) : List IndexEntry :=
  es.filter fun e =>
    let later := es.filter fun x => decide (e.seq < x.seq)
    later.isEmpty || (List.range 48).any fun n => e.leaders.getLsbD n && !later.any fun x => x.leaders.getLsbD n

/-- The index with a committed record added: it replaces an entry of the same identity with a lower SEQ (R420). -/
def indexAdd (ix : List IndexEntry) (e : IndexEntry) : List IndexEntry :=
  if e.kind = 0x20 then
    (ix.filter fun x => x.kind ≠ 0x20) ++ liveOutputs ((ix.filter fun x => x.kind = 0x20) ++ [e])
  else if ix.any fun x => x.same e && decide (e.seq ≤ x.seq) then ix
  else (ix.filter fun x => !x.same e) ++ [e]

/-- The index after a purge record with SEQ `q` (R430). -/
def indexPurge (ix : List IndexEntry) (tkind first last q : Nat) : List IndexEntry :=
  ix.filter fun x =>
    let n := if tkind = 0x30 then x.ext % 65536 else x.subj
    !(decide (x.kind = tkind) && decide (first ≤ n ∧ n ≤ last) && decide (x.seq < q))

/-- The index after a committed record (R419, R430). -/
def indexTake (ix : List IndexEntry) (r : JRec) (q at_ : Nat) : List IndexEntry :=
  let w (i : Nat) : Nat := (r.payload.getD i 0).toNat
  if r.kind = 0xE0 then indexPurge ix (w 0 % 256) (w 0 / 65536) (w 1 % 65536) q
  else if indexed r.kind then indexAdd ix (recEntry r q at_)
  else ix

/-- The index after a committed group whose first record has SEQ `q` and lies at flash offset `at_`. -/
def indexGroup (ix : List IndexEntry) (g : JGroup) (q at_ : Nat) : List IndexEntry :=
  (g.recs.foldl (fun x r => (indexTake x.1 r x.2.1 x.2.2, x.2.1 + 1, x.2.2 + r.len)) (ix, q, at_)).1

/-- JNL_IDENT follows the index. -/
def State.setIndex (s : State) (ix : List IndexEntry) : State :=
  (s.modJnl fun j => { j with index := ix }).setFld A.jnlIdent F.jnlIdent_count ix.length

/-- JNL_LIVE shows the live bytes (R433). -/
def State.showLive (s : State) : State :=
  s.setReg A.jnlLive (BitVec.ofNat 32 (s.jnl.index.foldl (fun n e => n + e.len) 0))

/-! ## Segments (R403, R404, R418) -/

/-- JNL_SEG.STATE of a segment. -/
def State.segState (s : State) (seg : Nat) : Nat := s.fld (A.jnlSeg seg) F.jnlSeg_state

/-- The FREE segments of the journal partition, in circular order from the one after the head. -/
def State.freeSegs (s : State) : List Nat :=
  let h := match s.jnl.head with
    | none => 63
    | some h => h
  ((List.range 64).map fun i => (h + 1 + i) % 64).filter fun k => s.segState k == 1

/-- JNL_STATE.FREE and HEAD follow the segments. -/
def State.showSegs (s : State) : State :=
  let s := s.setFld A.jnlState F.jnlState_free s.freeSegs.length
  match s.jnl.head with
  | none => s
  | some h => s.setFld A.jnlState F.jnlState_head h

/-- JNL_STATE.PHASE. -/
def State.jnlPhase (s : State) : Nat := s.fld A.jnlState F.jnlState_phase

/-- Segments an append may open now: all but the reserve, which only the power-fail phase may open (R416, R418). -/
def State.openable (s : State) : Nat := s.freeSegs.length - (if s.jnlPhase = 2 then 0 else 1)

/-- Segment k in use, by number (R403). -/
def State.jseg (s : State) (k : Nat) : Option JSeg :=
  match s.jnl.segs.find? fun x => x.1 == k with
  | none => none
  | some x => some x.2

/-- Segment k's data changed. -/
def State.modSeg (s : State) (k : Nat) (g : JSeg → JSeg) : State :=
  s.modJnl fun j => { j with segs := j.segs.map fun x => if x.1 = k then (x.1, g x.2) else x }

/-- Bytes programmed in the journal partition (R428). -/
def State.countProg (s : State) (n : Nat) : State := s.setPair A.jnlProgLo (s.pair A.jnlProgLo + n)

/-- The open header of a segment (*Table: Open header*). -/
def openHeader (q typ comp opsecs : Nat) : List Byte :=
  let b := le 6 q ++ le 1 typ ++ le 1 0 ++ le 2 comp ++ le 2 0 ++ le 6 opsecs ++ le 10 0
  b ++ wordBytes (crc32c b)

/-- Segment k opened as a log segment (`typ` 1) or a copy segment (2) with OPEN_SEQ `q` (R403). -/
def State.openSeg (s : State) (k typ comp q : Nat) : State :=
  let ops := s.pair A.mgsOpsecsLo
  let s := (s.programBytes (k * 4096 + 1) (openHeader q typ comp ops)).countProg 32
  let s := s.modJnl fun j =>
    { j with segs := j.segs ++ [(k, ⟨q, ops, comp, 48⟩)], head := if typ = 1 then some k else j.head }
  (s.showSeg k (if typ = 1 then 2 else 3)).showSegs

/-- Room for `len` bytes at the head, which is opened where the group does not fit: the flash offset it goes to
(R404, R418). -/
def State.placeGroup (s : State) (len q : Nat) : Option (State × Nat) :=
  let fits := match s.jnl.head with
    | none => none
    | some h => match s.jseg h with
      | none => none
      | some x => if x.used + len ≤ 65536 then some (h * 65536 + x.used) else none
  match fits with
  | some a => some (s, a)
  | none =>
    if s.openable = 0 then none
    else
      match s.freeSegs with
      | [] => none
      | k :: _ => some (s.openSeg k 1 0 q, k * 65536 + 48)

/-- Bytes rounded up to a flash word (R404). -/
def wordUp (n : Nat) : Nat := (n + 15) / 16 * 16

/-- Segments that the caddy's groups, then one more of `len` bytes, would open (R418). -/
def State.opensFor (s : State) (len : Nat) : Nat :=
  let start := match s.jnl.head with
    | none => 65536
    | some h => match s.jseg h with
      | none => 65536
      | some x => x.used
  ((s.jnl.caddy.map fun x => wordUp x.2.len) ++ [wordUp len]).foldl
    (fun x n => if x.1 + n ≤ 65536 then (x.1 + n, x.2) else (48 + n, x.2 + 1)) (start, 0) |>.2

/-! ## The caddy (R407, R412, R414) -/

/-- The journal's next SEQ. -/
def State.jnlSeq (s : State) : Nat := s.pair A.jnlSeqLo

/-- A group offered at its crossing (R413). -/
def State.offer (s : State) (g : JGroup) : State := s.modJnl fun j => { j with offered := j.offered ++ [g] }

/-- Bytes the caddy holds. -/
def State.caddyFill (s : State) : Nat := s.jnl.caddy.foldl (fun n x => n + x.2.len) 0

/-- JNL_CADDY follows the caddy. -/
def State.showCaddy (s : State) : State :=
  let n := s.caddyFill
  (s.setFld A.jnlCaddy F.jnlCaddy_fill n).setFld A.jnlCaddy F.jnlCaddy_peak
    (Nat.max n (s.fld A.jnlCaddy F.jnlCaddy_peak))

/-- A group enters the caddy: its records take the next SEQs (R407, R414). -/
def State.enterCaddy (s : State) (g : JGroup) : State :=
  let q := s.jnlSeq
  let s := s.modJnl fun j => { j with caddy := j.caddy ++ [(q, g)] }
  let s := (s.setPair A.jnlSeqLo (q + g.recs.length)).setPair A.jnlInLo (s.pair A.jnlInLo + g.len)
  s.showCaddy

/-- Identities the index would hold with the caddy's groups and `g` committed (R414, R420). -/
def State.identsWith (s : State) (g : JGroup) : Nat :=
  (((s.jnl.caddy.map fun x => (x.1, x.2)) ++ [(s.jnlSeq, g)]).foldl
    (fun ix x => indexGroup ix x.2 x.1 0) s.jnl.index).length

/-- The journal is FULL: no group can open a segment outside the power-fail phase (R418). -/
def State.becomeFull (s : State) : State :=
  if 2 ≤ s.jnlPhase then s
  else ((s.setFld A.jnlState F.jnlState_phase 3).event A.jnlStatus F.jnlStatus_full).report 11 0

/-- What acceptance decides of a group (R414). -/
inductive Verdict where
  | accept | wait | tooBig | indexFull | full
  deriving DecidableEq, Repr

/-- The decision for the group at the front of the crossings (R412, R414, R418, R420). -/
def State.verdict (s : State) (g : JGroup) : Verdict :=
  if 32 < g.recs.length ∨ 4096 < g.len then .tooBig
  else if 16384 < s.identsWith g then .indexFull
  else if s.jnlPhase = 3 ∨ s.openable < s.opensFor g.len then .full
  else if 32768 < s.caddyFill + g.len then .wait
  else .accept

/-- A refused group's flags, count and fault (R414). -/
def State.countRefused (s : State) (v : Verdict) : State :=
  let s := if v = .full then s.becomeFull else s
  let s := if v = .indexFull then s.event A.jnlStatus F.jnlStatus_indexfull else s
  ((s.event A.jnlStatus F.jnlStatus_refused).satInc A.jnlCnt F.jnlCnt_refused).report 10 0

/-! ## Programming (R404, R411, R434) -/

/-- JNL_MAXSTAMP is at least `t` (R422). -/
def State.raiseMax (s : State) (t : Stamp) : State :=
  if s.pair A.jnlMaxstampLo < t.toNat then s.setPair A.jnlMaxstampLo t.toNat else s

/-- A free flash word: what a word whose program failed reads as (DESIGN CHOICE, assumption 61). -/
def State.freeFlash (s : State) (k : Nat) : State :=
  let w (i : Nat) : Nat := (Config.freeWord (s.free + i)).toNat
  { s with free := s.free + 4 }.setFlash k
    (BitVec.ofNat 128 (w 0 + 2 ^ 32 * w 1 + 2 ^ 64 * w 2 + 2 ^ 96 * w 3))

/-- The group is programmed at flash offset `at_`, and the index and MAXSTAMP follow (R411, R420, R422). -/
def State.programGroup (s : State) (g : JGroup) (q at_ : Nat) : State :=
  let n := wordUp g.len
  let s := ((s.programBytes (at_ / 16) (g.bytes q)).countProg n).modSeg (at_ / 65536)
    fun x => { x with used := x.used + n }
  let s := g.recs.foldl (fun s r => s.raiseMax r.stamp) s
  s.setIndex (indexGroup s.jnl.index g q at_)

/-- A word of the group failed its program verify: its segment closes (R434). -/
def State.programFailed (s : State) (at_ : Nat) : State :=
  let s := (s.freeFlash (at_ / 16)).countProg 16
  let s := s.modSeg (at_ / 65536) fun x => { x with used := 65536 }
  (s.event A.jnlStatus F.jnlStatus_flasherr).raise 12 0 0 0 (BitVec.ofNat 32 at_) s.tbc

/-! ## Reading stored records -/

/-- Stored record at a flash offset. -/
def State.storedAt (s : State) (at_ n : Nat) : List Byte :=
  (s.flashBytes (at_ / 16) (n + 8)).drop (at_ % 16) |>.take n

/-- A record parsed from its bytes. -/
def parseRec (b : List Byte) : JRec where
  kind := leAt b 2 1
  ver := leAt b 3 1
  subj := leAt b 12 2
  subt := leAt b 14 1
  thread := leAt b 15 1
  stamp := BitVec.ofNat 64 (leAt b 16 8)
  payload := bytesWords (slice b 24 (leAt b 0 2 - 28))

/-- A record found in a segment: its place, contents, SEQ, CLOSE and GCOUNT, and whether its checks hold (R422). -/
structure Found where
  at_ : Nat
  r : JRec
  seq : Nat
  close : Bool
  count : Nat
  ok : Bool
  deriving DecidableEq, Repr

/-- The records of segment k from `off` on, and the offset at which the scan stops; 65,536 where the rest of the segment
is lost (R422). -/
def State.scanRecords (s : State) (k : Nat) : Nat → Nat → List Found × Nat
  | 0, off => ([], off)
  | fuel + 1, off =>
    if 65536 ≤ off then ([], off)
    else if off % 16 = 0 ∧ s.flashWord (k * 4096 + off / 16) = erasedWord then ([], off)
    else if s.storedAt (k * 65536 + off) 8 = List.replicate 8 0#8 then s.scanRecords k fuel (off + 8)
    else
      let n := leAt (s.storedAt (k * 65536 + off) 2) 0 2
      if n < 32 ∨ 256 < n ∨ n % 8 ≠ 0 ∨ 65536 < off + n then
        ([⟨k * 65536 + off, parseRec [], 0, false, 0, false⟩], 65536)
      else
        let b := s.storedAt (k * 65536 + off) n
        let ok := decide (leAt b (n - 4) 4 = (crc32c (b.take (n - 4))).toNat)
        let f : Found :=
          ⟨k * 65536 + off, parseRec b, leAt b 4 6, decide (128 ≤ leAt b 11 1), leAt b 11 1 % 64, ok⟩
        let x := s.scanRecords k fuel (off + n)
        (f :: x.1, x.2)

/-- Whether the records before the closing record `m` at place i of a segment make its committed group (R410). -/
def wholeGroup (fs : List Found) (i : Nat) (m : Found) : Bool :=
  decide (1 ≤ m.count) && decide (m.count ≤ i + 1) &&
    (List.range m.count).all fun j =>
      match fs[i - j]? with
      | none => false
      | some x => x.ok && (decide (j = 0) || !x.close) && decide (x.seq + j = m.seq)

/-- The records of the committed groups of a segment (R410). -/
def committedIn (fs : List Found) : List Found :=
  (List.range fs.length).flatMap fun i =>
    match fs[i]? with
    | none => []
    | some m => if m.ok && m.close && wholeGroup fs i m then (fs.drop (i + 1 - m.count)).take m.count else []

/-- Groups of a segment that are discarded whole: a closing record without its records (R410, R422). -/
def brokenGroups (fs : List Found) : Nat :=
  ((List.range fs.length).filter fun i =>
    match fs[i]? with
    | none => false
    | some m => m.ok && m.close && !wholeGroup fs i m).length

/-- The records of segment k. -/
def State.segRecords (s : State) (k : Nat) : List Found × Nat := s.scanRecords k 8200 48

/-! ## Compaction (R424 to R426, R431) -/

/-- JNL_STATE.COMPACT of the compaction's step. -/
def State.showComp (s : State) : State :=
  s.setFld A.jnlState F.jnlState_compact (match s.jnl.comp.step with
    | .idle => 0
    | .erasing => 2
    | _ => 1)

/-- The compaction changed, and COMPACT with it. -/
def State.modComp (s : State) (g : Compaction → Compaction) : State :=
  (s.modJnl fun j => { j with comp := g j.comp }).showComp

/-- In-use segments by OPEN_SEQ, oldest first (R403). -/
def State.inUse (s : State) : List (Nat × JSeg) :=
  s.jnl.segs.mergeSort fun a b => decide (a.2.openSeq ≤ b.2.openSeq)

/-- The segments a compaction may take: the oldest in use, up to 8, but the head and the copy segments opened since the
last compaction (R424). -/
def State.victims (s : State) : List (Nat × JSeg) :=
  (s.inUse.filter fun x => s.jnl.head != some x.1 && (x.2.comp == 0 || x.2.comp != s.jnl.comp.num)).take 8

/-- Whether a compaction's trigger holds (R424). -/
def State.compactionDue (s : State) : Bool :=
  s.jnl.compAsked || decide (s.freeSegs.length < 8)
    || (match s.inUse with
        | [] => false
        | x :: _ => decide (x.2.opsecs + s.fld A.jnlCtrl F.jnlCtrl_age * 86400 < s.pair A.mgsOpsecsLo))

/-- A record of the journal controller itself (R413). -/
def State.internalRec (s : State) (kind : Nat) (payload : List Word) : JRec :=
  ⟨kind, 1, 0, 0, 0, s.tbc, payload⟩

/-- The begin record's payload (*Table: Record kinds*). -/
def beginPayload (num : Nat) (vs : List (Nat × JSeg)) : List Word :=
  bytesWords (le 2 num ++ le 1 vs.length ++ le 1 0
    ++ vs.flatMap fun x => le 1 x.1 ++ le 1 0 ++ le 6 x.2.openSeq)

/-- The records of the victims that are copied, in SEQ order: the live ones, and each purge record while an in-use
segment outside the victims may still hold what it covers (R425, R431): SEQ, place and length. -/
def State.toCopy (s : State) (victims : List Nat) : List (Nat × Nat × Nat) :=
  let purges := victims.flatMap fun k =>
    let fs := (s.segRecords k).1
    let fs := if s.segState k = 3 then fs.filter fun f => f.ok else committedIn fs
    (fs.filter fun f => f.r.kind = 0xE0).map fun f => (f.seq, f.at_, 40)
  let live := (s.jnl.index.filter fun e => victims.contains (e.at_ / 65536)).map fun e => (e.seq, e.at_, e.len)
  let older (q : Nat) : Bool := s.jnl.segs.any fun x => !victims.contains x.1 && decide (x.2.openSeq < q)
  (live ++ purges.filter fun x => older x.1).mergeSort fun a b => decide (a.1 ≤ b.1)

/-- The copy of one record: the open copy segment with what it holds so far, where it does not fit a new one
(R425). -/
def State.copyOne (s : State) (q : Nat) (cur : Option Nat) (r : Nat × Nat × Nat) : Option (State × Nat) :=
  let room := match cur with
    | none => none
    | some k => match s.jseg k with
      | none => none
      | some x => if x.used + r.2.2 ≤ 65536 then some k else none
  match room with
  | some k => some (s, k)
  | none =>
    if s.freeSegs.length < 2 then none
    else
      match s.freeSegs with
      | [] => none
      | k :: _ => some (s.openSeg k 2 s.jnl.comp.num q, k)

/-- The places of the copies: each record with its copy's flash offset; none where the FREE segments do not suffice. -/
def State.planCopies (s : State) (q : Nat) : List (Nat × Nat × Nat) → Option Nat →
    Option (State × List (Nat × Nat × Nat))
  | [], _ => some (s, [])
  | r :: t, cur =>
    match s.copyOne q cur r with
    | none => none
    | some (s, k) =>
      let at_ := match s.jseg k with
        | none => 0
        | some x => k * 65536 + x.used
      match (s.modSeg k fun x => { x with used := x.used + r.2.2 }).planCopies q t (some k) with
      | none => none
      | some (s, ps) => some (s, (r.1, r.2.1, at_) :: ps)

/-- The copy segments' contents programmed, each segment's records one after another (R404). -/
def State.programCopies (s0 s : State) (ks : List Nat) (rs : List (Nat × Nat × Nat)) (ps : List (Nat × Nat × Nat)) :
    State :=
  ks.foldl
    (fun s k =>
      let bs := (rs.zip ps).flatMap fun x =>
        if x.2.2.2 / 65536 = k then s0.storedAt x.1.2.1 x.1.2.2 else []
      ((s.programBytes (k * 4096 + 3) bs).countProg (wordUp bs.length)).modSeg k fun x => { x with used := wordUp x.used }) s

/-- When a copied record's compaction has ended, the index points to the copies (R425, R426). -/
def State.moveIndex (s : State) : State :=
  s.modJnl fun j => { j with index := j.index.map fun e =>
    match j.comp.copies.find? fun c => c.1 == e.seq with
    | none => e
    | some c => { e with at_ := c.2 } }

/-- The compaction's begin record has committed: copying begins (R425). -/
def State.beganCopying (s : State) : State := s.modComp fun c => { c with step := .copying }

/-- The compaction's end record has committed: the victims await erasure (R425). -/
def State.beganErasing (s : State) : State :=
  let s := s.moveIndex.modComp fun c => { c with step := .erasing }
  s.jnl.comp.victims.foldl (fun s k => s.setFld (A.jnlSeg k) F.jnlSeg_state 4) s

/-- A compaction whose erasures have ended (R425). -/
def State.compactionEnded (s : State) : State :=
  let ms := (s.tbc - s.jnl.comp.began).toNat / 100000
  let s :=
    if s.jnl.comp.counts then
      (((s.satInc A.jnlCompact F.jnlCompact_count).setFld A.jnlCompact F.jnlCompact_last (Nat.min ms 65535)).event
        A.jnlStatus F.jnlStatus_compactdone).showLive
    else s
  s.modComp fun c => { c with step := .idle, counts := false }

/-- The journal at input loss (R416): appends go on, and the reserve may be opened. -/
def State.jnlPowerFail (s : State) : State :=
  if s.jnlPhase = 0 then s else s.setFld A.jnlState F.jnlState_phase 2

end Sys2Proof.Machine
end

