-- ==== Sys2Proof/Machine/Update.lean ====
section
/-! DEFINITION. Update engine: slots, transfers, verification, and the records and refusals of activations (R527, R542 to
R551). -/

namespace Sys2Proof.Machine

/-- The update engine changed. -/
def State.modUpd (s : State) (g : UpdSt → UpdSt) : State := { s with upd := g s.upd }

/-! ## Slots (R542) -/

/-- Segments of slot k: 0 and 1 lane A and B, 2 and 3 management A and B. -/
def slotSegs (k : Nat) : List Nat :=
  match k with
  | 0 => List.range' 80 16
  | 1 => List.range' 96 16
  | 2 => List.range' 112 8
  | _ => List.range' 120 8

/-- Bytes a segment of a slot holds. -/
def segRoom : Nat := 65520

/-- Bytes a slot of a kind holds. -/
def slotRoom (kind : Nat) : Nat := if kind = 1 then 1048320 else 524160

/-- The kind of slot k. -/
def slotKind (k : Nat) : Nat := if k < 2 then 1 else 2

/-- The first n bytes of slot k. -/
def State.slotBytes (s : State) (k n : Nat) : List Byte :=
  ((slotSegs k).flatMap fun g => s.flashBytes (g * 4096 + 1) segRoom).take n

/-- One byte of slot k set at offset i. -/
def State.putSlotByte (s : State) (k i : Nat) (b : Byte) : State :=
  let o := 16 + i % segRoom
  let w := ((slotSegs k).getD (i / segRoom) 0) * 4096 + o / 16
  let bs := (s.flashWordBytes w).set (o % 16) b
  s.setFlash w (wordOf bs)

/-- Bytes written into slot k from offset i. -/
def State.putSlot (s : State) (k i : Nat) (bs : List Byte) : State :=
  bs.zipIdx.foldl (fun s x => s.putSlotByte k (i + x.2) x.1) s

/-- UPD_SLOT(k).STATE: 0 empty, 1 written, 2 verified, 3 rejected, 4 active. -/
def State.slotState (s : State) (k : Nat) : Nat := s.fld (A.updSlot k) F.updSlot_state

/-- UPD_SLOT(k).STATE set. -/
def State.setSlot (s : State) (k st : Nat) : State := s.setFld (A.updSlot k) F.updSlot_state st

/-- The slot's registers show no image. -/
def State.clearSlot (s : State) (k : Nat) : State :=
  let s := (((s.setSlot k 0).setFld (A.updSlot k) F.updSlot_lineage 0).setReg (A.updSver k) 0).setReg (A.updSlen k) 0
  (List.range 8).foldl (fun s j => s.setReg (A.updDig k j) 0) s

/-- UPD_DIG of slot k, in bytes. -/
def State.slotDigest (s : State) (k : Nat) : List Byte := (List.range 8).flatMap fun j => wordBytes (s.reg (A.updDig k j))

/-- The slot's registers show a verified image. -/
def State.showImage (s : State) (k : Nat) (b : List Byte) : State :=
  let s := (s.setFld (A.updSlot k) F.updSlot_lineage (leAt b 0x14 2)).setReg (A.updSver k) (BitVec.ofNat 32 (leAt b 0x10 4))
  let s := s.setReg (A.updSlen k) (BitVec.ofNat 32 (leAt b 0x0C 4))
  let d := sha256 b
  ((List.range 8).foldl (fun s j => s.setReg (A.updDig k j) (BitVec.ofNat 32 (leAt d (4 * j) 4))) s).setSlot k 2

/-- The slot's image by the length its registers show. -/
def State.slotImage (s : State) (k : Nat) : List Byte := s.slotBytes k (s.reg (A.updSlen k)).toNat

/-- The active slot of a kind. -/
def State.activeSlot (s : State) (kind : Nat) : Option Nat := if kind = 1 then s.upd.lane else s.upd.mgmt

/-- The other slot of a slot's kind. -/
def otherSlot (k : Nat) : Nat := if k % 2 = 0 then k + 1 else k - 1

/-- The inactive slot of a kind (R542). -/
def State.inactiveSlot (s : State) (kind : Nat) : Nat :=
  match s.activeSlot kind with
  | none => if kind = 1 then 0 else 2
  | some k => otherSlot k

/-- Slot k verified afresh at a start, by the length in its header (R550, R587). -/
def State.verifyAtStart (s : State) (k : Nat) : State :=
  let n := leAt (s.slotBytes k 16) 0x0C 4
  if s.slotBytes k 4 = List.replicate 4 0xFF#8 then s.clearSlot k
  else if slotRoom (slotKind k) < n then s.setSlot k 3
  else
    let b := s.slotBytes k n
    match s.verifyImage (slotKind k) b with
    | none => s.showImage k b
    | some _ => s.setSlot k 3

/-! ## Transfers (R527, R543) -/

/-- UPD_STATE.XFER set. -/
def State.setXfer (s : State) (n : Nat) : State := s.setFld A.updState F.updState_xfer n

/-- UPD_STATE.XFER. -/
def State.xferState (s : State) : Nat := s.fld A.updState F.updState_xfer

/-- Whether the update engine is busy: a transfer, an activation or a start-up load in progress. -/
def State.updBusy (s : State) : Bool := s.upd.xfer.isSome || s.upd.act.isSome || s.upd.load.isSome

/-- Why a transfer of a kind and length is refused: 1 BUSY, 2 SIZE, 3 KIND (R527). -/
def State.openCause (s : State) (kind len : Nat) : Option Nat :=
  if s.updBusy then some 1
  else if kind ≠ 1 ∧ kind ≠ 2 then some 3
  else if slotRoom kind < len ∨ len % 4 ≠ 0 then some 2
  else none

/-- A transfer opens: the inactive slot is to be erased (R527, R543). -/
def State.openXfer (s : State) (kind len master : Nat) (assoc : Option Nat) (number : Nat) : State :=
  let k := s.inactiveSlot kind
  let s := s.modUpd fun u => { u with xfer := some ⟨kind, k, master, assoc, number, len, 0, 0, 1⟩ }
  let s := ((s.setXfer 1).setFld A.updState F.updState_xkind kind).setFld A.updState F.updState_xmaster master
  (s.setReg A.updNext 0).clearSlot k

/-- An IMG_STAT element to the transfer's association (R527). -/
def State.imgStat (s : State) (a number state reason next : Nat) : State :=
  s.sendTo a 0x42 (element 0x42 number (be 1 state ++ be 1 reason ++ be 2 0 ++ be 4 next))

/-- A change of the transfer's STATE, told to the partner of an SNX transfer. -/
def State.tellXfer (s : State) (x : Transfer) (state reason : Nat) : State :=
  match x.assoc with
  | none => s
  | some a => (s.imgStat a x.number state reason x.next).event A.netStatus F.netStatus_img

/-- SLOT_ERASE_DONE (R527, R543). -/
def execSlotEraseDone (s : State) : Out :=
  .next (
    match s.upd.xfer with
    | none => s
    | some x =>
      if x.phase = 1 then
        let s := (slotSegs x.slot).foldl State.eraseSegment s
        ((s.modUpd fun u => { u with xfer := some { x with phase := 2 } }).setXfer 2).tellXfer x 2 0
      else s)

/-- Image bytes written at NEXT (R527, R543). -/
def State.xferData (s : State) (x : Transfer) (bs : List Byte) : State :=
  let s := (s.putSlot x.slot x.next bs).setSlot x.slot 1
  let n := x.next + bs.length
  let x' := { x with next := n, written := x.written + 1 }
  (s.modUpd fun u => { u with xfer := some x' }).setReg A.updNext (BitVec.ofNat 32 n)

/-- The transfer closes: verification starts once NEXT equals LENGTH (R543). -/
def State.closeXfer (s : State) (x : Transfer) : State :=
  if x.phase = 2 ∧ x.next = x.length then
    (s.modUpd fun u => { u with xfer := some { x with phase := 3 } }).setXfer 3
  else s

/-- The transfer ends ABORTED (R527, R543). -/
def State.endXfer (s : State) (x : Transfer) : State := s.abortXfer.tellXfer x 5 0

/-- VERIFICATION_DONE (R544). -/
def execVerificationDone (s : State) : Out :=
  .next (
    match s.upd.xfer with
    | none => s
    | some x =>
      if x.phase ≠ 3 then s
      else
        let b := s.slotBytes x.slot x.length
        let s := s.modUpd fun u => { u with xfer := none }
        match s.verifyImage x.kind b with
        | none => (((s.showImage x.slot b).setXfer 4).event A.updStatus F.updStatus_xferdone).tellXfer x 3 0
        | some (why, detail) =>
          let s := ((s.setSlot x.slot 3).setXfer 5).setFld A.updState F.updState_reason why
          ((s.setReg A.updDetail (BitVec.ofNat 32 detail)).event A.updStatus F.updStatus_rejected).tellXfer x 4 why)

/-! ## Activations (R547 to R551) -/

/-- The activation changed, with UPD_STATE.ACT. -/
def State.setAct (s : State) (a : Option Activation) : State :=
  (s.modUpd fun u => { u with act := a }).setFld A.updState F.updState_act (match a with
    | none => 0
    | some x => if x.kind = 2 ∧ 2 < x.step then 7 else Nat.min x.step 6)

/-- The activation record of a slot with SUBT `phase`: 1 prepare, 2 commit, 3 rollback (R408). -/
def State.actRec (s : State) (k phase : Nat) : JRec :=
  ⟨0x50, 1, phase, slotKind k, 0, s.tbc,
    BitVec.ofNat 32 (k % 2) :: s.reg (A.updSver k) :: BitVec.ofNat 32 (s.fld (A.updSlot k) F.updSlot_lineage)
      :: (List.range 8).map fun j => s.reg (A.updDig k j)⟩

/-- An activation record handed to the journal (R548). -/
def State.offerAct (s : State) (k phase : Nat) : State :=
  s.offer ⟨7, .activation (slotKind k) phase, [s.actRec k phase]⟩

/-- Periods an activation is checked against: that in force and one a commit waits to apply (R336). -/
def State.periods (s : State) : List Nat :=
  s.frame.period :: (match s.field.waiting with
    | none => []
    | some c => [(scanSet c).period])

/-- The first thread that fails the budget check of a lane image (R233, R336). -/
def State.budgetFails (s : State) (im : Image) : Option Nat :=
  match s.periods.filterMap fun p => im.overBudget (slotCeiling p) with
  | [] => none
  | t :: _ => some t

/-- The refusal of an activation: REASON, with UPD_DETAIL for BUDGET (R547). -/
def State.actCause (s : State) (kind : Nat) : Option (Nat × Option Nat) :=
  let k := s.inactiveSlot kind
  if s.updBusy then some (0x10, none)
  else if s.slotState k ≠ 2 then some (0x11, none)
  else if sha256 (s.slotImage k) ≠ s.slotDigest k then some (0x12, none)
  else if kind = 1 then
    match s.budgetFails (parseImage (s.slotImage k)) with
    | none => none
    | some t => some (0x0A, some t)
  else none

/-- OP ACTIVATE or ROLLBACK of a kind (R547, R548, R549): refused, or its prepare record is handed on. -/
def State.activate (s : State) (kind : Nat) (rollback : Bool) : State :=
  match s.actCause kind with
  | some (why, detail) =>
    let s := (s.setFld A.updState F.updState_reason why).event A.updStatus F.updStatus_actrefused
    (match detail with
     | none => s
     | some t => s.setReg A.updDetail (BitVec.ofNat 32 t))
  | none =>
    let k := s.inactiveSlot kind
    let s := s.setAct (some ⟨kind, k, rollback, 2, false, false, false⟩)
    let s := if kind = 1 then { s with nextImage := some (parseImage (s.slotImage k)) } else s
    s.offerAct k 1

/-- No lane image is active (R548, R550). -/
def State.noImage (s : State) : State :=
  let s := { s with image := none, nextImage := none }
  ((s.modUpd fun u => { u with lane := none, load := none }).event A.updStatus F.updStatus_noimage).report 75 0

/-- Step 4 or 5 of a lane activation failed: the other slot is activated from step 4 where it still reads verified, or
was active (R548). -/
def State.fallBack (s : State) (a : Activation) : State :=
  let k := otherSlot a.slot
  if !a.fell && (s.slotState k == 2 || s.slotState k == 4) then
    let s := s.offerAct k 3
    let s := { s with nextImage := some (parseImage (s.slotImage k)) }
    s.setAct (some ⟨1, k, true, 4, true, false, true⟩)
  else (s.setAct none).noImage

/-- A slot becomes the active one of its kind. -/
def State.makeActive (s : State) (k : Nat) : State :=
  let s := match s.activeSlot (slotKind k) with
    | none => s
    | some o => if o = k then s else if s.slotState o = 4 then s.setSlot o 2 else s
  let s := s.setSlot k 4
  s.modUpd fun u => if slotKind k = 1 then { u with lane := some k } else { u with mgmt := some k }

/-- CODE, threads, rings, keep map and declarations of an image loaded into the three lanes, whose threads take the state
the image gives them (R260, R337, R548). -/
def State.loadCode (s : State) (im : Image) : State :=
  let code := sfrom (0 : Word) 0 im.code
  let dig := crc32c (im.code.flatMap wordBytes)
  let threads := (List.range 128).map fun t =>
    let e := im.threads.getD t ⟨0, 0, false⟩
    if e.budget = 0 then Thread.idle else { Thread.idle with st := .run, cpu := Cpu.fresh e.entry }
  let s := { s with
    image := some im, nextImage := none, tcmds := []
    lanes := s.lanes.map fun ln =>
      { ln with code := code, threads := threads, outbox := [], reports := [], executing := false } }
  (List.range 3).foldl
    (fun s l => (s.setReg (A.lnCodedig l) dig).setFld (A.lnState l) F.lnState_isa im.isa) s

end Sys2Proof.Machine
end

