-- ==== Sys2Proof/Machine/NetworkIns.lean ====
section
/-! DEFINITION. Network links: received elements, associations and their configuration, image transfers by SNX, ship time and
the elements sent by time (R502 to R506, R513 to R529). -/

namespace Sys2Proof.Machine

/-! ## Received elements -/

/-- The first received element of a TYPE from association a, and the state without it. -/
def State.firstRx (s : State) (a typ : Nat) : Option (RxElem × State) :=
  match s.net.rx.find? fun e => e.assoc == a && e.typ == typ with
  | none => none
  | some e => some (e, s.modNet fun n => { n with rx := n.rx.erase e })

/-- Whether the body has the length of its TYPE at version `ver` (*Table: SNX elements*, *Table: Version 1 forms*). -/
def bodyOk (e : RxElem) (ver : Nat) : Bool :=
  let n := e.body.length
  match e.typ with
  | 0x01 => decide (n = 8)
  | 0x10 => decide (n = if ver = 1 then 12 else 16)
  | 0x12 => decide (n = 4)
  | 0x15 => decide (n = 4)
  | 0x16 => decide (1 ≤ leAt e.body 0 1 ∧ leAt e.body 0 1 ≤ 16 ∧ n = 16 + 4 * leAt e.body 0 1)
  | 0x17 => decide (leAt e.body 1 1 ≤ 8 ∧ n = 4 + 4 * leAt e.body 1 1)
  | 0x30 => decide (n = 4)
  | 0x31 => decide (n = 8)
  | 0x40 => decide (n = 8)
  | 0x41 => decide (4 ≤ n ∧ n ≤ 772)
  | 0x43 => decide (n = 4)
  | _ => false

/-- Whether an element other than HELLO is taken: the association is UP at a version that has it, and its body is in form
(R515, R517). -/
def State.elemTaken (s : State) (e : RxElem) (least : Nat) : Bool :=
  s.assocUp e.assoc && decide (least ≤ s.assocVer e.assoc) && bodyOk e (s.assocVer e.assoc)

/-- An element from association a of a TYPE acts as `g`, or is discarded and counted. -/
def State.onElem (s : State) (a typ least : Nat) (g : State → RxElem → State) : State :=
  match s.firstRx a typ with
  | none => s
  | some (e, s) => if s.elemTaken e least then g s e else s.skip

/-- A received element delivered to the lanes (R524), where LANES is 1. -/
def State.deliver (s : State) (e : RxElem) (v : TWord) (aux : Nat) (pay : List (BitVec 64)) : State :=
  if s.bit (A.netAcfg e.assoc) F.netAcfg_lanes then
    s.send { mkRec (s.assocRing e.assoc) e.typ e.assoc v aux e.stamp 9 with payload := pay }
  else s.skip

/-- A POINT's value and tag at version `ver` (R518). -/
def pointValue (b : List Byte) (ver : Nat) : TWord :=
  let w : Word := BitVec.ofNat 32 (beAt b 0 4)
  if ver = 1 then
    ⟨w, if leAt b 4 1 = 0 then .good else if w = 0x80000000#32 then .bad else .uncertain⟩
  else ⟨w, Tag.ofCode (leAt b 4 1)⟩

/-- POINT (R524). -/
def execPoint (a : Assoc) (s : State) : Out :=
  .next (s.onElem a.val 0x10 1 fun s e =>
    let ver := s.assocVer e.assoc
    let p := e.subj % 4096 + (if e.isLocal then 2 ^ 16 else 0) + (if ver = 1 then 2 ^ 17 else 0)
    let stamp := beAt e.body 8 (if ver = 1 then 4 else 8)
    s.deliver e (pointValue e.body ver) 2 [BitVec.ofNat 64 p, BitVec.ofNat 64 stamp])

/-- ACK_ELEMENT (R524). -/
def execAckElement (a : Assoc) (s : State) : Out :=
  .next (s.onElem a.val 0x12 1 fun s e =>
    s.deliver e ⟨BitVec.ofNat 32 (e.subj + leAt e.body 0 1 % 4 * 2 ^ 16), .good⟩ 1 [BitVec.ofNat 64 (beAt e.body 2 2)])

/-- ANSWER_ELEMENT (R524). -/
def execAnswerElement (a : Assoc) (s : State) : Out :=
  .next (s.onElem a.val 0x15 1 fun s e =>
    let v := e.subj % 16 + leAt e.body 1 1 % 8 * 16 + leAt e.body 0 1 * 256
    s.deliver e ⟨BitVec.ofNat 32 v, .good⟩ 0 [])

/-- The payload of a MSG record: subtype, N and TAGS, then the words after the first in pairs. -/
def msgPayload (e : RxElem) : List (BitVec 64) :=
  let n := leAt e.body 0 1
  let w (i : Nat) : Nat := if i < n then beAt e.body (8 + 4 * i) 4 else 0
  BitVec.ofNat 64 (e.subj % 256 + n * 256 + beAt e.body 4 4 * 2 ^ 32)
    :: (List.range (n / 2)).map fun j => BitVec.ofNat 64 (w (2 * j + 1) + 2 ^ 32 * w (2 * j + 2))

/-- MSG (R524). -/
def execMsg (a : Assoc) (s : State) : Out :=
  .next (s.onElem a.val 0x16 2 fun s e =>
    let p := msgPayload e
    s.deliver e ⟨BitVec.ofNat 32 (beAt e.body 8 4), Tag.ofCode (beAt e.body 4 4)⟩ p.length p)

/-- SUBSCRIBE (R520): it replaces the ranges and flags the partner subscribed before. -/
def execSubscribe (a : Assoc) (s : State) : Out :=
  .next (s.onElem a.val 0x17 2 fun s e =>
    let nr := leAt e.body 1 1
    let fl := leAt e.body 0 1
    let rs := (List.range nr).map fun i => (beAt e.body (4 + 4 * i) 2, beAt e.body (6 + 4 * i) 2)
    (s.modAssoc e.assoc fun x =>
      { x with ranges := rs, alarms := decide (fl % 2 = 1), hart := decide (fl / 2 % 2 = 1) }).setFld
      (A.netAstate e.assoc) F.netAstate_ranges nr)

/-- HELLO (R515). -/
def execHello (a : Assoc) (s : State) : Out :=
  .next (
    match s.firstRx a.val 0x01 with
    | none => s
    | some (e, s) =>
      if !s.assocOn a.val then s else if bodyOk e 1 then s.takeHello a.val e else s.skip)

/-! ## Remote register access (R525, R526) -/

/-- A REG_RSP to a request of association a. -/
def State.sendResp (s : State) (a : Nat) (r : RegResp) : State :=
  s.sendTo a 0x32 (element 0x32 r.req (be 1 r.status ++ be 3 0 ++ be 4 r.addr.toNat ++ be 4 r.data.toNat))

/-- A response is sent and kept among the last four of the association. -/
def State.keepResp (s : State) (a : Nat) (r : RegResp) : State :=
  (s.modAssoc a fun x => { x with kept := (r :: x.kept).take 4 }).sendResp a r

/-- One more access answered DENIED or PENDING. -/
def State.countDenied (s : State) : State := s.satInc A.netRcnt F.netRcnt_denied

/-- A register request: answered from a kept response, or DENIED, or PENDING where 16 wait, or queued. -/
def State.regRequest (s : State) (e : RxElem) (write : Bool) : State :=
  let a := e.assoc
  let addr : Word := BitVec.ofNat 32 (beAt e.body 0 4)
  match (s.assoc a).kept.find? fun r => r.req == e.subj with
  | some r => s.sendResp a r
  | none =>
    if s.net.remote.any fun r => r.assoc == a && r.req == e.subj then s
    else if s.ownCaps a / (if write then 2 else 1) % 2 = 0 then
      s.countDenied.keepResp a ⟨e.subj, 0x92, addr, 0⟩
    else if 16 ≤ s.net.remote.length then s.countDenied.sendResp a ⟨e.subj, 0xB0, addr, 0⟩
    else
      let data : Word := if write then BitVec.ofNat 32 (beAt e.body 4 4) else 0
      s.modNet fun n => { n with remote := n.remote ++ [⟨a, e.subj, write, addr, data⟩] }

/-- REG_RD (R525). -/
def execRegRd (a : Assoc) (s : State) : Out := .next (s.onElem a.val 0x30 1 fun s e => s.regRequest e false)

/-- REG_WR (R525). -/
def execRegWr (a : Assoc) (s : State) : Out := .next (s.onElem a.val 0x31 1 fun s e => s.regRequest e true)

/-! ## Image transfer (R527) -/

/-- IMG_OPEN (R527): a transfer the association may not make is refused as DENIED before the other causes. -/
def execImgOpen (a : Assoc) (s : State) : Out :=
  .next (s.onElem a.val 0x40 3 fun s e =>
    let kind := leAt e.body 0 1
    let len := beAt e.body 4 4
    let why := if s.ownCaps e.assoc / 4 % 2 = 0 then some 4 else s.openCause kind len
    match why with
    | some r => s.imgStat e.assoc e.subj 6 r 0
    | none =>
      let s := s.openXfer kind len 6 (some e.assoc) e.subj
      match s.upd.xfer with
      | none => s
      | some x => s.tellXfer x 1 0)

/-- The transfer that an element of an association and number belongs to. -/
def State.xferOf (s : State) (e : RxElem) : Option Transfer :=
  match s.upd.xfer with
  | none => none
  | some x => if x.assoc = some e.assoc ∧ x.number = e.subj then some x else none

/-- IMG_DATA (R527): at NEXT it is written, at any other offset discarded and answered at once. -/
def execImgData (a : Assoc) (s : State) : Out :=
  .next (s.onElem a.val 0x41 3 fun s e =>
    match s.xferOf e with
    | none => s
    | some x =>
      let d := e.body.drop 4
      if x.phase = 2 ∧ beAt e.body 0 4 = x.next ∧ !d.isEmpty
          ∧ (d.length = 768 ∨ x.next + d.length = x.length) ∧ x.next + d.length ≤ x.length then
        let s := s.xferData x d
        if (x.written + 1) % 4 = 0 then s.imgStat e.assoc e.subj 2 0 (x.next + d.length) else s
      else if x.phase = 3 then s
      else s.imgStat e.assoc e.subj x.phase 0 x.next)

/-- IMG_CLOSE (R527). -/
def execImgClose (a : Assoc) (s : State) : Out :=
  .next (s.onElem a.val 0x43 3 fun s e =>
    match s.xferOf e with
    | none => s
    | some x =>
      match leAt e.body 0 1 with
      | 0 => s.closeXfer x
      | 1 => s.endXfer x
      | _ => s)

/-- IMG_TIMEOUT (R527): 35 s without an element from the partner. -/
def execImgTimeout (s : State) : Out :=
  .next (
    match s.upd.xfer with
    | none => s
    | some x => if x.assoc.isSome then s.endXfer x else s)

/-! ## Associations (R513 to R515, R529) -/

/-- HELLO_TIMER (R514): 10 s since the last HELLO, or the second of one owed, have passed. -/
def execHelloTimer (a : Assoc) (s : State) : Out := .next (s.sendHello a.val)

/-- ASSOCIATION_TIMEOUT (R515). -/
def execAssociationTimeout (a : Assoc) (s : State) : Out := .next (s.assocDown a.val)

/-- The fields of NET_ACFG whose change takes the association down (R529). -/
def acfgCore (w : Word) : List Nat :=
  [F.netAcfg_en.get w, F.netAcfg_medium.get w, F.netAcfg_vmax.get w, F.netAcfg_partner.get w]

/-- Whether another enabled association has the partner and medium that `w` gives association a (R513). -/
def State.partnerTaken (s : State) (a : Nat) (w : Word) : Bool :=
  decide (F.netAcfg_en.get w = 1) && assocNos.any fun b =>
    b != a && s.assocOn b && s.medium b == F.netAcfg_medium.get w
      && (let k := if F.netAcfg_medium.get w = 0 then 65536 else 256
          s.fld (A.netAcfg b) F.netAcfg_partner % k == F.netAcfg_partner.get w % k)

/-- NET_ACFG of association a is written with `w` (R529). -/
def State.acfgWrite (s : State) (a : Nat) (w : Word) : State :=
  let old := s.reg (A.netAcfg a)
  if acfgCore old ≠ acfgCore w then ((s.assocDown a).setReg (A.netAcfg a) w).sendHello a
  else
    let s := s.setReg (A.netAcfg a) w
    if old = w then s else s.sendHello a

/-- NET_NODEID or NET_MAC has changed (R529). -/
def State.allDown (s : State) : State := assocNos.foldl State.assocDown s

/-! ## Ship time (R502 to R506) -/

/-- A list compared with another in order, lower first. -/
def listBelow : List Nat → List Nat → Bool
  | a :: as, b :: bs => decide (a < b) || (decide (a = b) && listBelow as bs)
  | _, _ => false

/-- A data set in the order in which the best master clock algorithm compares it. -/
def ptpKey (d : PtpData) : List Nat :=
  [d.prio1.toNat, d.clockClass.toNat, d.accuracy.toNat, d.variance.toNat, d.prio2.toNat, d.ident.toNat, d.steps.toNat]

/-- Whether an announced master is chosen: it is the chosen one, or better, or the first (R502). -/
def State.choosesMaster (s : State) (d : PtpData) : Bool :=
  match s.net.master with
  | none => true
  | some m => decide (m.ident = d.ident) || listBelow (ptpKey d) (ptpKey m)

/-- PTP_ANNOUNCE (R502). -/
def execPtpAnnounce (p : EthPort) (d : PtpData) (utcValid : Bool) (utcOfs : BitVec 16) (s : State) : Out :=
  .next (
    if s.choosesMaster d then
      let same := match s.net.master with
        | none => false
        | some m => decide (m.ident = d.ident)
      let s := s.modNet fun n => { n with master := some d, fresh := n.fresh || !same }
      let s := if same then s else s.setFld A.netPtpstate F.netPtpstate_port p.val
      let s := (s.setReg A.netGmLo (d.ident.truncate 32)).setReg A.netGmHi ((d.ident >>> 32).truncate 32)
      (s.setBit A.netPtpstate F.netPtpstate_utcv utcValid).setFld A.netPtpstate F.netPtpstate_utcofs utcOfs.toNat
    else s)

/-- PTP_DELAY_RESPONSE (R502, R528). -/
def execPtpDelayResponse (ns : BitVec 32) (s : State) : Out :=
  .next (if s.net.master.isSome then s.setReg A.netPathdly ns else s)

/-- STATE of the clock: 0 FREE, 1 ACQUIRE, 2 LOCKED, 3 HOLDOVER. -/
def State.ptpState (s : State) : Nat := s.fld A.netPtpstate F.netPtpstate_state

/-- Ship time is valid or not from now; PTP_LOST where it ceases to be. -/
def State.setValid (s : State) (v : Bool) : State :=
  let was := s.shipValid
  let s := s.setBit A.netPtpstate F.netPtpstate_valid v
  if was && !v then s.event A.netStatus F.netStatus_ptplost else s

/-- OFS moved so that θ, in ns, becomes 0: θ is TBC + OFS less the master's time (R504). -/
def State.moveOfs (s : State) (theta : Int) : State :=
  s.setPair A.netOfsLo (s.ofs - BitVec.ofInt 64 (theta.tdiv 10)).toNat

/-- The rate correction in ppb, within ±200 ppm (R504). -/
def State.setRate (s : State) (ppb : Int) : State :=
  let r : Int := if ppb < -200000 then -200000 else if 200000 < ppb then 200000 else ppb
  (s.setReg A.netRate (BitVec.ofInt 32 r)).setReg A.tmbRate (BitVec.ofInt 32 r)

/-- Whether TBC follows ship time, as TMB_STATE shows. -/
def State.setDisc (s : State) (on : Bool) : State := s.setBit A.tmbState F.tmbState_disc on

/-- θ as NET_THETA shows it. -/
def thetaWord (t : Int) : Word :=
  BitVec.ofInt 32 (if t < -0x80000000 then -0x80000000 else if 0x7FFFFFFF < t then 0x7FFFFFFF else t)

/-- The clock enters ACQUIRE, OFS set so that θ is 0. -/
def State.acquire (s : State) (theta : Int) : State :=
  let s := ((s.moveOfs theta).setFld A.netPtpstate F.netPtpstate_state 1).setValid false
  s.modNet fun n => { n with fresh := false, good := 0, far := 0 }

/-- A Sync counted toward LOCKED, which the sixteenth in succession below 1 µs enters. -/
def State.countGood (s : State) (theta : Int) : State :=
  let n := if theta.natAbs < 1000 then s.net.good + 1 else 0
  let s := s.modNet fun x => { x with good := n, far := 0 }
  if n < 16 then s
  else ((s.setFld A.netPtpstate F.netPtpstate_state 2).setValid true).event A.netStatus F.netStatus_ptplock

/-- A Sync in LOCKED: the second in succession above 100 µs steps OFS. -/
def State.syncLocked (s : State) (theta : Int) : State :=
  let n := if 100000 < theta.natAbs then s.net.far + 1 else 0
  let s := s.modNet fun x => { x with far := n }
  if n < 2 then s
  else (((s.acquire theta).event A.netStatus F.netStatus_ofsstep)).report 71 0

/-- PTP_SYNC (R503, R504): θ in ns as the clock measures it, and the rate in ppb its control takes. A Sync of another master
than the chosen one, or of N1 while N0 is in use, is not used. -/
def execPtpSync (p : EthPort) (ident theta : BitVec 64) (rate : BitVec 32) (s : State) : Out :=
  let t := theta.toInt
  .next (
    match s.net.master with
    | none => s
    | some m =>
      if m.ident ≠ ident ∨ (p.val = 1 ∧ s.fld A.netPtpstate F.netPtpstate_port = 0) then s
      else
        let s := (s.setFld A.netPtpstate F.netPtpstate_port p.val).setReg A.netTheta (thetaWord t)
        let s := (s.setRate rate.toInt).setDisc true
        if s.net.fresh then s.acquire t
        else if s.ptpState = 2 then s.syncLocked t
        else s.countGood t)

/-- SYNC_LOSS (R503, R504): three intervals without a Sync on N0, or four on either port. -/
def execSyncLoss (both : Bool) (s : State) : Out :=
  let a := A.netPtpstate
  .next (
    if !both then s.setFld a F.netPtpstate_port 1
    else if s.ptpState = 1 ∨ s.ptpState = 2 then
      ((s.setFld a F.netPtpstate_state 3).setValid (decide (s.fld A.netPtpcfg F.netPtpcfg_hold ≠ 0))).modNet
        fun n => { n with good := 0, far := 0 }
    else s)

/-- HOLDOVER_EXPIRY (R504): the clock is FREE, TBC at its nominal rate. -/
def execHoldoverExpiry (s : State) : Out :=
  .next (
    if s.ptpState = 3 then
      let s := ((s.setFld A.netPtpstate F.netPtpstate_state 0).setValid false).setRate 0
      (s.setDisc false).modNet fun n => { n with master := none, fresh := false, good := 0, far := 0 }
    else s)

/-- The date of a day counted from 2000-01-01: year, month and date. -/
def dateOf (days : Nat) : Nat × Nat × Nat :=
  let y := (List.range 100).foldl
    (fun (x : Nat × Nat) k =>
      let n := if leapYear k then 366 else 365
      if x.1 = k ∧ n ≤ x.2 then (k + 1, x.2 - n) else x) (0, days)
  let m := (List.range 12).foldl
    (fun (x : Nat × Nat) k =>
      let n := monthDays y.1 (k + 1)
      if x.1 = k ∧ n ≤ x.2 then (k + 1, x.2 - n) else x) (0, y.2)
  (y.1, m.1 + 1, m.2 + 1)

/-- RTC_SHIP_SET (R462, R506): the lamp room sets the RTC from ship time, where RTC_SET is 1, the clock is LOCKED, the UTC
offset valid and the gate open. -/
def execRtcShipSet (s : State) : Out :=
  .next (
    if s.bit A.netCtrl F.netCtrl_rtcset && s.ptpState == 2 && s.bit A.netPtpstate F.netPtpstate_utcv && s.gateOpen then
      match s.utcMs s.tbc with
      | none => s
      | some ms =>
        let n := ms / 1000
        let d := dateOf (n / 86400)
        let s := s.stageTime 4 A.rtcSec (n % 60)
        let s := s.stageTime 4 A.rtcMin (n / 60 % 60)
        let s := s.stageTime 4 A.rtcHour (n / 3600 % 24)
        let s := s.stageTime 4 A.rtcDate d.2.2
        (s.stageTime 4 A.rtcMonth d.2.1).commitTime 4 d.1
    else s)

/-! ## TIME elements (R519) -/

/-- A TIME element at `ms` milliseconds since 2000-01-01. -/
def State.timeElem (s : State) (ms : Nat) : List Byte :=
  let v := (if s.shipValid then 1 else 0) + (if s.rtcValid then 2 else 0)
  element 0x20 0 (be 4 (ms % 86400000) ++ be 2 (ms / 86400000) ++ be 1 v ++ be 1 0)

/-- An element to address 0xFF of C port c. -/
def State.sendCanAll (s : State) (c typ : Nat) (b : List Byte) : State :=
  if s.canRuns c then
    (s.queueCan c (s.canFrames none 0xFF typ b) 64).getD (s.event A.netStatus F.netStatus_txdrop)
  else s

/-- TIME_ELEMENT_TIMER (R519): a whole UTC second. -/
def execTimeElementTimer (s : State) : Out :=
  .next (
    if !s.netOn then s
    else
      match s.utcMs s.tbc with
      | none => s
      | some ms =>
        let b := s.timeElem ms
        let dests := assocNos.filter fun a =>
          s.assocUp a && s.assocVer a == 1 && decide ((s.assoc a).pcaps / 16 % 2 = 1)
        let s := dests.foldl (fun s a => s.sendTo a 0x20 b) s
        if s.bit A.netCtrl F.netCtrl_ctime then (s.sendCanAll 0 0x20 b).sendCanAll 1 0x20 b else s)

end Sys2Proof.Machine
end

