-- ==== Sys2Proof/Machine/JournalPort.lean ====
section
/-! DEFINITION. The journal's register ports: lookups, the write registers and the raw flash port (R421, R429, R432,
R435). -/

namespace Sys2Proof.Machine

/-- A flash word whose ECC corrected an error, at flash offset `at_` (R434). -/
def State.eccCorrected (s : State) (at_ : Nat) : State :=
  (s.event A.jnlStatus F.jnlStatus_ecccorr).raise 13 0 0 0 (BitVec.ofNat 32 at_) s.tbc

/-- Interrupt n of the core, one of those that follow an event and no flag, becomes pending (R541). -/
def State.pendInterrupt (s : State) (n : Nat) : State :=
  { s with core := { s.core with ipend := s.core.ipend ||| BitVec.ofNat 32 (2 ^ n) } }

/-! ## Lookups (R421, R429) -/

/-- Order of keys: SUBJ, then SUBT, then EXT (R421). -/
def keyBelow (a b : Nat × Nat × Nat) : Bool :=
  decide (a.1 < b.1) || (decide (a.1 = b.1) &&
    (decide (a.2.1 < b.2.1) || (decide (a.2.1 = b.2.1) && decide (a.2.2 < b.2.2))))

/-- An entry's key within its kind. -/
def IndexEntry.key (e : IndexEntry) : Nat × Nat × Nat := (e.subj, e.subt, e.ext)

/-- The key in JNL_KEY0 and JNL_KEY1; SUBT takes part for some kinds only. -/
def State.lookKey (s : State) : Nat × (Nat × Nat × Nat) :=
  let k := s.fld A.jnlKey0 F.jnlKey0_kind
  (k, s.fld A.jnlKey0 F.jnlKey0_subj, if subtCounts k then s.fld A.jnlKey0 F.jnlKey0_subt else 0,
    s.fld A.jnlKey1 F.jnlKey1_ext)

/-- What CMD exact finds: the live record with the key, the latest of output-state records. -/
def State.lookExact (s : State) : Option IndexEntry :=
  let k := s.lookKey
  (s.jnl.index.filter fun e => e.kind == k.1 && e.key == k.2).foldl
    (fun o e => match o with
      | none => some e
      | some x => if x.seq < e.seq then some e else o) none

/-- What CMD next finds: the live record of the KIND with the least key above. -/
def State.lookNext (s : State) : Option IndexEntry :=
  let k := s.lookKey
  (s.jnl.index.filter fun e => e.kind == k.1 && keyBelow k.2 e.key).foldl
    (fun o e => match o with
      | none => some e
      | some x => if keyBelow e.key x.key then some e else o) none

/-- The record found in JNL_RWIN: its header and payload as stored, its CRC not shown (R429). -/
def State.showRecord (s : State) (e : IndexEntry) : State :=
  let b := (s.storedAt e.at_ e.len).take (e.len - 4)
  let s := (List.range 64).foldl (fun s j => s.setReg (A.jnlRwin j) (BitVec.ofNat 32 (leAt b (4 * j) 4))) s
  let a := A.jnlLookState
  let s := ((s.setFld a F.jnlLookState_found 1).setFld a F.jnlLookState_ver (leAt b 3 1)).setFld a F.jnlLookState_len e.len
  s.setPair A.jnlLookSeqLo e.seq

/-- A lookup: FOUND, and the record in the window (R421); where `corr`, a word of it was corrected (R434). -/
def State.look (s : State) (found : Option IndexEntry) (corr : Bool) : State :=
  let s := match found with
    | none => s.setFld A.jnlLookState F.jnlLookState_found 0
    | some e => if corr then (s.showRecord e).eccCorrected e.at_ else s.showRecord e
  s.pendInterrupt 6

/-- JNL_LOOK has been written with a CMD. -/
def State.lookWritten (s : State) (w : Word) (corr : Bool) : State :=
  s.look (if F.jnlLook_cmd.get w = 1 then s.lookExact else s.lookNext) corr

/-- Whether JNL_LOOK may be written now (R435). -/
def State.lookMay (s : State) (w : Word) : Bool :=
  let c := F.jnlLook_cmd.get w
  (decide (c = 1) || decide (c = 2)) && decide (s.jnlPhase ≠ 0)

/-! ## The write registers (R413, R435) -/

/-- Master m's open group. -/
def State.writer (s : State) (m : Nat) : WriterSt := if m = 7 then s.jnl.writer7 else s.jnl.writer4

/-- Master m's open group set, with JNL_WSTATE's OPEN and COUNT. -/
def State.setWriter (s : State) (m : Nat) (w : WriterSt) : State :=
  let s := s.modJnl fun j => if m = 7 then { j with writer7 := w } else { j with writer4 := w }
  let a := bank m A.jnlWstate
  (s.setBit a F.jnlWstate_open w.groupOpen).setFld a F.jnlWstate_count (Nat.min w.recs.length 63)

/-- Kinds master m may append (*Table: Writers*). -/
def kindOf (m k : Nat) : Bool :=
  if m = 7 then decide (k = 0x50)
  else decide (k = 0x30) || decide (k = 0x31) || decide (k = 0x50) || decide (0x70 ≤ k ∧ k ≤ 0x7F) || decide (k = 0xE0)

/-- TKIND values a purge may name (R430). -/
def purgeKind (k : Nat) : Bool :=
  decide (1 ≤ k ∧ k ≤ 4) || decide (k = 0x10) || decide (k = 0x30) || decide (0x70 ≤ k ∧ k ≤ 0x7F)

/-- Whether PLEN matches the payload that the kind and SUBT require (R408, R435). -/
def plenOk (k subt n : Nat) : Bool :=
  if k = 0x30 then decide (1 ≤ subt ∧ subt ≤ 56) && decide (n = 4 + 4 * subt)
  else if k = 0x31 then decide (n = 12)
  else if k = 0x50 then decide (n = 44)
  else if k = 0xE0 then decide (n = 8)
  else decide (4 ≤ n)

/-- Whether master m may write JNL_WCMD now (R435). -/
def State.wcmdMay (s : State) (m : Nat) : Bool :=
  let k := s.fld (bank m A.jnlWhdr) F.jnlWhdr_kind
  decide (s.jnlPhase ≠ 0) && kindOf m k
    && plenOk k (s.fld (bank m A.jnlWhdr) F.jnlWhdr_subt) (s.fld (bank m A.jnlWlen) F.jnlWlen_plen)
    && (decide (k ≠ 0xE0) || purgeKind ((s.reg (bank m (A.jnlWbuf 0))).toNat % 256))

/-- The record in master m's write registers. -/
def State.writeRec (s : State) (m : Nat) : JRec :=
  let h := bank m A.jnlWhdr
  { kind := s.fld h F.jnlWhdr_kind
    ver := s.fld h F.jnlWhdr_ver
    subt := s.fld h F.jnlWhdr_subt
    subj := s.fld (bank m A.jnlWsubj) F.jnlWsubj_subj
    thread := 0
    stamp := BitVec.ofNat 64 (s.pair (bank m A.jnlWstampLo))
    payload := (List.range (s.fld (bank m A.jnlWlen) F.jnlWlen_plen / 4)).map fun i => s.reg (bank m (A.jnlWbuf i)) }

/-- JNL_WSTATE.RESULT of master m. -/
def State.setResult (s : State) (m r : Nat) : State := s.setFld (bank m A.jnlWstate) F.jnlWstate_result r

/-- A group of master m is handed on; one without a record writes nothing and is committed. -/
def State.offerMaster (s : State) (m : Nat) (rs : List JRec) : State :=
  if rs.isEmpty then s.setResult m 0 else (s.offer ⟨m, .master m, rs⟩).setResult m 2

/-- Master m's GOPEN (R435). -/
def State.groupOpen (s : State) (m : Nat) : State :=
  if (s.writer m).groupOpen then s else s.setWriter m ⟨true, []⟩

/-- Master m's APPEND (R435). -/
def State.append (s : State) (m : Nat) : State :=
  let r := s.writeRec m
  let w := s.writer m
  if w.groupOpen then s.setWriter m { w with recs := w.recs ++ [r] } else s.offerMaster m [r]

/-- Master m's GCLOSE (R435). -/
def State.groupClose (s : State) (m : Nat) : State :=
  let w := s.writer m
  if w.groupOpen then (s.setWriter m ⟨false, []⟩).offerMaster m w.recs else s

/-- JNL_WCMD has been written by master m: GOPEN, then APPEND, then GCLOSE. -/
def State.wcmdWritten (s : State) (m : Nat) (w : Word) : State :=
  let s := if F.jnlWcmd_gopen.get w = 1 then s.groupOpen m else s
  let s := if F.jnlWcmd_append.get w = 1 then s.append m else s
  if F.jnlWcmd_gclose.get w = 1 then s.groupClose m else s

/-! ## The raw flash port (R432) -/

/-- Whether master m may write JNL_FCMD with command `c` at the word now (R432, R435). -/
def State.fcmdMay (s : State) (m : Nat) (w : Word) : Bool :=
  let c := F.jnlFcmd_cmd.get w
  let word := s.fld A.jnlFaddr F.jnlFaddr_word
  let seg := word / 4096
  let own := (decide (m = 4) && decide (64 ≤ seg ∧ seg < 80)) || (decide (m = 7) && decide (80 ≤ seg))
  decide (s.jnlPhase ≠ 0) && !s.bit A.jnlFstate F.jnlFstate_busy
    && (match c with
        | 1 => decide (m = 4) || decide (m = 7)
        | 2 => own && decide (word % 4096 ≠ 0)
        | 3 => own
        | _ => false)

/-- JNL_FCMD has been written: the operation begins. -/
def State.fcmdWritten (s : State) (w : Word) : State :=
  let d (i : Nat) : Nat := (s.reg (A.jnlFdata i)).toNat
  let data := BitVec.ofNat 128 (d 0 + 2 ^ 32 * d 1 + 2 ^ 64 * d 2 + 2 ^ 96 * d 3)
  (s.modJnl fun j =>
    { j with raw := some ⟨F.jnlFcmd_cmd.get w, s.fld A.jnlFaddr F.jnlFaddr_word, data, false⟩ }).setBit
    A.jnlFstate F.jnlFstate_busy true

/-- A raw operation ends with RESULT. -/
def State.rawEnds (s : State) (r : Nat) : State :=
  ((s.modJnl fun j => { j with raw := none }).setBit A.jnlFstate F.jnlFstate_busy false).setFld A.jnlFstate
    F.jnlFstate_result r

/-- A program verify or an erasure of the flash failed at a flash offset (R434). -/
def State.flashError (s : State) (at_ : Nat) : State :=
  (s.event A.jnlStatus F.jnlStatus_flasherr).raise 12 0 0 0 (BitVec.ofNat 32 at_) s.tbc

/-- Records of the recorder in an erased segment are gone. -/
def State.evrForget (s : State) (seg : Nat) : State :=
  if seg = 64 then s.modEvr fun e => { e with first := [] }
  else if 65 ≤ seg ∧ seg < 80 then s.modEvr fun e => { e with last := e.last.filter fun x => x.2 / 511 + 65 != seg }
  else s

/-- RAW_FLASH_DONE (R432, R434): `ok` where the flash did as asked. -/
def execRawFlashDone (ok : Bool) (s : State) : Out :=
  .next (
    match s.jnl.raw with
    | none => s
    | some r =>
      let seg := r.word / 4096
      if r.cmd = 1 then
        if ok then
          ((List.range 4).foldl (fun t j => t.setReg (A.jnlFdata j) (s.flash32 r.word j)) s).rawEnds 0
        else s.rawEnds 2
      else if r.cmd = 2 then
        if s.flashWord r.word ≠ erasedWord then s.rawEnds 1
        else if ok then (s.setFlash r.word r.data).rawEnds 0
        else ((s.freeFlash r.word).flashError (r.word * 16)).rawEnds 1
      else if ok then ((s.eraseSegment seg).evrForget seg).rawEnds 0
      else
        let s := s.flashError (seg * 65536)
        if r.retried then (s.showSeg seg 6).rawEnds 1
        else s.modJnl fun j => { j with raw := some { r with retried := true } })

end Sys2Proof.Machine
end

