-- ==== Sys2Proof/Machine/Recovery.lean ====
section
/-! DEFINITION. Recovery of the journal after a node reset (R422, R423). -/

namespace Sys2Proof.Machine

/-- A journal segment's state by its headers (*Table: Journal segment states*): 0 BLANK, 1 FREE, 2 LOG, 3 COPY,
5 DAMAGED. -/
def State.classify (s : State) (k : Nat) : Nat :=
  let h := s.flashBytes (k * 4096 + 1) 32
  if !s.headerOk k then 0
  else if s.flashWord (k * 4096 + 1) = erasedWord ∧ s.flashWord (k * 4096 + 2) = erasedWord then 1
  else if leAt h 28 4 = (crc32c (h.take 28)).toNat then
    (match leAt h 6 1 with
     | 1 => 2
     | 2 => 3
     | _ => 5)
  else 5

/-- What the open header of segment k says, its records scanned (R403, R422). -/
def State.segFound (s : State) (k : Nat) : Nat × JSeg × List Found :=
  let h := s.flashBytes (k * 4096 + 1) 32
  let x := s.segRecords k
  (k, ⟨leAt h 0 6, leAt h 12 6, leAt h 8 2, wordUp x.2⟩, x.1)

/-- The latest of the found records of a kind (R422). -/
def latestOf (fs : List Found) (kind : Nat) : Option Found :=
  (fs.filter fun f => f.r.kind = kind).foldl
    (fun o f => match o with
      | none => some f
      | some g => if g.seq < f.seq then some f else o) none

/-- COMP of a compaction record. -/
def Found.comp (f : Found) : Nat := (f.r.payload.getD 0 0).toNat % 65536

/-- The victims a compaction begin record lists: INDEX and OPEN_SEQ. -/
def Found.victims (f : Found) : List (Nat × Nat) :=
  let b := f.r.payload.flatMap wordBytes
  (List.range (leAt b 2 1)).map fun i => (leAt b (4 + 8 * i) 1, leAt b (6 + 8 * i) 6)

/-- Errors of recovery counted: CORRUPT once for each (R422). -/
def State.countCorrupt (s : State) (n : Nat) : State :=
  (List.range n).foldl (fun s _ => s.event A.jnlStatus F.jnlStatus_corrupt) (s.satAdd A.jnlCnt F.jnlCnt_corrupt n)

/-- The index from the found records, in SEQ order (R419, R420). -/
def indexOf (fs : List Found) : List IndexEntry :=
  (fs.mergeSort fun a b => decide (a.seq ≤ b.seq)).foldl (fun ix f => indexTake ix f.r f.seq f.at_) []

/-- A partition without a segment in use or FREE is erased whole (R423). -/
def State.formatJournal (s : State) : State :=
  let s := (List.range 64).foldl State.eraseSegment s
  s.setFld A.jnlRecov F.jnlRecov_formatted 1

/-- The segments classified and shown in JNL_SEG (R402, R403, R422). -/
def State.showHeaders (s : State) : State :=
  (List.range 128).foldl (fun s k => s.showSeg k (if k < 64 then s.classify k else 7)) s

/-- The scan of the journal (R422): segments, compaction, index, next SEQ and MAXSTAMP. -/
def State.recoverScan (s : State) : State :=
  let used := ((List.range 64).filter fun k => s.segState k == 2 || s.segState k == 3).map s.segFound
  let committed := used.flatMap fun x => if s.segState x.1 = 2 then committedIn x.2.2 else []
  let valid := used.flatMap fun x => x.2.2.filter fun f => f.ok
  let bad := used.foldl
    (fun n x => n + (x.2.2.filter fun f => !f.ok).length + if s.segState x.1 = 2 then brokenGroups x.2.2 else 0) 0
  let s := s.countCorrupt bad
  let begun := latestOf committed 0xF1
  let comp : Nat := match begun with
    | none => 0
    | some f => f.comp
  let ended := (latestOf (committed.filter fun f => decide (f.comp = comp)) 0xF2).isSome
  let restart := begun.isSome && !ended
  -- copy segments of a compaction without its end record are as DAMAGED; the victims of one with it await erasure
  let dropped : List Nat := if restart then
      (used.filter fun x => s.segState x.1 == 3 && decide (x.2.1.comp = comp)).map fun x => x.1 else []
  let waiting : List Nat := match begun with
    | none => []
    | some f =>
      if ended then
        (used.filter fun x => f.victims.any fun v => v.1 == x.1 && v.2 == x.2.1.openSeq).map fun x => x.1
      else []
  let s := dropped.foldl (fun s k => s.setFld (A.jnlSeg k) F.jnlSeg_state 5) s
  let s := waiting.foldl (fun s k => s.setFld (A.jnlSeg k) F.jnlSeg_state 4) s
  let kept := used.filter fun x => !dropped.contains x.1 && !waiting.contains x.1
  let live := kept.flatMap fun x => if s.segState x.1 = 2 then committedIn x.2.2 else x.2.2.filter fun f => f.ok
  let logs := kept.filter fun x => s.segState x.1 == 2
  let head := logs.foldl
    (fun (o : Option (Nat × JSeg × List Found)) x => match o with
      | none => some x
      | some y => if y.2.1.openSeq < x.2.1.openSeq then some x else o) none
  let seq := 1 + valid.foldl (fun n f => Nat.max n f.seq) 0
  let top := live.foldl (fun n f => Nat.max n f.r.stamp.toNat) 0
  let lastComp := (used.map fun x => x.2.1.comp).foldl Nat.max
    ((valid.filter fun f => f.r.kind = 0xF1).foldl (fun n f => Nat.max n f.comp) 0)
  let s := if restart then s.event A.jnlStatus F.jnlStatus_compactrestart else s
  let pending : List Nat := waiting ++ (List.range 64).filter fun k => s.segState k == 5 || s.segState k == 0
  -- one erasure now where fewer than 2 segments are FREE
  let now : List Nat := if s.freeSegs.length < 2 then pending.take 1 else []
  let s := now.foldl State.eraseSegment s
  let left := pending.drop now.length
  let s := s.modJnl fun j =>
    { j with segs := kept.map fun x => (x.1, x.2.1), head := head.map fun x => x.1
             compAsked := restart, found := some (seq, top)
             comp := ⟨if left.isEmpty then .idle else .erasing, lastComp, left, s.tbc, [], !waiting.isEmpty⟩ }
  ((s.setIndex (indexOf live)).showLive.showSegs).showComp

/-- JOURNAL_RECOVERY (R422): `corr` where a flash word's ECC corrected an error. -/
def execJournalRecovery (corr : Bool) (s : State) : Out :=
  .next (
    if s.jnlPhase ≠ 0 then s
    else
      let s := s.showHeaders
      let s := if corr then (s.event A.jnlStatus F.jnlStatus_ecccorr).report 13 0 else s
      let s := if (List.range 64).all fun k => s.segState k == 0 || s.segState k == 5 then s.formatJournal else s
      s.recoverScan)

/-- PHASE once recovery has ended: full where no append could open a segment and the head has no room (R418, R423). -/
def State.recoveredPhase (s : State) : Nat :=
  if s.openable ≠ 0 then 1
  else
    match s.jnl.head with
    | none => 3
    | some h => match s.jseg h with
      | none => 3
      | some x => if x.used < 65536 then 1 else 3

/-- The end of recovery in the journal's registers (R423), after `ms` milliseconds. -/
def State.endRecovery (s : State) (ms : Nat) : State :=
  match s.jnl.found with
  | none => s
  | some (seq, top) =>
    let s := (s.setPair A.jnlSeqLo seq).setPair A.jnlMaxstampLo top
    let s := (s.setFld A.jnlRecov F.jnlRecov_time ms).modJnl fun j => { j with found := none }
    (s.setFld A.jnlState F.jnlState_phase s.recoveredPhase).event A.jnlStatus F.jnlStatus_recovered

end Sys2Proof.Machine
end

