-- ==== Sys2Proof/Machine/Panel.lean ====
section
/-! DEFINITION. Status panel driver: waveforms, ledgers, updates, intent and power loss (R468 to R497). -/

namespace Sys2Proof.Machine

/-! ## The driver's state -/

/-- The state with the panel driver changed. -/
def State.modPanel (s : State) (g : PanelSt → PanelSt) : State := { s with pnl := g s.pnl }

/-- Segment n. -/
def State.pseg (s : State) (n : Nat) : PanelSeg := s.pnl.segs.getD n PanelSeg.reset

/-- The state with segment n changed. -/
def State.modSegment (s : State) (n : Nat) (g : PanelSeg → PanelSeg) : State :=
  s.modPanel fun p => { p with segs := p.segs.modify n g }

/-- PNL_STATE.PHASE: 0 off, 1 rails starting, 2 clear, 3 recovery, 4 active, 5 standby, 6 power-fail, 7 rails down. -/
def State.panelPhase (s : State) : Nat := s.fld A.pnlState F.pnlState_phase

/-- Whether an update is in progress (R480). -/
def State.updating (s : State) : Bool := s.bit A.pnlState F.pnlState_updating

/-- Whether the recovery has restored the driver's state and no power failure has taken it down. -/
def State.panelUp (s : State) : Bool := decide (3 ≤ s.panelPhase ∧ s.panelPhase ≤ 5)

/-- A panel event in ring 110 (*Table: Panel events*, R485). -/
def State.panelEvent (s : State) (code n : Nat) : State :=
  let v := match (s.pseg n).believed with
    | some b => b
    | none => 4
  s.send (mkRec 110 0x60 n ⟨BitVec.ofNat 32 (v + 16 * code), .good⟩ 0 s.tbc 10)

/-- A panel fault of source k with flag `f` (R493); `addr` holds the flags that were set, for panel ledger errors. -/
def State.panelFault (s : State) (f : Fld) (k inst : Nat) : State :=
  (s.event A.pnlStatus f).raise k inst 0 0 (if k = 69 then BitVec.ofNat 32 (2 ^ f.lo) else 0) s.tbc

/-! ## Temperature and stretch (R473, R474) -/

/-- The band of the panel temperature; 20 °C to 30 °C without a valid reading (R493). -/
def State.panelBand (s : State) : Nat :=
  if !s.bit A.pnlTemp F.pnlTemp_tsok then 3
  else
    let t := (BitVec.ofNat 16 (s.fld A.pnlTemp F.pnlTemp_temp)).toInt
    if t < 0 then 0 else Nat.min 7 (t.toNat / 2560 + 1)

/-- St: the band's factor. -/
def State.bandFactor (s : State) : Nat := s.fld (A.pnlTscale s.panelBand) F.pnlTscale_factor

/-- Sa of segment n. -/
def State.ageFactor (s : State) (n : Nat) : Nat :=
  let step := s.fld A.pnlAge F.pnlAge_agestep
  64 + (if step = 0 then 0 else Nat.min ((s.reg (A.pnlStress n)).toNat / step) 64)

/-! ## Waveforms (R472, R475) -/

/-- Step i of a waveform in the table at word address `tbl w j`. -/
def State.waveStep (s : State) (tbl : Nat → Nat → Nat) (w i : Nat) : Nat :=
  (s.reg (tbl w (i / 2))).toNat / 65536 ^ (i % 2) % 65536

/-- N, STRETCH and PAT of a step. -/
def stepN (x : Nat) : Nat := x % 64
def stepStretch (x : Nat) : Bool := decide (x / 8192 % 2 = 1)
def stepPat (x : Nat) : Nat := x / 16384

/-- The repeat count of a step for segment n, stretched (R473). -/
def State.stepPairs (s : State) (n x : Nat) : Nat :=
  if stepStretch x then (stepN x * s.bandFactor * s.ageFactor n + 4095) / 4096 else stepN x

/-- Steps of waveform w: up to the one with N 0, at most 8. -/
def State.waveSteps (s : State) (tbl : Nat → Nat → Nat) (w : Nat) : List Nat :=
  ((List.range 8).map (s.waveStep tbl w)).takeWhile fun x => stepN x ≠ 0

/-- A nominal ledger in V·ms after each tick of a waveform, and its last (R475). -/
def nominalLedger (steps : List Nat) : List Int :=
  let pair (pat : Nat) : List Int := [if pat % 2 = 1 then 300 else 0, if 2 ≤ pat then -300 else 0]
  (steps.flatMap fun x => (List.replicate (stepN x) (pair (stepPat x))).flatten).foldl
    (fun l d => l ++ [(l.getLast?.getD 0) + d]) []

/-- Whether a table passes the check of a commit (R475). -/
def State.wavesOk (s : State) : Bool :=
  (List.range 22).all fun w =>
    let l := nominalLedger (s.waveSteps A.pnlWave w)
    l.all (fun x => decide (-24000 ≤ x ∧ x ≤ 24000)) && decide (-3000 ≤ l.getLast?.getD 0 ∧ l.getLast?.getD 0 ≤ 3000)

/-- PNL_WCMD.COMMIT: the staged table is checked, and waits for a tick without a running waveform (R475). -/
def State.waveCommitted (s : State) : State :=
  if s.wavesOk then
    let words := (List.range 88).map fun i => s.reg (A.pnlWave (i / 4) (i % 4))
    let v := s.fld A.pnlWstg F.pnlWstg_wver
    s.modPanel fun p => { p with table := some ⟨words, v⟩ }
  else s.event A.pnlStatus F.pnlStatus_wavereject

/-- The waiting table takes effect (R475). -/
def State.applyTable (s : State) : State :=
  match s.pnl.table with
  | none => s
  | some t =>
    let s := (List.range 88).foldl (fun s i => s.setReg (A.pnlWact (i / 4) (i % 4)) (t.words.getD i 0)) s
    (s.setFld A.pnlWver F.pnlWver_wver t.wver).modPanel fun p => { p with table := none }

/-- The waveform from a level, or from UNKNOWN, to level b (*Table: Waveform index*); in standby its own (R486). -/
def State.waveFor (s : State) (a : Option Nat) (b : Nat) : Nat :=
  if s.panelPhase = 5 then (if b = 3 then 20 else 21)
  else
    match a with
    | some a => 4 * a + b
    | none => 16 + b

/-- A run at the start of step i of its waveform: balancing where the list has ended (R472, R477). -/
def State.atStep (s : State) (n : Nat) (r : PanelRun) (i : Nat) : PanelRun :=
  let x := if i < 8 then s.waveStep A.pnlWact r.wave i else 0
  if stepN x = 0 then { r with balancing := true, half := false, left := 0 }
  else { r with step := i, left := s.stepPairs n x, half := false }

/-- A waveform of segment n from level a toward level b. -/
def State.newRun (s : State) (n : Nat) (a : Option Nat) (b : Nat) : PanelRun :=
  s.atStep n ⟨a, b, s.waveFor a b, 0, 0, 0, false, false, false, .none⟩ 0

/-- Pairs a run has still to do. -/
def State.pairsLeft (s : State) (n : Nat) (r : PanelRun) : Nat :=
  if r.balancing then 0
  else r.left + (((s.waveSteps A.pnlWact r.wave).drop (r.step + 1)).map (s.stepPairs n)).foldl (· + ·) 0

/-! ## Intent (R481) -/

/-- The phase index: half the ticks since the update's first driven tick; 0xFF without an update (R481). -/
def State.phaseIndex (s : State) : Nat :=
  if s.updating then
    match s.pnl.firstDriven with
    | none => 0
    | some t => Nat.min 254 ((s.pnl.tick - t) / 2)
  else 255

/-- The panel's targets. -/
def State.targets (s : State) : List Nat := (List.range 56).map fun n => (s.pseg n).level

/-- The payload of an intent record (*Table: Record kinds*). -/
def intentPayload (ts : List Nat) (phase wver : Nat) : List Word :=
  bytesWords (((List.range 14).map fun i =>
    BitVec.ofNat 8 ((List.range 4).foldl (fun n k => n + ts.getD (4 * i + k) 0 * 4 ^ k) 0))
    ++ le 1 phase ++ le 1 0 ++ le 2 wver)

/-- A panel record handed to the journal by writer 0x11. -/
def State.panelRecord (s : State) (kind : Nat) (o : JOrigin) (payload : List Word) : State :=
  s.offer ⟨0x11, o, [⟨kind, 1, 0, 0, 0, s.tbc, payload⟩]⟩

/-- PNL_STATE.INTENT_WAIT follows the records handed on. -/
def State.showIntent (s : State) : State := s.setBit A.pnlState F.pnlState_intentwait !s.pnl.posted.isEmpty

/-- An intent record with the present targets is posted (R481). -/
def State.postIntent (s : State) (phase : Nat) : State :=
  let ts := s.targets
  let s := s.panelRecord 0x40 .intent (intentPayload ts phase (s.fld A.pnlWver F.pnlWver_wver))
  (s.modPanel fun p => { p with posted := p.posted ++ [ts] }).showIntent

/-- An intent record has committed: it covers its targets. -/
def State.intentCommitted (s : State) : State :=
  (s.modPanel fun p =>
    match p.posted with
    | [] => p
    | ts :: rest => { p with posted := rest, covered := ts.map some, refused := false }).showIntent

/-- The journal has refused an intent record (R481). -/
def State.intentRefused (s : State) : State :=
  let s := (s.modPanel fun p => { p with posted := p.posted.drop 1, refused := true }).showIntent
  s.panelFault F.pnlStatus_intentfail 69 0

/-- Whether an intent record covering segment n's target has committed; STALE alone is driven toward level 3 while the
journal refuses (R479, R481). -/
def State.coveredSeg (s : State) (n : Nat) : Bool :=
  (s.pnl.covered.getD n none == some (s.pseg n).level)
    || (s.pnl.refused && decide (n = 55) && decide ((s.pseg n).level = 3))

/-- Segment n's target set. -/
def State.setTarget (s : State) (n level : Nat) : State := s.modSegment n fun g => { g with level }

/-! ## Driving (R471, R476, R477) -/

/-- Polarity of common c in tick t: whether it is + (R470). -/
def plusTick (t n : Nat) : Bool := decide ((t + n / 14) % 2 = 0)

/-- The cell voltage in mV of a driven segment: the rail less VCOM. -/
def State.cellVolt (s : State) (plus : Bool) : Int :=
  let vcom : Int := 10 * (s.fld A.pnlVcom F.pnlVcom_vcom : Int)
  if plus then s.pnl.vp + vcom else vcom - s.pnl.vn

/-- The ledger limit of 32,767 V·ms and the balancing limit of 0.5 V·ms, in mV × 10 µs. -/
def ledgerMax : Int := 3276700000
def ledgerNear : Int := 50000

/-- Segment n is driven for `k` times 10 µs: its ledger and its stress counter (R476, R484). -/
def State.drive (s : State) (n : Nat) (plus : Bool) (k : Nat) : State :=
  let v := s.cellVolt plus
  let q := (s.pseg n).frac + v.natAbs * k
  let a := A.pnlStress n
  (s.setReg a (BitVec.ofNat 32 ((s.reg a).toNat + q / 100000000))).modSegment n
    fun g => { g with ledger := g.ledger + v * k, frac := q % 100000000 }

/-- The run of segment n changed. -/
def State.setRun (s : State) (n : Nat) (r : Option PanelRun) : State := s.modSegment n fun g => { g with run := r }

/-- A balancing phase has ended: the segment is settled at its waveform's target level (R479); after a waveform that a
power failure cut off, its level is not known (R489, R491). -/
def State.settleSeg (s : State) (n : Nat) (r : PanelRun) : State :=
  if r.recovering then s.setRun n none
  else if s.panelPhase = 6 then s.modSegment n fun g => { g with run := none, believed := none }
  else (s.modSegment n fun g => { g with run := none, believed := some r.goal }).panelEvent 1 n

/-- A tick of a balancing phase (R477). -/
def State.balanceTick (s : State) (n : Nat) (r : PanelRun) (plus : Bool) : State :=
  let l := (s.pseg n).ledger
  if l.natAbs < ledgerNear.toNat then s.settleSeg n r
  else if plus == decide (l < 0) then
    let k := (l.natAbs - ledgerNear.toNat) / Nat.max 1 (s.cellVolt plus).natAbs + 1
    if k ≤ 2000 then (s.drive n plus k).settleSeg n r else s.drive n plus 2000
  else s

/-- The run after the − tick of a pair; in power-fail the balancing phase follows the pair (R491). -/
def State.pairDone (s : State) (n : Nat) (r : PanelRun) : PanelRun :=
  let r := { r with half := false, done := r.done + 1, left := r.left - 1 }
  if s.panelPhase = 6 then { r with balancing := true }
  else if r.left = 0 then s.atStep n r (r.step + 1) else r

/-- A tick of a waveform's step: the + tick opens a pair, the − tick ends it; a drive beyond the ledger's limit is not
made, and the segment balances (R472, R476). -/
def State.waveTick (s : State) (n : Nat) (r : PanelRun) (plus : Bool) : State :=
  if plus == r.half then s
  else
    let pat := stepPat (s.waveStep A.pnlWact r.wave r.step)
    let drives := if plus then decide (pat % 2 = 1) else decide (2 ≤ pat)
    let after := (s.pseg n).ledger + s.cellVolt plus * 2000
    if drives && decide (ledgerMax < after.natAbs) then
      (s.setRun n (some { r with balancing := true, half := false })).panelFault F.pnlStatus_ledgersat 69 n
    else
      let t := if drives then s.drive n plus 2000 else s
      t.setRun n (some (if plus then { r with half := true } else t.pairDone n r))

/-- A run at a pair boundary: held while cold or while an intent record is waiting, else led toward a covered new target
(R474, R481, R482). -/
def State.boundary (s : State) (n : Nat) (r : PanelRun) : State :=
  let g := s.pseg n
  let stale := s.pnl.refused && decide (n = 55)
  if !r.balancing && s.bandFactor == 0 then s.setRun n (some { r with hold := .cold })
  else if !r.balancing && !stale && !s.pnl.posted.isEmpty then s.setRun n (some { r with hold := .intent })
  else if g.level ≠ r.goal ∧ !r.recovering ∧ s.panelPhase ≠ 6 then
    if s.coveredSeg n then
      let a := if s.pairsLeft n r ≤ r.done then some r.goal else r.start
      let s := (s.setRun n (some (s.newRun n a g.level))).event A.pnlStatus F.pnlStatus_replaced
      (s.satInc A.pnlCnt F.pnlCnt_replaces).panelEvent 2 n
    else if r.balancing then s
    else s.setRun n (some { r with hold := .intent })
  else s.setRun n (some { r with hold := .none })

/-- Whether segment n starts a waveform at a pair boundary (R479, R483, R486). -/
def State.starts (s : State) (n : Nat) : Bool :=
  let g := s.pseg n
  let mine := s.panelPhase == 4 || (s.panelPhase == 5 && (decide (n < 8) || decide (n = 55)))
  mine && s.bandFactor != 0 && s.coveredSeg n && (g.believed != some g.level || g.assertDue)
    && (s.pnl.posted.isEmpty || (s.pnl.refused && decide (n = 55)))

/-- The first driven tick of an update. -/
def State.noteDriven (s : State) : State :=
  if s.updating && s.pnl.firstDriven.isNone then s.modPanel fun p => { p with firstDriven := some p.tick } else s

/-- Segment n in this tick. -/
def State.tickSegment (s : State) (n : Nat) : State :=
  let plus := plusTick s.pnl.tick n
  if (s.pseg n).fault then s
  else
    let s :=
      if plus then
        match (s.pseg n).run with
        | some r => if r.half then s else s.boundary n r
        | none =>
          if s.starts n then
            (s.modSegment n fun g =>
              { g with run := some (s.newRun n g.believed g.level), assertDue := false }).noteDriven
          else s
      else s
    match (s.pseg n).run with
    | none => s
    | some r =>
      if r.balancing then s.balanceTick n r plus
      else if r.hold = .none then s.waveTick n r plus
      else s

/-! ## Registers -/

/-- STATE of a segment (*Table: PNL registers*). -/
def State.segStateCode (s : State) (n : Nat) : Nat :=
  let g := s.pseg n
  if g.fault then 5
  else
    match g.run with
    | none => if g.believed == some g.level || s.coveredSeg n then 0 else 1
    | some r =>
      if r.balancing then 3
      else
        match r.hold with
        | .none => 2
        | .intent => 1
        | .cold => 4

/-- A ledger rounded to the nearest V·ms (R476). -/
def ledgerShown (l : Int) : Int :=
  if 0 ≤ l then (l + 50000) / 100000 else -((-l + 50000) / 100000)

/-- PNL_TGT, PNL_BEL and PNL_SEG of segment n. -/
def State.showSegment (s : State) (n : Nat) : State :=
  let g := s.pseg n
  let f : Fld := ⟨8 * (n % 4) + 7, 8 * (n % 4)⟩
  let b := match g.believed with
    | some b => b
    | none => 4
  let s := s.setFld (A.pnlTgt (n / 4)) f (g.level + 4 * g.tag)
  let s := s.setFld (A.pnlBel (n / 4)) f (b + if g.run.isSome then 8 else 0)
  let (step, left) := match g.run with
    | none => (0, 0)
    | some r => (r.step, Nat.min 255 r.left)
  s.setReg (A.pnlSeg n) (BitVec.ofNat 32 ((BitVec.ofInt 16 (ledgerShown g.ledger)).toNat * 65536
    + s.segStateCode n * 4096 + step * 256 + left))

/-- Whether a segment runs a waveform. -/
def State.anyRun (s : State) : Bool := s.pnl.segs.any fun g => g.run.isSome

/-- FL_ON: enabled, MODE active and the clear ended (R487). -/
def State.showLight (s : State) : State :=
  s.setBit A.pnlState F.pnlState_flon
    (s.bit A.pnlCtrl F.pnlCtrl_flen && decide (s.fld A.pnlCtrl F.pnlCtrl_mode = 1)
      && decide (s.panelPhase = 3 ∨ s.panelPhase = 4))

/-- The driver's registers follow its state. -/
def State.showPanel (s : State) : State :=
  let s := (List.range 56).foldl State.showSegment s
  let s := s.setFld A.pnlState F.pnlState_pidx s.phaseIndex
  let s := s.setFld A.pnlState F.pnlState_driving (s.pnl.segs.filter fun g => g.run.isSome).length
  s.showLight

/-- PNL_STATE.PHASE set. -/
def State.setPhase (s : State) (p : Nat) : State := s.setFld A.pnlState F.pnlState_phase p

/-! ## Updates (R478, R480) -/

/-- A panel target handed on by the tally waits for the next refresh tick (R478). -/
def State.panelTarget (s : State) (n level tag : Nat) : State :=
  s.modPanel fun p => { p with news := (p.news.filter fun x => x.1 ≠ n) ++ [(n, level, tag)] }

/-- The targets handed on are written; whether the target memory changed (R478). -/
def State.takeTargets (s : State) : State × Bool :=
  let old := s.targets
  let s := s.pnl.news.foldl
    (fun s x =>
      if x.1 < 55 then
        let l := if x.1 < 8 then x.2.1 / 2 * 3 else x.2.1
        s.modSegment x.1 fun g => { g with level := l, tag := x.2.2, told := true }
      else s) s
  let s := s.modPanel fun p => { p with news := [] }
  (s, s.targets != old)

/-- Whether segment n shows its target. -/
def State.shown (s : State) (n : Nat) : Bool := (s.pseg n).believed == some (s.pseg n).level

/-- An update begins (R480): STALE's target is 3, and an intent record with PHASE 0 is posted. -/
def State.beginUpdate (s : State) : State :=
  let s := (s.setBit A.pnlState F.pnlState_updating true).modPanel fun p => { p with firstDriven := none }
  (((s.setTarget 55 3).panelEvent 4 55).postIntent 0)

/-- An update ends (R480, R481): the record with PHASE 0xFF, then STALE's target is 0 with a record of its own. -/
def State.endUpdate (s : State) : State :=
  let s := s.setBit A.pnlState F.pnlState_updating false
  let s := (s.event A.pnlStatus F.pnlStatus_updatedone).satInc A.pnlCnt F.pnlCnt_updates
  (((s.panelEvent 5 55).postIntent 255).setTarget 55 0).postIntent 0

/-- Updates begin, go on and end at a tick of an active or standby driver (R480, R481); `changed` where the target memory
changed. -/
def State.updateTick (s : State) (changed : Bool) : State :=
  if s.panelPhase ≠ 4 ∧ s.panelPhase ≠ 5 then s
  else if s.updating then
    if !s.anyRun && (List.range 56).all s.shown then s.endUpdate
    else if changed then s.postIntent s.phaseIndex
    else if s.pnl.refused && s.pnl.posted.isEmpty then s.postIntent s.phaseIndex
    else s
  else if (List.range 55).any fun n => !s.shown n then s.beginUpdate
  else if s.pnl.refused && s.pnl.posted.isEmpty then s.postIntent 0
  else s

/-- A re-assertion pass that is due begins outside an update (R483). -/
def State.passTick (s : State) : State :=
  if s.pnl.passDue && !s.updating && s.panelPhase == 4 then
    (s.modPanel fun p =>
      { p with passDue := false
               segs := p.segs.map fun g => { g with assertDue := g.run.isNone && g.believed == some g.level } }).postIntent 0
  else s

/-- COLD at the entry into a band that cannot be driven (R474). -/
def State.coldTick (s : State) : State :=
  let now := decide (s.bandFactor = 0)
  let was := s.pnl.cold
  let s := s.modPanel fun p => { p with cold := now }
  if now && !was then (s.panelFault F.pnlStatus_cold 68 0).panelEvent 3 55 else s

/-- Recovery ends once every ledger reads 0 (R489). -/
def State.recoveryTick (s : State) : State :=
  if s.panelPhase = 3 ∧ !s.anyRun then
    let s := s.setPhase (if s.fld A.pnlCtrl F.pnlCtrl_mode = 2 then 5 else 4)
    (s.event A.pnlStatus F.pnlStatus_recovered).panelEvent 6 55
  else s

/-- REFRESH_TICK (R470 to R492), with the magnitudes in mV that the two rails show. -/
def execRefreshTick (vp vn : BitVec 16) (s : State) : Out :=
  let hold := s.fld A.supHold F.supHold_hold
  let inside (v : Nat) : Bool := decide (14550 ≤ v ∧ v ≤ 15450)
  let s := s.modPanel fun p =>
    { p with vp := vp.toNat, vn := vn.toNat, tickAt := s.tbc, hold0 := p.hold1, hold1 := hold
             railOut := p.railOut && !(inside vp.toNat && inside vn.toNat) }
  let x := s.takeTargets
  let s := x.1
  .next (
    if s.panelPhase = 1 then (s.setPhase 2).showPanel
    else if s.panelPhase = 7 ∧ !s.pnl.stopping then (s.setPhase 0).showPanel
    else if s.panelPhase = 0 ∨ s.panelPhase = 2 ∨ s.panelPhase = 7 then s.showPanel
    else
      let s := if s.anyRun then s else s.applyTable
      let s := ((s.recoveryTick.coldTick).updateTick x.2).passTick
      let s := if s.pnl.railOut || s.pnl.stopping then s else (List.range 56).foldl State.tickSegment s
      (s.modPanel fun p => { p with tick := p.tick + 1 }).showPanel)

/-- PANEL_TEMP_READ (R473, R493): a reading in Q8.8 °C, and whether the sensor is neither open nor shorted. -/
def execPanelTempRead (temp : BitVec 16) (ok : Bool) (s : State) : Out :=
  let was := s.pnl.tsFault
  let s := (s.setBit A.pnlTemp F.pnlTemp_tsok ok).modPanel fun p => { p with tsFault := !ok }
  .next (
    if ok then s.setFld A.pnlTemp F.pnlTemp_temp temp.toNat
    else if was then s
    else s.panelFault F.pnlStatus_tempfault 67 0)

/-- REASSERT_PASS (R483): 24 h have passed; the pass is deferred while an update is in progress. -/
def execReassertPass (s : State) : Out :=
  .next (if s.bit A.pnlCtrl F.pnlCtrl_reasserten then s.modPanel fun p => { p with passDue := true } else s)

/-- The stress record (R484). -/
def State.postStress (s : State) : State :=
  s.panelRecord 0x42 .stress ((List.range 56).map fun n => s.reg (A.pnlStress n))

/-- STRESS_RECORD (R484). -/
def execStressRecord (s : State) : Out := .next (if s.panelUp then s.postStress else s)

/-- RAIL_FAULT (R493). -/
def execRailFault (s : State) : Out :=
  .next ((s.modPanel fun p => { p with railOut := true }).panelFault F.pnlStatus_railfault 65 0)

/-- SEG_FAULT (R493): held at VCOM until node reset. -/
def execSegFault (n : Segment) (s : State) : Out :=
  .next (((s.modSegment n.val fun g => { g with fault := true }).panelFault F.pnlStatus_segfault 66 n.val).showPanel)

/-! ## Power-on and recovery (R488, R489) -/

/-- The picture of segments whose waveforms are cut off is not known. -/
def State.dropRuns (s : State) : State :=
  s.modPanel fun p => { p with segs := p.segs.map fun g =>
    match g.run with
    | none => g
    | some r => { g with run := none, believed := if r.recovering then g.believed else none } }

/-- PNL_CTRL has been written (R486 to R488, R497); `old` is the MODE before. -/
def State.panelCtrlWritten (s : State) (old : Nat) : State :=
  let m := s.fld A.pnlCtrl F.pnlCtrl_mode
  let ph := s.panelPhase
  let s :=
    if ph = 6 ∨ s.pnl.stopping then s
    else if m = 0 then
      if old = 0 then s
      else ((s.setBit A.pnlState F.pnlState_updating false).dropRuns.setPhase 7)
    else if ph = 0 ∨ ph = 7 then s.setPhase 1
    else if ph = 4 ∨ ph = 5 then s.setPhase (if m = 2 then 5 else 4)
    else s
  s.showPanel

/-- The live record of a kind whose identity is the kind. -/
def State.liveKind (s : State) (kind : Nat) : Option IndexEntry := s.jnl.index.find? fun e => e.kind == kind

/-- The payload bytes of a live record. -/
def State.payloadOf (s : State) (e : IndexEntry) : List Byte := (s.storedAt e.at_ e.len).drop 24

/-- Targets of an intent payload. -/
def intentTargets (b : List Byte) : List Nat := (List.range 56).map fun n => leAt b (n / 4) 1 / 4 ^ (n % 4) % 4

/-- The targets of the latest PHASE 0xFF intent record with a SEQ below `q` that the journal still holds (R489). -/
def State.lastWhole (s : State) (q : Nat) : Option (List Nat) :=
  let fs := s.jnl.segs.flatMap fun x =>
    (s.segRecords x.1).1.filter fun f =>
      f.ok && decide (f.r.kind = 0x40) && decide (f.seq < q) && decide (leAt (f.r.payload.flatMap wordBytes) 14 1 = 255)
  match fs.foldl (fun (o : Option Found) f => match o with
      | none => some f
      | some g => if g.seq < f.seq then some f else o) none with
  | none => none
  | some f => some (intentTargets (f.r.payload.flatMap wordBytes))

/-- A segment as recovery restores it; a target handed on since the node reset stands. -/
def PanelSeg.restore (g : PanelSeg) (level : Nat) (believed : Option Nat) (ledger : Int) : PanelSeg :=
  { g with level := if g.told then g.level else level, believed, ledger, run := none, assertDue := false }

/-- The driver's state from the journal (R489). -/
def State.panelFromJournal (s : State) : State :=
  match s.liveKind 0x40 with
  | none => s
  | some e =>
    let b := s.payloadOf e
    let ts := intentTargets b
    let phase := leAt b 14 1
    let s := s.setFld A.pnlRecov F.pnlRecov_phase phase
    let whole := s.lastWhole e.seq
    let believed (n : Nat) : Option Nat :=
      if phase = 255 then some (ts.getD n 0)
      else
        match whole with
        | none => none
        | some w => if w.getD n 0 = ts.getD n 0 then some (ts.getD n 0) else none
    let led := match s.liveKind 0x41 with
      | none => none
      | some l => if e.seq < l.seq then some (s.payloadOf l) else none
    let ledger (n : Nat) : Int :=
      if phase = 255 then 0
      else
        match led with
        | none => 0
        | some l => (BitVec.ofNat 16 (leAt l (2 * n) 2)).toInt * 100000
    let lost := phase ≠ 255 ∧ led.isNone
    let s := s.setFld A.pnlRecov F.pnlRecov_source (if lost then 3 else 2)
    let s := (List.range 56).foldl
      (fun s n => s.modSegment n fun g => g.restore (ts.getD n 0) (believed n) (ledger n)) s
    if lost then s.panelFault F.pnlStatus_ledgerlost 69 0 else s

/-- Every segment that was not settled is UNKNOWN where the intent was of another table (R489). -/
def State.checkTable (s : State) : State :=
  match s.liveKind 0x40 with
  | none => s
  | some e =>
    if leAt (s.payloadOf e) 16 2 = s.fld A.pnlWver F.pnlWver_wver then s
    else s.modPanel fun p => { p with segs := p.segs.map fun g =>
      { g with believed := if g.believed == some g.level then g.believed else none } }

/-- The stress counters from the live stress record, which the lamp room restores at start-up (R484). -/
def State.restoreStress (s : State) : State :=
  if s.pnl.restored then s
  else
    match s.liveKind 0x42 with
    | none => s
    | some e =>
      let b := s.payloadOf e
      ((List.range 56).foldl (fun s n => s.setReg (A.pnlStress n) (BitVec.ofNat 32 (leAt b (4 * n) 4))) s).modPanel
        fun p => { p with restored := true }

/-- PANEL_CLEAR_END (R488, R489): tick 0 follows, and recovery balances every ledger that is not 0. -/
def execPanelClearEnd (s : State) : Out :=
  .next (
    if s.panelPhase = 1 ∨ s.panelPhase = 2 then
      let s := if s.pnl.ramValid then s.setFld A.pnlRecov F.pnlRecov_source 1 else s.panelFromJournal
      let s := s.checkTable.restoreStress
      let s := s.modPanel fun p =>
        { p with tick := 0, firstDriven := none, ramValid := true, covered := List.replicate 56 none, segs := p.segs.map fun g =>
          if g.ledger.natAbs < ledgerNear.toNat then g
          else { g with run := some ⟨none, g.level, 0, 0, 0, 0, false, true, true, .none⟩ } }
      (s.setPhase 3).showPanel
    else s)

/-! ## Power loss (R490 to R492) -/

/-- Ticks from the end of this one until a segment would have completed its pair and balanced, and the last tick's part
in 10 µs (R491): `fuel` bounds the count. -/
def State.ticksToBalance (s : State) (n : Nat) : Nat → Nat → Int → Nat × Nat
  | 0, t, _ => (t, 0)
  | fuel + 1, t, l =>
    if l.natAbs < ledgerNear.toNat then (t, 0)
    else
      let plus := plusTick (s.pnl.tick + t) n
      if plus == decide (l < 0) then
        let v := s.cellVolt plus
        let k := (l.natAbs - ledgerNear.toNat) / Nat.max 1 v.natAbs + 1
        if k ≤ 2000 then (t, k) else s.ticksToBalance n fuel (t + 1) (l + v * 2000)
      else s.ticksToBalance n fuel (t + 1) l

/-- When segment n would have completed its pair and balanced, in 10 µs from the end of this tick (R491). -/
def State.balanceEnd (s : State) (n : Nat) : Nat :=
  let g := s.pseg n
  match g.run with
  | none => 0
  | some r =>
    let pat := stepPat (s.waveStep A.pnlWact r.wave r.step)
    let (t0, l) : Nat × Int :=
      if r.half then (1, g.ledger + if 2 ≤ pat then s.cellVolt false * 2000 else 0) else (0, g.ledger)
    let x := s.ticksToBalance n 64 t0 l
    x.1 * 2000 + x.2

/-- The decision at the declaration of an input loss (R491): E within TMAX, and the HOLD voltage enough until E. -/
def State.panelContinues (s : State) : Bool :=
  let e := ((List.range 56).map s.balanceEnd).foldl Nat.max 0
  let left := (2000000 - (s.tbc - s.pnl.tickAt).toNat) / 1000
  let ticks := (left + e + 1999) / 2000
  decide (left + e ≤ s.fld A.pnlPfcfg F.pnlPfcfg_tmax * 1000)
    && decide (s.fld A.pnlPfcfg F.pnlPfcfg_floor * 100 + (s.pnl.hold0 - s.pnl.hold1) * ticks
      ≤ s.fld A.supHold F.supHold_hold)

/-- The driver at the declaration of an input loss (R490, R491). -/
def State.panelInputLoss (s : State) : State :=
  if s.panelUp then
    let go := s.panelContinues
    let s := s.postIntent (if s.updating then s.phaseIndex else if s.anyRun then 0 else 255)
    let s := s.setPhase 6
    let s :=
      if go then
        (s.modPanel fun p => { p with segs := p.segs.map fun g => { g with run := g.run.map fun r =>
          { r with balancing := r.balancing || !r.half, hold := .none } } }).event A.pnlStatus F.pnlStatus_pfbalanced
      else (s.modPanel fun p => { p with stopping := true }).event A.pnlStatus F.pnlStatus_pfstopped
    s.showPanel
  else s.showLight

/-- PANEL_POWER_DOWN (R492): the ledger and stress records are handed on and the rails switched off. -/
def execPanelPowerDown (s : State) : Out :=
  .next (
    if s.panelPhase = 6 ∧ (s.pnl.stopping ∨ !s.anyRun) then
      let ledgers := (List.range 56).flatMap fun n => le 2 (BitVec.ofInt 16 (ledgerShown (s.pseg n).ledger)).toNat
      let s := (s.panelRecord 0x41 .ledger (bytesWords ledgers)).postStress
      ((s.modPanel fun p => { p with stopping := true }).setPhase 7).showPanel
    else s)

end Sys2Proof.Machine
end

