-- ==== Sys2Proof/Machine/Reset.lean ====
section
/-! DEFINITION. Lamp room reset with its boot ROM, and node reset (R79, R415, R531, R549, R550, R585, R586). -/

namespace Sys2Proof.Machine

/-! ## Lamp room reset (R531, R552, R553) -/

/-- Whether the register belongs to the MGS or the UPD block. -/
def lampReg (a : Nat) : Bool :=
  let b := a % 2 ^ 32
  decide (0x00070000 ≤ b ∧ b < 0x00080000) || decide (0x00600000 ≤ b ∧ b < 0x00610000)

/-- Whether a lamp room reset leaves all of the register as it is: MGS_RESETS, MGS_OPSECS, MGS_CYCLES and the slots'. -/
def lampKept (a : Nat) : Bool :=
  (a == A.mgsResets) || (a == A.mgsOpsecsLo) || (a == A.mgsOpsecsHi) || (a == A.mgsCycles)
    || decide (A.updSlot 0 ≤ a ∧ a < A.updSlot 4) || decide (A.updDig 0 0 ≤ a ∧ a < A.updDig 4 0)

/-- UPD_STATE.UNKEYED follows the fuses (R545). -/
def State.showUnkeyed (s : State) : State :=
  s.setBit A.updState F.updState_unkeyed !s.bit A.idFuse F.idFuse_keyset

/-- The MGS and UPD registers, the core, its SRAM and its keep memory reset; the flag WDOG stays, with SEQ 0x01, and so does
UPD_STATE.TRIAL (R50, R531). -/
def State.lampClear (s : State) : State :=
  let t := { s with
    regs := s.regs.filter fun p => !lampReg p.1 || lampKept p.1
    core := { Core.reset with rom := s.core.rom }
    mgs := { MgsSt.reset with nodeLoaded := s.mgs.nodeLoaded, nodeAt := s.mgs.nodeAt, secondAt := s.mgs.secondAt } }
  let t := if s.bit A.mgsStatus F.mgsStatus_wdog then t.setReg A.mgsStatus 0x01000001 else t
  let t := t.setBit A.updState F.updState_trial (s.bit A.updState F.updState_trial)
  (t.setAct s.upd.act).showUnkeyed

/-! ## The boot ROM (R531, R549) -/

/-- The live activation record of a SUBJ (R419). -/
def State.actRecord (s : State) (subj : Nat) : Option IndexEntry :=
  s.jnl.index.find? fun e => e.kind == 0x50 && e.subj == subj

/-- The slot an activation record of a SUBJ names. -/
def State.recSlot (s : State) (subj : Nat) (e : IndexEntry) : Nat :=
  2 * (subj - 1) + leAt (s.payloadOf e) 0 1 % 2

/-- Management slot k is copied into SRAM, its KEEPINIT blocks into keep memory, and the core jumps to 0x8000_0000
(R531, steps 3, 4 and 6). -/
def State.bootSlot (s : State) (k : Nat) : State :=
  let b := s.slotImage k
  let keep := (imageBlocks b).1.foldl
    (fun m x => sputs TWord.zero m x.addr (x.vals.map fun v => ⟨v, x.tag⟩)) []
  let s := s.modCore fun c => { c with
    cpu := Cpu.fresh 0x80000000, keep, sram := sfrom (0 : Byte) 0 (sectBytes b 1) }
  { s with mgs := { s.mgs with running := true, wdogAt := s.tbc } }

/-- The management firmware rolls back to slot k: a rollback record naming it is handed on, and it boots (R531, R549). -/
def State.rollBackTo (s : State) (k : Nat) : State :=
  let s := ((s.setBit A.updState F.updState_trial false).setAct none).offerAct k 3
  (s.makeActive k).bootSlot k

/-- The boot ROM's steps 2 to 6 for slot k, once recovery has ended: a digest that differs from that of the governing
record rolls back (R531). -/
def State.bootFrom (s : State) (k : Nat) : State :=
  match s.actRecord 2 with
  | none => s.bootSlot k
  | some e =>
    if sha256 (s.slotImage k) = slice (s.payloadOf e) 12 32 then s.bootSlot k else s.rollBackTo (otherSlot k)

/-- The slot the boot ROM loads: that of a trial, else the active one, else slot A. -/
def State.bootChoice (s : State) : Nat :=
  match s.upd.act with
  | some a => if a.kind = 2 ∧ 2 < a.step then a.slot else s.upd.mgmt.getD 2
  | none => s.upd.mgmt.getD 2

/-- A lamp room reset; `forTrial` where a management activation asks for it. Any other reset during a trial ends it in a
rollback, and an open transfer ends ABORTED (R531, R543, R549). -/
def State.lampRoomReset (s : State) (forTrial : Bool) : State :=
  let x := s.upd.xfer
  let trial := s.bit A.updState F.updState_trial && !forTrial
  let s := s.lampClear.satInc A.mgsResets F.mgsResets_count
  let s := match x with
    | none => s
    | some x => s.endXfer x
  if s.jnlPhase = 0 then s
  else if trial then s.rollBackTo (otherSlot s.bootChoice)
  else s.bootFrom s.bootChoice

/-- LAMP_ROOM_RESET (R530, R531). -/
def execLampRoomReset (s : State) : Out := .next (s.lampRoomReset false)

/-! ## Node reset (R415, R585, R586) -/

/-- Whether the logic supply is kept through a reset of the cause (*Table: Reset causes*). -/
def supplyKept (cause : Nat) : Bool := [2, 4, 5, 6].contains cause

/-- The journal programs every whole group in the caddy (R415). -/
def State.finishCaddy (s : State) : State :=
  s.jnl.caddy.foldl
    (fun s x => match s.placeGroup (wordUp x.2.len) x.1 with
      | none => s
      | some (s, a) => s.programGroup x.2 x.1 a) s

/-- Whether a node reset of any cause leaves the register as it is: the fuses' values, and those of the backup domain
(R467). -/
def resetKept (a : Nat) : Bool :=
  decide (a < 0x00010000) || decide (A.rtcSubsec ≤ a ∧ a ≤ A.rtcFlags) || (a == A.rtcCal)

/-- Whether a node reset that keeps the logic supply leaves the register as it is: captures, FLT_RESCNT and the operating
counts (R540, R557). -/
def supplyKeeps (a : Nat) : Bool :=
  decide (A.fltFirst 0 ≤ a ∧ a < A.fltFirst 5) || decide (A.fltGrave 0 ≤ a ∧ a < A.fltGrave 5) || (a == A.fltRescnt)
    || (a == A.mgsOpsecsLo) || (a == A.mgsOpsecsHi) || (a == A.mgsCycles)

/-- A key hash that was programmed into the fuses takes effect (R546). -/
def State.takeKey (s : State) (key : Option (List Word)) : State :=
  match key with
  | none => s
  | some ws =>
    ((List.range 8).foldl (fun s j => s.setReg (A.idKeyhash j) (ws.getD j 0)) s).setBit A.idFuse F.idFuse_keyset true

/-- The flags and states of the collector that a reset with the supply kept leaves: RESET with SEQ 0x01, RESET_HELD,
GRAVE_VALID and FIRST_VALID (R50, R557, R562). -/
def State.keepFaults (s0 s : State) : State :=
  let b (f : Fld) (t : State) : State := t.setBit A.fltState f (s0.bit A.fltState f)
  let s := b F.fltState_resetheld (b F.fltState_gravevalid (b F.fltState_firstvalid s))
  let s := if s0.bit A.fltStatus F.fltStatus_reset then
      (s.setFld A.fltStatus F.fltStatus_reset 1).setFld A.fltStatus seqFld 1 else s
  { s with flt := { FltSt.reset with
      firstArmed := s0.flt.firstArmed, graveArmed := s0.flt.graveArmed, resets := s0.flt.resets } }

/-- The panel driver's RAM through a reset that keeps the logic supply: targets, believed states and ledgers (R489,
R490). -/
def State.keepPanel (s0 s : State) : State :=
  { s with pnl := { PanelSt.reset with
      segs := s0.dropRuns.pnl.segs.map fun g => { PanelSeg.reset with
        level := g.level, tag := g.tag, believed := g.believed, ledger := g.ledger }
      ramValid := true } }

/-- What a node reset leaves at its reset values and what it keeps, before the cause (R586): the flash, the backup domain
and its phase, the fuses, and the queue of the model. -/
def State.resetBlocks (s : State) (kept : Bool) : State :=
  { State.reset with
    regs := s.regs.filter fun p => resetKept p.1 || (kept && supplyKeeps p.1)
    core := { Core.reset with rom := s.core.rom }
    flash := s.flash
    rtc := { RtcSt.reset with
      secondAt := s.rtc.secondAt - s.tbc, calInForce := s.rtc.calInForce, onVbat := s.rtc.onVbat
      loads := s.rtc.loads }
    mgs := { MgsSt.reset with nodeAt := if kept then s.mgs.nodeAt else 0 }
    free := s.free
    pending := s.pending }

/-- Node reset with a cause (R586). The start proceeds from stage 1 where the logic supply is kept, else from stage 0. -/
def State.nodeReset (s : State) (cause : Nat) : State :=
  let kept := supplyKept cause
  let failing := decide (3 ≤ s.fld A.supState F.supState_phase)
  let s := if kept then s.finishCaddy else s
  let count := if cause = 1 then 0 else Nat.min (s.fld A.supReset F.supReset_count + 1) 0xFFFF
  let t := s.resetBlocks kept
  let t := if s.upd.keyBusy then t else t.takeKey s.upd.key
  let t := if kept then s.keepPanel (s.keepFaults t) else t
  let t := t.setReg A.supReset (BitVec.ofNat 32 (count * 65536 + cause))
  let t :=
    if kept then
      let t := (t.setFld A.supState F.supState_stage 1).setBit A.supState F.supState_railsok true
      t.setBit A.supState F.supState_fldext (s.bit A.supState F.supState_fldext)
    else t
  let t := t.setBit A.supState F.supState_bcarries (s.bit A.supState F.supState_bcarries)
  let t := { t with sup := { t.sup with pinLow := s.sup.pinLow } }
  -- a reset of another cause in the power-fail phase waits for an input (R579)
  if failing ∧ cause ≠ 1 ∧ cause ≠ 2 then
    { t.setFld A.supState F.supState_stage 0 with sup := { t.sup with held := some cause } }
  else t

/-- Whether the node is held in reset: waiting for an input, by RSTN, or by its fuses (R61, R579, R585). -/
def State.heldReset (s : State) : Bool :=
  s.sup.held.isSome || s.sup.pinLow || !s.bit A.idFuse F.idFuse_senseok

end Sys2Proof.Machine
end

