-- ==== Sys2Proof/Machine/Faults.lean ====
section
/-! DEFINITION. The fault collector: arrival, entry, reactions, release and its self-check (R556 to R565, R607). -/

namespace Sys2Proof.Machine

/-- The state with the collector changed. -/
def State.modFlt (s : State) (g : FltSt → FltSt) : State := { s with flt := g s.flt }

/-- The flag of a class in FLT_STATUS. -/
def faultFlag (c : Nat) : Fld :=
  if c = 0 then F.fltStatus_note
  else if c = 1 then F.fltStatus_degrade
  else if c = 2 then F.fltStatus_safe
  else F.fltStatus_reset

/-- What an error that is not masked does even if its entry is lost: class counter, class flag and, from DEGRADE up,
HSP_STATUS.FAULT and DEGRADED (R556, R559, R607). -/
def State.classEffects (s : State) (c : Nat) : State :=
  let s := (s.satInc (A.fltCnt c) F.fltCnt_count).event A.fltStatus (faultFlag c)
  if c = 0 then s else (s.event A.hspStatus F.hspStatus_fault).setBit A.fltState F.fltState_degraded true

/-- A RESET error asks for a node reset, or acts as SAFE while resets are held (R562). -/
def State.resetRequest (s : State) : State :=
  if s.bit A.fltState F.fltState_resetheld || decide (3 ≤ s.recentResets) then
    (s.setBit A.fltState F.fltState_resetheld true).event A.fltStatus F.fltStatus_held
  else
    let now := s.pair A.mgsOpsecsLo
    ((s.modFlt fun f => { f with resets := now :: f.resets }).satInc A.fltRescnt F.fltRescnt_total).nodeReset 4

/-- The reaction of an error's class at its arrival: SAFE values from SAFE up (R560). -/
def State.safeReaction (s : State) (c : Nat) : State := if 2 ≤ c then s.safeOn else s

/-- An error that has reached the collector: counted, then queued, or lost on a full queue (R556, R564). -/
def State.faultArrives (s : State) (e : ErrRec) : State :=
  let s := s.satInc (A.fltSrc e.src) F.fltSrc_count
  if e.masked then s
  else
    let s := s.safeReaction e.cls
    if 32 ≤ s.flt.queue.length then
      let s := (s.classEffects e.cls).event A.fltStatus F.fltStatus_loglost
      if e.cls = 3 then s.resetRequest else s
    else s.modFlt fun f => { f with queue := f.queue ++ [e] }

/-- ERROR_ARRIVAL (R556). -/
def execErrorArrival (s : State) : Out :=
  match s.flt.crossing with
  | [] => .next s
  | e :: t => .next ((s.modFlt fun f => { f with crossing := t }).faultArrives e)

/-- The entry enters the FIRST capture, or the GRAVE capture (R557). -/
def State.captureFault (s : State) (e : ErrRec) : State :=
  let s :=
    if s.flt.firstArmed then
      ((((List.range 5).foldl (fun s i => s.setReg (A.fltFirst i) (e.word i)) s).setBit
        A.fltState F.fltState_firstvalid true).modFlt fun f => { f with firstArmed := false })
    else s
  if s.flt.graveArmed && decide (2 ≤ e.cls) then
    ((((List.range 5).foldl (fun s i => s.setReg (A.fltGrave i) (e.word i)) s).setBit
      A.fltState F.fltState_gravevalid true).modFlt fun f => { f with graveArmed := false })
  else s

/-- VALUE of an error's ring-115 record (R558). -/
def noticeValue (e : ErrRec) (first : Bool) : Word :=
  BitVec.ofNat 32 (e.cls + e.master * 4 + e.access * 32 + (if first then 128 else 0) + e.inst % 65536 * 65536)

/-- The ring-115 record of an error, at most 32 in one input interval (R558). -/
def State.faultNotice (s : State) (e : ErrRec) (first : Bool) : State :=
  if s.flt.notices < 32 then
    (s.modFlt fun f => { f with notices := f.notices + 1 }).send
      (mkRec 115 0xB0 (faultSource e.src).1 ⟨noticeValue e first, .good⟩ 0 e.stamp 12)
  else s.satInc A.fltNotice F.fltNotice_drops

/-- The collector records an error of its queue (R557, R559). -/
def State.faultEnters (s : State) (e : ErrRec) : State :=
  let first := s.flt.firstArmed
  let s := s.modFlt fun f => { f with log := ((f.nextSeq, e) :: f.log).take 64, nextSeq := f.nextSeq + 1 }
  let s := ((s.captureFault e).classEffects e.cls).faultNotice e first
  let s := s.evrEvent 1 (faultSource e.src).1 e.cls e.stamp
  if e.cls = 3 then s.resetRequest else s

/-- FAULT_ENTRY (R557). -/
def execFaultEntry (s : State) : Out :=
  match s.flt.queue with
  | [] => .next s
  | e :: t => .next ((s.modFlt fun f => { f with queue := t }).faultEnters e)

/-- COLLECTOR_SELF_CHECK (R565): `parityOk` where the parity agrees, `alone` where one copy of the fast path asserts the
SAFE line alone. -/
def execCollectorSelfCheck (parityOk alone : Bool) (s : State) : Out :=
  let s := if alone then s.safeOn else s
  .next (if parityOk && !alone then s else s.report 9 0)

/-! ## Writes to the collector's registers -/

/-- A write to FLT_SAFE (R561). -/
def State.safeKeyWritten (s : State) (w : Word) : State := if F.fltSafe_key.get w = 0x5AFE then s.safeOff else s

/-- A write to FLT_CTRL: REARM_F and REARM_G re-arm a capture and clear its VALID; UNHOLD clears RESET_HELD (R557,
R562). -/
def State.fltCtrlWritten (s : State) (w : Word) : State :=
  let s :=
    if F.fltCtrl_rearmf.get w = 1 then
      (s.setBit A.fltState F.fltState_firstvalid false).modFlt fun f => { f with firstArmed := true }
    else s
  let s :=
    if F.fltCtrl_rearmg.get w = 1 then
      (s.setBit A.fltState F.fltState_gravevalid false).modFlt fun f => { f with graveArmed := true }
    else s
  if F.fltCtrl_unhold.get w = 1 then s.setBit A.fltState F.fltState_resetheld false else s

/-- A write to FLT_STATUS that matches and writes bit 1 ends DEGRADED (R607); `cur` is the word before it. -/
def State.fltStatusWritten (s : State) (cur w : Word) : State :=
  if seqFld.get w = seqFld.get cur ∧ F.fltStatus_degrade.get w = 1 then
    s.setBit A.fltState F.fltState_degraded false
  else s

end Sys2Proof.Machine
end

