-- ==== Sys2Proof/Machine/RecorderIns.lean ====
section
/-! DEFINITION. Event recorder: records in the flash, the scan after a node reset, the window and the clear (R439 to
R449). -/

namespace Sys2Proof.Machine

/-! ## Writing records -/

/-- The 112 bytes programmed with a record (*Table: Event record*, *Table: Recorder slot*). -/
def EvrEntry.bytes (e : EvrEntry) (lost : Bool) (q : Nat) : List Byte :=
  let b (x : Bool) (n : Nat) : Nat := if x then n else 0
  let body := le 4 e.rtcsec
    ++ le 4 (e.trig * 2 ^ 27 + e.list * 2 ^ 24 + e.kind * 2 ^ 20 + b lost (2 ^ 19))
    ++ le 2 e.caperr ++ le 2 e.detail
    ++ le 4 e.opsecs
    ++ [BitVec.ofNat 8 (e.caps.length + b e.osf 32 + b e.lbv 64 + b e.rtcValid 128), BitVec.ofNat 8 e.subsec]
    ++ le 2 (e.opsecs / 2 ^ 32) ++ wordBytes e.cycles ++ le 8 e.stamp.toNat
    ++ ((List.range 16).flatMap fun i => wordBytes (e.caps.getD i 0))
    ++ le 4 q ++ le 8 0
  body ++ wordBytes (crc32c body)

/-- Whether the slot at flash word k is erased. -/
def State.slotErased (s : State) (k : Nat) : Bool := (List.range 8).all fun i => s.flashWord (k + i) == erasedWord

/-- The next ring position of LAST whose slot can take a record, from p on (R443). -/
def State.nextSlot (s : State) (p : Nat) : Nat :=
  match (List.range 7665).find? fun i => s.slotErased (lastWord ((p + i) % 7665)) with
  | some i => (p + i) % 7665
  | none => p

/-- LAST starts writing a segment: the next one is erased (R444). -/
def State.eraseAhead (s : State) (p : Nat) : State :=
  if p % 511 = 0 then
    let seg := (p / 511 + 1) % 15
    (s.eraseSegment (65 + seg)).modEvr fun e => { e with last := e.last.filter fun x => x.2 / 511 != seg }
  else s

/-- EVR_STATE.NFIRST follows the records of FIRST. -/
def State.countFirst (s : State) : State := s.setFld A.evrState F.evrState_nfirst s.evr.first.length

/-- The record is also written to FIRST while it holds fewer than 256 (R441). -/
def State.writeFirst (s : State) (bs : List Byte) (q : Nat) : State :=
  match (List.range 256).find? fun i => s.slotErased (firstWord i) with
  | none => s
  | some i =>
    ((s.programBytes (firstWord i) bs).modEvr fun e => { e with first := e.first ++ [(i, q)] }).countFirst

/-- An entry is written as the next record (R441 to R444): the record that stops being the newest gets its repeat
word. -/
def State.writeRecord (s : State) (e : EvrEntry) : State :=
  let q := s.fld A.evrNextseq F.evrNextseq_seq
  let bs := e.bytes s.evr.lost q
  let s := s.keepRepeat
  let p := s.evr.nextPos
  let s := (s.eraseAhead p).programBytes (lastWord p) bs
  let s := s.writeFirst bs q
  let s := s.setReg A.evrNextseq (BitVec.ofNat 32 (if q = 0xFFFFFFFF then 1 else q + 1))
  let next := s.nextSlot ((p + 1) % 7665)
  (s.modEvr fun v =>
    { v with lost := false, newest := some ⟨q, e.trig, e.kind, e.detail, e.stamp, 0, 0⟩
             last := ((q, p) :: v.last).take 4096, nextPos := next }).event A.evrStatus F.evrStatus_recorded

/-- EVENT_RECORD_WRITE (R437, R444): the front of the queue is written, after the scan and outside a clear. -/
def execEventRecordWrite (s : State) : Out :=
  .next (
    match s.evr.queue with
    | [] => s
    | e :: es =>
      let ph := s.fld A.evrState F.evrState_phase
      if ph = 0 ∨ ph = 3 then s
      else ((s.writeRecord e).modEvr fun v => { v with queue := es }).countQueued)

/-- EVR_SWTRIG has been written: a SOFTWARE event (R436). -/
def State.swtrigWritten (s : State) (w : Word) : State := s.evrEvent 7 (F.evrSwtrig_detail.get w) 0 s.tbc

/-! ## The window (R446) -/

/-- EVR_WEND has been read by master m: with AUTO set its cursor moves one slot. -/
def State.wendRead (s : State) (m : Nat) : State :=
  let a := bank m A.evrCursor
  if s.bit a F.evrCursor_auto then
    let n := if s.bit a F.evrCursor_area then 256 else 4096
    let k := s.fld a F.evrCursor_slot
    s.setFld a F.evrCursor_slot (if s.bit a F.evrCursor_dir then (k + n - 1) % n else (k + 1) % n)
  else s

/-! ## Clearing (R447) -/

/-- Whether an area code names FIRST, and LAST. -/
def areaFirst (n : Nat) : Bool := decide (n % 2 = 1)
def areaLast (n : Nat) : Bool := decide (2 ≤ n)

/-- The clear is confirmed: the erasure begins, and the CLEAR record stands first of what is written afterwards. -/
def State.clearConfirmed (s : State) (area : Nat) : State :=
  let x := s.evrEntry 31 0 15 area [] s.tbc
  let s := s.noteTime.modEvr fun e =>
    { e with armed := none, clearing := some (area, s.tbc), queue := x :: e.queue
             newest := if areaLast area then none else e.newest }
  (s.setFld A.evrState F.evrState_phase 3).countQueued

/-- EVR_CLEAR has been written: the first write arms, a second within 1 ms with the other key and the same AREA clears,
any other disarms. -/
def State.clearWritten (s : State) (w : Word) : State :=
  let key := F.evrClear_key.get w
  let area := F.evrClear_area.get w
  let confirms :=
    match s.evr.armed with
    | none => false
    | some (a, t) => decide (key = 0x5A5A) && decide (a = area) && decide ((s.tbc - t).toNat ≤ 100000)
  if key = 0xA5A5 then s.modEvr fun e => { e with armed := some (area, s.tbc) }
  else if confirms && s.evr.clearing.isNone then s.clearConfirmed area
  else s.modEvr fun e => { e with armed := none }

/-- EVR_CLEAR_DISARM: the end of the 1 ms window disarms the clear. -/
def execEvrClearDisarm (s : State) : Out := .next (s.modEvr fun e => { e with armed := none })

/-- EVR_CLEAR_DONE: the segments of the area are erased. -/
def execEvrClearDone (s : State) : Out :=
  .next (
    match s.evr.clearing with
    | none => s
    | some (area, _) =>
      let s := if areaFirst area then (s.eraseSegment 64).modEvr fun e => { e with first := [] } else s
      let s :=
        if areaLast area then
          ((List.range 15).foldl (fun s i => s.eraseSegment (65 + i)) s).modEvr
            fun e => { e with last := [], nextPos := 0 }
        else s
      let s := (s.modEvr fun e => { e with clearing := none }).countFirst
      (s.setFld A.evrState F.evrState_phase 1).event A.evrStatus F.evrStatus_cleared)

/-! ## The scan after a node reset (R445) -/

/-- What the scan finds in the slot at flash word k: nothing, a corrupt slot, or the record with its SEQ. -/
def State.scanSlot (s : State) (k : Nat) : Option (Option Nat) :=
  if s.slotErased k then none
  else
    let b := s.flashBytes k 112
    let q := leAt b 96 4
    if leAt b 108 4 = (crc32c (b.take 108)).toNat ∧ q ≠ 0 then some (some q) else some none

/-- The scan's result over ring or slot positions: SEQ and position of each record, and how many slots are corrupt. -/
def State.scanArea (s : State) (word : Nat → Nat) (n : Nat) : List (Nat × Nat) × Nat :=
  (List.range n).foldl
    (fun r p =>
      match s.scanSlot (word p) with
      | none => r
      | some none => (r.1, r.2 + 1)
      | some (some q) => ((q, p) :: r.1, r.2)) ([], 0)

/-- EVR_SCAN. A record is presented in LAST while it is among the newest 4,096. -/
def execEvrScan (s : State) : Out :=
  .next (
    if s.evr.scanned then s
    else
      let f := s.scanArea firstWord 256
      let l := s.scanArea lastWord 7665
      let top := (f.1 ++ l.1).foldl (fun n x => Nat.max n x.1) 0
      let last := (l.1.filter fun x => top < x.1 + 4096).mergeSort fun a b => decide (b.1 ≤ a.1)
      let bad := f.2 + l.2
      let s := (List.range bad).foldl (fun s _ => s.event A.evrStatus F.evrStatus_corrupt) s
      let s := s.satAdd A.evrDrops F.evrDrops_corrupts bad
      let s := s.setReg A.evrNextseq (BitVec.ofNat 32 (if top = 0xFFFFFFFF then 1 else top + 1))
      let start := match last with
        | [] => 0
        | x :: _ => (x.2 + 1) % 7665
      let next := s.nextSlot start
      let s := (s.modEvr fun e =>
        { e with scanned := true, first := f.1.reverse.map fun x => (x.2, x.1), last, nextPos := next }).countFirst
      if s.fld A.evrState F.evrState_phase = 0 then s.setFld A.evrState F.evrState_phase 1 else s)

/-- The recorder at input loss (R444): the newest record's REPEAT is programmed, and PHASE reads power-fail. -/
def State.evrPowerFail (s : State) : State := s.keepRepeat.setFld A.evrState F.evrState_phase 2

end Sys2Proof.Machine
end

