-- ==== Sys2Proof/Machine/Supply.lean ====
section
/-! DEFINITION. Power inputs, rails, hold-up store, power fail, reference, island clocks and the sources of node reset
(R567 to R586). -/

namespace Sys2Proof.Machine

/-- The state with the supply manager changed. -/
def State.modSup (s : State) (g : SupSt → SupSt) : State := { s with sup := g s.sup }

/-- The state with the lamp room changed. -/
def State.modMgs (s : State) (g : MgsSt → MgsSt) : State := { s with mgs := g s.mgs }

/-- SUP_STATE.PHASE and STAGE. -/
def State.phase (s : State) : Nat := s.fld A.supState F.supState_phase
def State.stage' (s : State) : Nat := s.fld A.supState F.supState_stage

/-- The stage of the start-up becomes n (R587). -/
def State.setStage (s : State) (n : Nat) : State := s.setFld A.supState F.supState_stage n

/-- A supply event: a ring-116 record, and an event of the recorder (R580). -/
def State.supplyEvent (s : State) (code v : Nat) : State :=
  (s.send (mkRec 116 0xC0 code ⟨BitVec.ofNat 32 (v % 65536), .good⟩ 0 s.tbc 14)).evrEvent 2 code 0 s.tbc

/-! ## Records at a power cut and at a seam -/

/-- The output-state record, for a latch majority that has changed (R376). -/
def State.outRecord (s : State) (stamp : Stamp) : State :=
  if s.field.outDirty then
    let bits (p : Nat → Bool) : Nat := ((List.range 48).filter p).foldl (fun n i => n + 2 ^ i) 0
    let leaders := bits s.leader
    let on := bits fun n => s.bit (A.outState n) F.outState_voted
    (s.offer ⟨0x10, .out, [⟨0x20, 1, 0, 0, 0, stamp, bytesWords (le 8 leaders ++ le 8 on)⟩]⟩).modField
      fun f => { f with outDirty := false }
  else s

/-- The lamp room writes a node record with the operating seconds and power cycles (R540). -/
def State.postNode (s : State) : State :=
  let secs := s.pair A.mgsOpsecsLo
  let p := bytesWords (le 8 secs ++ le 4 (s.reg A.mgsCycles).toNat)
  (s.offer ⟨4, .node, [⟨0x31, 1, 0, 0, 0, s.tbc, p⟩]⟩).modMgs fun m => { m with nodeAt := secs }

/-! ## Inputs (R567, R568) -/

/-- VINA_OK or VINB_OK. -/
def inputOk (x : SupplyInput) : Fld := if x.val = 0 then F.supState_vinaok else F.supState_vinbok

/-- An input is present: its bit and its voltage. -/
def State.markPresent (s : State) (x : SupplyInput) (v : BitVec 16) : State :=
  ((s.setBit A.supState (inputOk x) true).setFld A.supVin
    (if x.val = 0 then F.supVin_vina else F.supVin_vinb) v.toNat).modSup
    fun p => { p with seen := if p.seen.contains x.val then p.seen else x.val :: p.seen }

/-- INPUT_PRESENT (R568, R579): the first presence after a reset sets no flag; one in the power-fail phase returns, and one
that a held reset waits for releases it. -/
def execInputPresent (x : SupplyInput) (v : BitVec 16) (s : State) : Out :=
  .next (
    if s.phase = 4 then (s.nodeReset (if s.sup.railsStayed then 2 else 1)).markPresent x v
    else if s.sup.held.isSome then
      let s := s.modSup fun p => { p with held := none }
      let ok := s.bit A.supState F.supState_railsok && !s.sup.pinLow
      (s.setStage (if ok then 1 else 0)).markPresent x v
    else
      let s :=
        if s.sup.seen.contains x.val && !s.bit A.supState (inputOk x) then
          (s.event A.supStatus (if x.val = 0 then F.supStatus_vinaret else F.supStatus_vinbret)).supplyEvent
            (3 + x.val) v.toNat
        else s
      (if s.phase = 3 then s.modSup fun p => { p with returned := true } else s).markPresent x v)

/-- INPUT_LOST (R568): an input lost while the other is present is flagged, reported and posted. -/
def execInputLost (x : SupplyInput) (v : BitVec 16) (s : State) : Out :=
  .next (
    if s.bit A.supState (inputOk x) then
      let s := (s.setBit A.supState (inputOk x) false).setFld A.supVin
        (if x.val = 0 then F.supVin_vina else F.supVin_vinb) v.toNat
      if s.bit A.supState (inputOk (1 - x)) then
        ((s.event A.supStatus (if x.val = 0 then F.supStatus_vinalost else F.supStatus_vinblost)).report
          (1 + x.val) 0).supplyEvent (1 + x.val) v.toNat
      else s
    else s)

/-- INPUT_HANDOVER (R567). -/
def execInputHandover (s : State) : Out :=
  .next (s.setBit A.supState F.supState_bcarries !s.bit A.supState F.supState_bcarries)

/-! ## Power fail (R575 to R579) -/

/-- The loads of *Table: Power-fail shedding* are shed; the panel driver switches the frontlight off itself. -/
def State.shedLoads (s : State) : State :=
  let s := (List.range 8).foldl State.stopConverter s
  let s := ((List.range 16).foldl State.sourceOff s).modField fun f => { f with calBusy := none }
  (List.range 4).foldl (fun s h => if s.modem h ∈ [1, 2, 3] then s.abortModem h else s) s

/-- INPUT_LOSS (R577): no input is present; `hold` is the voltage of HOLD. -/
def execInputLoss (hold : BitVec 16) (s : State) : Out :=
  .next (
    if s.bit A.supState F.supState_vinaok || s.bit A.supState F.supState_vinbok || decide (3 ≤ s.phase) then s
    else
      let s := ((s.setFld A.supState F.supState_phase 3).setBit A.supState F.supState_holdsw true).setFld
        A.supHold F.supHold_hold hold.toNat
      let s := s.modSup fun p => { p with declared := some s.tbc, returned := false }
      let s := s.shedLoads
      let s := (s.supplyEvent 5 hold.toNat).report 3 0
      let s := (s.jnlPowerFail.evrPowerFail).outRecord s.tbc
      (if s.mgs.nodeLoaded then s.postNode else s).panelInputLoss)

/-- HOLD_SWITCH_CLOSE (R575). -/
def execHoldSwitchClose (s : State) : Out :=
  .next (
    if s.phase ≤ 1 then
      (s.setBit A.supState F.supState_holdsw true).setFld A.supState F.supState_phase 2
    else s)

/-- RIDE (R575): the switch reopens; `lowest` is the lowest HOLD reached. -/
def execRide (lowest : BitVec 16) (s : State) : Out :=
  .next (
    if s.phase = 2 then
      let s := (s.setBit A.supState F.supState_holdsw false).setFld A.supState F.supState_phase
        (if s.stage' = 6 then 1 else 0)
      let s := (s.satInc A.supRides F.supRides_count).setFld A.supHold F.supHold_low lowest.toNat
      (s.event A.supStatus F.supStatus_ride).supplyEvent 6 lowest.toNat
    else s)

/-- HOLD_READY (R574). -/
def execHoldReady (v : BitVec 16) (s : State) : Out :=
  .next (
    if s.bit A.supState F.supState_holdok then s
    else
      let s := (s.setBit A.supState F.supState_holdok true).setFld A.supHold F.supHold_hold v.toNat
      (s.event A.supStatus F.supStatus_holdready).supplyEvent 7 v.toNat)

/-- HOLD_LOW (R574). -/
def execHoldLow (v : BitVec 16) (s : State) : Out :=
  .next (
    if s.bit A.supState F.supState_holdok && !s.shed then
      let s := (s.setBit A.supState F.supState_holdok false).setFld A.supHold F.supHold_hold v.toNat
      (s.event A.supStatus F.supStatus_holdlow).supplyEvent 8 v.toNat
    else s)

/-- What the node held in reset by a failing logic supply is: every block reset but the journal, which goes on programming
while the supply lasts (R415, R417, R578). -/
def State.holdReset (s : State) : State :=
  let t := s.keepPanel (s.resetBlocks true)
  let mine (a : Nat) : Bool := decide (0x00060000 ≤ a % 2 ^ 32 ∧ a % 2 ^ 32 < 0x00070000)
  { t with
    regs := s.regs.filter fun p => mine p.1 || resetKept p.1 || supplyKeeps p.1 || decide (p.1 = A.supReset)
      || decide (p.1 = A.supState)
    flt := (s.keepFaults t).flt
    jnl := s.jnl
    upd := { t.upd with key := s.upd.key, keyBusy := s.upd.keyBusy }
    sup := { t.sup with held := some 2, railsStayed := true, pinLow := s.sup.pinLow } }

/-- LOGIC_FAILING (R578). -/
def execLogicFailing (hold : BitVec 16) (s : State) : Out :=
  .next (
    if s.phase = 3 then
      let s := (s.closeGate.evrEvent 2 11 0 s.tbc).setFld A.supHold F.supHold_hold hold.toNat
      (((s.keepFaults s.holdReset).setFld A.supState F.supState_phase 4).setFld A.supState F.supState_stage 0)
    else s)

/-- POWER_RETURN (R579): an input has returned in the power-fail phase, and 60 ms since the declaration have passed. -/
def execPowerReturn (s : State) : Out := .next (if s.phase = 3 ∧ s.sup.returned then s.nodeReset 2 else s)

/-! ## Logic rails (R569, R570) -/

/-- POWER_ON (R569, R585): the logic buck starts on an unpowered node. -/
def execPowerOn (s : State) : Out :=
  .next (
    if s.phase = 4 ∨ (s.stage' = 0 ∧ ¬s.bit A.supState F.supState_railsok) then s.nodeReset 1 else s)

/-- POWER_GOOD (R569, R573): `fldExt` is the level of the FLD_EXT strap. -/
def execPowerGood (fldExt : Bool) (s : State) : Out :=
  .next (
    if s.stage' = 0 ∧ s.sup.held = none ∧ ¬s.sup.pinLow ∧ ¬s.bit A.supState F.supState_railsok then
      ((s.setBit A.supState F.supState_railsok true).setBit A.supState F.supState_fldext fldExt).setStage 1
    else s)

/-- LOGIC_RAIL_OUT (R570): a rail of the logic supply, 0 the 5 V rail to 3 the 0.9 V rail, is outside ±7 %. -/
def execLogicRailOut (rail : Fin 4) (s : State) : Out :=
  let s := (s.setBit A.supState F.supState_railsok false).modSup fun p => { p with railsStayed := false }
  .next (if s.phase = 4 then s else s.report 5 (3 + rail.val))

/-- BROWNOUT (R570). -/
def execBrownout (s : State) : Out :=
  .next (
    if s.phase = 4 then
      (s.setBit A.supState F.supState_railsok false).modSup fun p => { p with railsStayed := false }
    else s.nodeReset 3)

/-! ## Field supply (R572) -/

/-- The field controller limits its current, or has ceased to; off where the groups are fed from outside (R573). -/
def State.fieldLimit (s : State) (now : Bool) (ifld : BitVec 16) : State :=
  if s.bit A.supState F.supState_fldext || s.bit A.supState F.supState_fldilimnow == now then s
  else
    let s := (s.setBit A.supState F.supState_fldilimnow now).setFld A.supFld F.supFld_ifld ifld.toNat
    if now then ((s.event A.supStatus F.supStatus_fldilim).report 4 0).supplyEvent 9 ifld.toNat
    else s.supplyEvent 10 ifld.toNat

/-- FLD_ILIM_BEGIN (R572). -/
def execFldIlimBegin (ifld : BitVec 16) (s : State) : Out := .next (s.fieldLimit true ifld)

/-- FLD_ILIM_END (R572). -/
def execFldIlimEnd (ifld : BitVec 16) (s : State) : Out := .next (s.fieldLimit false ifld)

/-! ## Fuses, reference and island clocks (R61, R581 to R584) -/

/-- Stage 1 ends once the fuses are sensed and the PLL is locked (R587). -/
def State.clocksUp (s : State) : State :=
  if s.stage' = 1 ∧ s.sup.sensed ∧ s.bit A.tmbState F.tmbState_plllock ∧ ¬s.heldReset then s.setStage 2 else s

/-- FUSE_SENSING_END (R61, R545): `ok` where the check bits are valid. -/
def execFuseSensingEnd (ok : Bool) (s : State) : Out :=
  .next (
    if s.stage' = 1 ∧ ¬s.sup.sensed then
      let s := (s.setBit A.idFuse F.idFuse_senseok ok).modSup fun p => { p with sensed := true }
      if ok then
        let s := s.showUnkeyed
        (if s.bit A.idFuse F.idFuse_keyset then s else s.report 73 0).clocksUp
      else s
    else s)

/-- PLL_LOCK (R581). -/
def execPllLock (s : State) : Out :=
  .next (
    if s.bit A.supState F.supState_railsok && !s.bit A.tmbState F.tmbState_plllock then
      (((s.setBit A.tmbState F.tmbState_plllock true).setBit A.tmbState F.tmbState_xtalok true).setBit
        A.tmbState F.tmbState_xtalwait false).clocksUp
    else s)

/-- CRYSTAL_FAIL (R582): at start-up the node waits, later it is a RESET error. -/
def execCrystalFail (s : State) : Out :=
  let t := (s.setBit A.tmbState F.tmbState_xtalok false).setBit A.tmbState F.tmbState_plllock false
  .next (if s.stage' ≤ 1 then t.setBit A.tmbState F.tmbState_xtalwait true else t.report 8 15)

/-- XTAL_RETRY (R582). -/
def execXtalRetry (s : State) : Out :=
  .next (
    if s.bit A.tmbState F.tmbState_xtalwait then s.event A.tmbStatus F.tmbStatus_xtalretry else s)

/-- TMB re-trims island i: a new trim code, and RETRIM (R584). -/
def State.retrimIsland (s : State) (i : Nat) : State :=
  let k := s.nextFree
  let s := k.2.setFld (A.tmbIsl i) F.tmbIsl_trim (Config.freeWord k.1).toNat
  (s.satInc (A.tmbRetrims i) F.tmbRetrims_count).event A.tmbStatus F.tmbStatus_retrim

/-- Island i's clock has failed (R582, R584). -/
def State.islandFails (s : State) (i : Nat) : State := (s.setFld (A.tmbIsl i) F.tmbIsl_state 2).report 8 i

/-- The magnitude of a frequency error in 0.01 %. -/
def errMag (e : BitVec 16) : Nat := e.toInt.natAbs

/-- A measurement of an island that TMB re-trims: beyond ±1.5 % twice running it is re-trimmed, and then it must reach
±1 % (R584). -/
def State.measureIsland (s : State) (i : Nat) (edge : Bool) (err : BitVec 16) : State :=
  let old := BitVec.ofNat 16 (s.fld (A.tmbIsl i) F.tmbIsl_err)
  let st := s.fld (A.tmbIsl i) F.tmbIsl_state
  if !edge then s.islandFails i
  else
    let s := s.setFld (A.tmbIsl i) F.tmbIsl_err err.toNat
    if st = 1 then (if errMag err ≤ 100 then s.setFld (A.tmbIsl i) F.tmbIsl_state 0 else s.islandFails i)
    else if 150 < errMag err ∧ 150 < errMag old then
      ((s.retrimIsland i).setFld (A.tmbIsl i) F.tmbIsl_state 1).report 7 i
    else s

/-- Whether two of the tally's DCOs differ by more than 2 % (R339). -/
def apart (a b : BitVec 16) : Bool := decide (200 < (a.toInt - b.toInt).natAbs)

/-- A measurement of the tally's DCOs (R339, R584): one that departs from both others is dropped from the median; two
that are left and disagree have failed; one beyond ±1.5 % is re-trimmed. -/
def State.measureTally (s : State) (d : Nat → BitVec 16) : State :=
  let bitOf (k : Nat) : Fld := ⟨F.tlyState_dco.lo + k, F.tlyState_dco.lo + k⟩
  let used := (List.range 3).filter fun k => s.bit A.tlyState (bitOf k)
  let trim (s : State) : State :=
    if used.any fun k => decide (150 < errMag (d k)) then s.retrimIsland 3 else s
  if used.length = 3 then
    let s := trim s
    match used.find? fun k => used.all fun j => decide (j = k) || apart (d k) (d j) with
    | none => s
    | some k => (s.setBit A.tlyState (bitOf k) false).report 55 k
  else if used.any fun k => used.any fun j => apart (d k) (d j) then s.islandFails 3
  else trim s

/-- ISLAND_CLOCK_MEASURE (R584): island i gave an `edge` in the window, with frequency error `err`; `dcos` holds the errors
of the tally's three DCOs. -/
def execIslandClockMeasure (i : Fin 16) (edge : Bool) (err : BitVec 16) (dcos : List (BitVec 16)) (s : State) : Out :=
  let n := i.val
  .next (
    if n = 6 then s
    else if n = 3 then (s.setFld (A.tmbIsl 3) F.tmbIsl_err err.toNat).measureTally fun k => dcos.getD k err
    else if n ≤ 2 ∨ n = 15 then s.setFld (A.tmbIsl n) F.tmbIsl_err err.toNat
    else if n = 14 then
      let s := s.setFld (A.tmbIsl 14) F.tmbIsl_err err.toNat
      if 1000 < errMag err then s.islandFails 14 else s
    else s.measureIsland n edge err)

/-! ## Reset (R585) -/

/-- PIN_RESET (R585): RSTN low for 10 µs resets the node, which stays in reset while RSTN is low. -/
def execPinReset (s : State) : Out :=
  .next (((s.nodeReset 5).modSup fun p => { p with pinLow := true }).setStage 0)

/-- RESET_RELEASE (R585): RSTN rises. -/
def execResetRelease (s : State) : Out :=
  .next (
    if s.sup.pinLow then
      let s := s.modSup fun p => { p with pinLow := false }
      if s.sup.held = none ∧ s.bit A.supState F.supState_railsok then s.setStage 1 else s
    else s)

/-- A write to SUP_RST (R585). -/
def State.rstWritten (s : State) (w : Word) : State := if F.supRst_key.get w = 0x5253 then s.nodeReset 6 else s

end Sys2Proof.Machine
end

