-- ==== Sys2Proof/Machine/LampRoom.lean ====
section
/-! DEFINITION. The lamp room's READY, watchdog, write watch, SAVE, sensors, operating seconds and host commands (R390,
R391, R532 to R540). -/

namespace Sys2Proof.Machine

/-! ## READY (R532, R589) -/

/-- Releases are no longer held, and F0 is set where no frame has been released since the start (R589). -/
def State.releasesResume (s : State) : State :=
  let s := s.modMgs fun m => { m with holding := false }
  if s.frame.f0.isSome || !s.bit A.tmbState F.tmbState_tbcrun then s
  else
    let f0 := BitVec.ofNat 64 ((s.tbc.toNat + 999) / 1000 * 1000)
    let s := if s.stage' < 5 then s.setStage 5 else s
    let s := s.setPair A.seqNextSeamLo f0.toNat
    { s with frame := { s.frame with f0 := some f0 } }

/-- MGS_CTRL has been written (R532). -/
def State.readyWritten (s : State) : State :=
  if s.mgs.holding && s.bit A.mgsCtrl F.mgsCtrl_ready then s.releasesResume else s

/-- READY_TIMEOUT (R532): READY is still 0 one second after the reset. -/
def execReadyTimeout (s : State) : Out :=
  .next (
    if s.mgs.holding && !s.bit A.mgsCtrl F.mgsCtrl_ready && s.bit A.tmbState F.tmbState_tbcrun then
      ((s.event A.mgsStatus F.mgsStatus_notready).report 15 0).releasesResume
    else s)

/-! ## Watchdog (R533) -/

/-- A write to MGS_WDOG. -/
def State.wdogWritten (s : State) (w : Word) : State :=
  if w = 0x00006C72 then s.modMgs fun m => { m with wdogAt := s.tbc } else s.satInc A.mgsResets F.mgsResets_badkey

/-- WATCHDOG_EXPIRY (R533): WDT × 10 ms have passed since the watchdog began or was last restarted. -/
def execWatchdogExpiry (s : State) : Out :=
  .next (
    if s.mgs.running && decide (s.mgs.wdogAt.toNat + s.fld A.mgsCtrl F.mgsCtrl_wdt * 1000000 ≤ s.tbc.toNat) then
      ((s.event A.mgsStatus F.mgsStatus_wdog).report 14 0).lampRoomReset false
    else s)

/-! ## Write watch (R535) -/

/-- MGS_WQ shows the oldest queued address. -/
def State.showWatch (s : State) : State :=
  s.setReg A.mgsWq (match s.mgs.watch with
    | [] => 0
    | a :: _ => BitVec.ofNat 32 (a + 1))

/-- Whether an enabled watch range holds the word at address `a`. -/
def State.watched (s : State) (a : Nat) : Bool :=
  (List.range 64).any fun w =>
    s.bit (A.mgsWatchBase w) F.mgsWatchBase_en
      && decide (4 * s.fld (A.mgsWatchBase w) F.mgsWatchBase_base ≤ a ∧ a ≤ 4 * s.fld (A.mgsWatchLim w) F.mgsWatchLim_limit)

/-- Whether a write of master m is one of the lamp room's restore writes (R538): those it makes before READY. -/
def State.restoring (s : State) (m : Nat) : Bool := decide (m = 4) && !s.bit A.mgsCtrl F.mgsCtrl_ready

/-- A completed write of master m to address `a` passes the watch ranges. -/
def State.watchWrite (s : State) (m a : Nat) : State :=
  if s.restoring m || !s.watched a || s.mgs.watch.contains a then s
  else if 64 ≤ s.mgs.watch.length then (s.event A.mgsStatus F.mgsStatus_watchovf).report 19 0
  else (s.modMgs fun g => { g with watch := g.watch ++ [a] }).showWatch

/-- A write to MGS_WQPOP. -/
def State.popWritten (s : State) (w : Word) : State :=
  if F.mgsWqpop_pop.get w = 1 then (s.modMgs fun g => { g with watch := g.watch.drop 1 }).showWatch else s

/-- A restore write that raised a bus error is skipped and counted (R538). -/
def State.skipRestore (s : State) : State :=
  (s.satInc A.mgsCfgskip F.mgsCfgskip_count).event A.mgsStatus F.mgsStatus_cfgskip

/-- The blocks whose registers the lamp room restores (R588): SUP, FLT, EVR, the field blocks, TRP, OUT, PNL and NET. -/
def restoreBlock (a : Nat) : Bool :=
  decide ((0x00010000 ≤ a ∧ a < 0x00020000) ∨ (0x00030000 ≤ a ∧ a < 0x00040000) ∨ (0x00050000 ≤ a ∧ a < 0x00060000)
    ∨ (0x00100000 ≤ a ∧ a < 0x00200000) ∨ (0x00300000 ≤ a ∧ a < 0x00600000))

/-- A restore write to the register at `a` completed: the first brings stage 4 of the start-up (R587, R588, DEDUCED,
assumption 163). -/
def State.configStage (s : State) (a : Nat) : State :=
  if restoreBlock a && decide (s.stage' = 3) then s.setStage 4 else s

/-! ## SAVE (R537) -/

/-- A write to MGS_CFGJ_CMD: with SAVE 1, N words are journaled as one register-set record. -/
def State.saveWritten (s : State) (w : Word) : State :=
  if F.mgsCfgjCmd_save.get w = 1 then
    let n := F.mgsCfgjCmd_n.get w
    let a := 4 * s.fld A.mgsCfgjAddr F.mgsCfgjAddr_addr
    let word (i : Nat) : Word := if s.readable 4 (a + 4 * i) then s.view 4 (a + 4 * i) else 0
    let r : JRec := ⟨0x30, 1, n, 0, 0, s.tbc, BitVec.ofNat 32 a :: (List.range n).map word⟩
    (s.offer ⟨4, .save, [r]⟩).setBit A.mgsCfgjState F.mgsCfgjState_busy true
  else s

/-! ## Sensors (R539) -/

/-- A temperature of sensor k against WARN and ALARM, each flag once per crossing. -/
def State.checkTemp (s : State) (k : Nat) (t : BitVec 16) : State :=
  let warm := decide (256 * (s.fld A.mgsTlim F.mgsTlim_warn : Int) ≤ t.toInt)
  let hot := decide (256 * (s.fld A.mgsTlim F.mgsTlim_alarm : Int) ≤ t.toInt)
  let s := if warm && !s.mgs.warm.contains k then (s.event A.mgsStatus F.mgsStatus_tempwarn).report 16 k else s
  let s := if hot && !s.mgs.hot.contains k then (s.event A.mgsStatus F.mgsStatus_tempalarm).report 17 k else s
  s.modMgs fun m => { m with
    warm := if warm then k :: m.warm.erase k else m.warm.erase k
    hot := if hot then k :: m.hot.erase k else m.hot.erase k }

/-- The reading of monitored rail r, 3 to 6, against ±5 % of its nominal value in mV. -/
def State.checkRail (s : State) (r v : Nat) : State :=
  let nominal := [5000, 3300, 1800, 900].getD (r - 3) 0
  let out := decide (100 * v < 95 * nominal) || decide (105 * nominal < 100 * v)
  let s := if out && !s.mgs.railOut.contains r then (s.event A.mgsStatus F.mgsStatus_rail).report 18 (60 + r) else s
  s.modMgs fun m => { m with railOut := if out then r :: m.railOut.erase r else m.railOut.erase r }

/-- SENSOR_SAMPLE (R539): die temperatures, switch temperatures and voltages in the order of *Table: Lamp room sensors*,
and the field buck's voltage and current. A sensor's number is its place in that table. -/
def execSensorSample (temps tsw vmon : List (BitVec 16)) (vfld ifld : BitVec 16) (s : State) : Out :=
  let s := (List.range 12).foldl
    (fun s k => (s.setFld (A.mgsTemp k) F.mgsTemp_temp (temps.getD k 0).toNat).checkTemp k (temps.getD k 0)) s
  let s := (List.range s.terms).foldl
    (fun s n => (s.setFld (A.mgsTsw n) F.mgsTsw_temp (tsw.getD n 0).toNat).checkTemp (12 + n) (tsw.getD n 0)) s
  let s := (List.range 7).foldl
    (fun s r =>
      let v := (vmon.getD r 0).toNat
      let s := s.setFld (A.mgsVmon r) F.mgsVmon_value v
      if r < 3 then s else s.checkRail r v) s
  let s := (s.setFld A.supVin F.supVin_vina (vmon.getD 0 0).toNat).setFld A.supVin F.supVin_vinb (vmon.getD 1 0).toNat
  let s := s.setFld A.supHold F.supHold_hold (vmon.getD 2 0).toNat
  .next (
    if s.bit A.supState F.supState_fldext then s
    else (s.setFld A.supFld F.supFld_vfld vfld.toNat).setFld A.supFld F.supFld_ifld ifld.toNat)

/-! ## Operating seconds and power cycles (R540) -/

/-- The live node record: its operating seconds and power cycles. -/
def State.nodeLive (s : State) : Nat × Nat :=
  match s.jnl.index.find? fun e => e.kind == 0x31 with
  | none => (0, 0)
  | some e => (leAt (s.payloadOf e) 0 8, leAt (s.payloadOf e) 8 4)

/-- NODE_RECORD (R540): the first one after a start loads both counts and adds a power cycle. -/
def execNodeRecord (s : State) : Out :=
  .next (
    if !s.mgs.running then s
    else if s.mgs.nodeLoaded then
      if s.mgs.nodeAt + 360 ≤ s.pair A.mgsOpsecsLo then s.postNode else s
    else
      let x := s.nodeLive
      let s := (s.setPair A.mgsOpsecsLo (x.1 % 2 ^ 48)).setReg A.mgsCycles (BitVec.ofNat 32 (x.2 + 1))
      (s.modMgs fun m => { m with nodeLoaded := true }).postNode)

/-! ## Host commands (R390, R391) -/

/-- A write to MGS_HCMD by master m queues one ring-113 record. -/
def State.hcmdWritten (s : State) (m : Nat) (w : Word) : State :=
  let arg := s.reg A.mgsHcmdArg
  let r : InRec := ⟨113, 0x90, F.mgsHcmd_code.get w, ⟨BitVec.ofNat 32 (F.mgsHcmd_subject.get w), .good⟩, 1, s.tbc,
    [BitVec.ofNat 64 (arg.toNat * 2 ^ 32 + m)], 11, false, false⟩
  (s.send r).setFld A.mgsHcmdState F.mgsHcmdState_pending (s.fld A.mgsHcmdState F.mgsHcmdState_pending + 1)

/-- Whether a write of MGS_HCMD is permitted by the queue, the image and the codes (R390). -/
def State.hcmdOk (s : State) (w : Word) : Bool :=
  let code := F.mgsHcmd_code.get w
  let subj := F.mgsHcmd_subject.get w
  decide (s.fld A.mgsHcmdState F.mgsHcmdState_pending < 16) &&
    match s.image with
    | none => false
    | some im =>
      if code = 1 then decide (subj < im.nalm)
      else if code = 2 then decide (subj < im.ngrp)
      else if code = 3 ∨ code = 4 ∨ code = 5 then decide (subj < im.nzone)
      else decide (0x10 ≤ code)

/-- The tally has taken a host command from the queue (R391). -/
def State.hcmdPosted (s : State) (r : InRec) : State :=
  if r.ring = 113 ∧ r.kind = 0x90 ∧ r.island = 11 then
    (s.satInc A.mgsHcmdState F.mgsHcmdState_posted).setFld A.mgsHcmdState F.mgsHcmdState_pending
      (s.fld A.mgsHcmdState F.mgsHcmdState_pending - 1)
  else s

end Sys2Proof.Machine
end

