-- ==== Sys2Proof/Machine/UpdateIns.lean ====
section
/-! DEFINITION. Commands of the update engine, the steps of an activation, the restoring of keep memory, and the key fuses
(R330, R395 to R399, R543 to R550). -/

namespace Sys2Proof.Machine

/-! ## Keep memory at an activation (R330, R395 to R397) -/

/-- A store of keep words. -/
abbrev KeepMap := List (Nat × TWord)

/-- Word `a` of a keep store. -/
def KeepMap.at_ (m : KeepMap) (a : Nat) : TWord := sget TWord.zero m a

/-- Word `a` of a keep store set. -/
def KeepMap.put (m : KeepMap) (a : Nat) (v : TWord) : KeepMap := sput TWord.zero m a v

/-- Word `a` with another value and the tag it has. -/
def KeepMap.putVal (m : KeepMap) (a n : Nat) : KeepMap := m.put a ⟨BitVec.ofNat 32 n, (m.at_ a).tag⟩

/-- The 64-bit value at words `a` and `a + 1` set, each word with the tag it has. -/
def KeepMap.putPair (m : KeepMap) (a n : Nat) : KeepMap := (m.putVal a n).putVal (a + 1) (n / 2 ^ 32)

/-- The value of word `a`. -/
def KeepMap.val (m : KeepMap) (a : Nat) : Nat := (m.at_ a).val.toNat

/-- KEEPINIT written over keep memory of 0, GOOD (R330). -/
def Image.keepStart (im : Image) : KeepMap :=
  im.keepInit.foldl (fun m x => sputs TWord.zero m x.addr (x.vals.map fun v => ⟨v, x.tag⟩)) []

/-- Words of a record, from the j-th payload word on, written at `base` plus each offset with their tags in TAGS. -/
def KeepMap.putRec (m : KeepMap) (base : Nat) (offs : List Nat) (tags : Nat) (ws : List Word) : KeepMap :=
  ((offs.zip ws).zipIdx).foldl (fun m x => m.put (base + x.1.1) ⟨x.1.2, Tag.ofCode (tags / 4 ^ x.2)⟩) m

/-- Whether a live record of the alarm model is restored into the image (R331, R395). -/
def Image.restores (im : Image) (e : IndexEntry) (b : List Byte) : Bool :=
  match e.kind with
  | 0x01 => decide (e.subj < im.nalm)
  | 0x02 => decide (e.subj < im.ngrp)
  | 0x03 => decide (e.subj < im.nzone)
  | 0x04 => decide (e.ext = im.lineage) && decide (e.subj + 8 ≤ 32768)
  | 0x10 => decide (e.ext = im.lineage) && im.restore.getLsbD e.subt && decide (e.subj + leAt b 2 1 ≤ 32768)
  | _ => false

/-- A record written into keep memory (R309, R396). -/
def Image.restoreOne (im : Image) (m : KeepMap) (e : IndexEntry) (b : List Byte) : KeepMap :=
  let ws := bytesWords b
  match e.kind with
  | 0x01 => m.putRec (im.abase + 8 * e.subj) [1, 5, 6, 7] (leAt b 0 4) (ws.drop 1)
  | 0x02 => m.putRec (im.gbase + 16 * e.subj) [1, 2, 4, 5, 6, 7, 8, 9] (leAt b 0 4) (ws.drop 1)
  | 0x03 => m.putRec (im.zbase + 16 * e.subj) [4, 5, 6, 7, 8, 9] (leAt b 0 4) (ws.drop 1)
  | 0x04 =>
    let m := m.putRec e.subj [4, 5, 6] (leAt b 4 4) (ws.drop 2)
    let m := [0, 1, 2, 3].foldl (fun m o => m.put (e.subj + o) TWord.zero) m
    m.put (e.subj + 7) ⟨BitVec.ofNat 32 (leAt b 8 4), .good⟩
  | 0x10 => m.putRec e.subj (List.range (leAt b 2 1)) (leAt b 4 4) (ws.drop 2)
  | _ => m

/-- A restored alarm's timer: RUN 0, IN as OUT, TSTAMP 0 (R397). -/
def Image.adjustAlarm (im : Image) (m : KeepMap) (a : Nat) : KeepMap :=
  let k := im.abase + 8 * a
  let t := m.val (k + 1)
  let m := m.putVal (k + 1) (t / 8 * 8 + t / 2 % 2 * 3)
  (m.put (k + 2) TWord.zero).put (k + 3) TWord.zero

/-- Whether alarm a is a member of group g (R298). -/
def Image.inGroup (im : Image) (m : KeepMap) (g a : Nat) : Bool :=
  let c := m.val (im.abase + 8 * a + 4)
  decide (c / 2 ^ 14 % 2 = 1) && decide (c % 64 = g)

/-- A group's counts, first-up and suppression release (R397). -/
def Image.adjustGroup (im : Image) (m : KeepMap) (g : Nat) : KeepMap :=
  let k := im.gbase + 16 * g
  let mine := (List.range im.nalm).filter (im.inGroup m g)
  let count (b : Nat) : Nat := (mine.filter fun a => m.val (im.abase + 8 * a + 5) / 2 ^ b % 2 = 1).length
  let act := count 1
  let un := count 2
  let st := m.val (k + 1)
  let first := m.val (k + 2) % 1024
  let lost := decide (act = 0 ∧ un = 0) || !mine.contains first
  let valid := if lost then 0 else st / 2 ^ 31 % 2
  let rel := st / 2 ^ 30 % 2
  let inh := if rel = 1 then 1 else st / 2 ^ 29 % 2
  let st' := valid * 2 ^ 31 + inh * 2 ^ 29 + st / 2 ^ 27 % 4 * 2 ^ 27 + un % 2048 * 2 ^ 16
    + st / 2 ^ 11 % 32 * 2 ^ 11 + act % 2048
  let m := m.putVal (k + 1) st'
  if lost && decide (first < im.nalm) then
    let x := im.abase + 8 * first + 5
    let v := m.val x
    m.putVal x (v - v / 16 % 2 * 16)
  else m

/-- An open call's ZDUE is at most the restore tick (R397). -/
def Image.adjustZone (im : Image) (m : KeepMap) (rt z : Nat) : KeepMap :=
  let k := im.zbase + 16 * z
  if m.val (k + 4) % 2 = 1 then
    m.putPair (k + 6) (Nat.min (m.val (k + 6) + 2 ^ 32 * m.val (k + 7)) rt)
  else m

/-- The live records of the alarm model, in the order in which they are restored (R396). -/
def State.modelRecords (s : State) : List (IndexEntry × List Byte) :=
  [0x01, 0x02, 0x03, 0x04, 0x10].flatMap fun k =>
    (s.jnl.index.filter fun e => e.kind == k).map fun e => (e, s.payloadOf e)

/-- Keep memory of an image as the lamp room restores it (R396, R397). -/
def State.restoredKeep (s : State) (im : Image) : KeepMap :=
  let rs := s.modelRecords.filter fun x => im.restores x.1 x.2
  let m := rs.foldl (fun m x => im.restoreOne m x.1 x.2) im.keepStart
  let m := (rs.filter fun x => x.1.kind = 0x01).foldl (fun m x => im.adjustAlarm m x.1.subj) m
  let m := (List.range im.ngrp).foldl im.adjustGroup m
  (List.range im.nzone).foldl (fun m z => im.adjustZone m s.tbc.toNat z) m

/-- The restore report (R399). -/
def State.restoreReport (s : State) : InRec :=
  let rs := s.modelRecords.filter fun x => match s.image with
    | none => false
    | some im => im.restores x.1 x.2
  let count (k : Nat) : Nat := (rs.filter fun x => x.1.kind = k).length
  let p1 := count 0x02 % 65536 + count 0x03 % 65536 * 2 ^ 16 + count 0x04 % 65536 * 2 ^ 32 + count 0x10 % 65536 * 2 ^ 48
  let p2 := s.modelRecords.length - rs.length + s.nodeLive.2 * 2 ^ 32
  ⟨111, 0x71, 1, ⟨BitVec.ofNat 32 (count 0x01), .good⟩, 2, s.tbc, [BitVec.ofNat 64 p1, BitVec.ofNat 64 p2], 11, false,
    false⟩

/-- The lamp room has restored keep memory in the three lanes (R263, R396). -/
def State.writeKeep (s : State) : State :=
  match s.image with
  | none => s
  | some im =>
    let m := s.restoredKeep im
    { s with lanes := s.lanes.map fun ln => { ln with keep := m } }

/-! ## Steps of an activation (R548) -/

/-- Whether every lane reads stopped for the update engine: the tally releases nothing, the last released frame has been voted and handed on, and
every group handed on from it has been programmed or refused. -/
def State.lanesStopped (s : State) : Bool :=
  (s.frame.held || !s.frame.running) && s.tly.inFrame.isEmpty && s.tly.handOn.isEmpty && s.tly.groups.isEmpty
    && (s.jnl.offered.all fun g => g.writer != 3) && (s.jnl.caddy.all fun x => x.2.writer != 3)

/-- LANE of lane l in LN_STATE and TLY_STATE: 0 stopped, 1 running, 2 rejoining, 3 retired (R361). -/
def State.setLaneState (s : State) (l n : Nat) : State :=
  (s.setFld (A.lnState l) F.lnState_lane n).setFld A.tlyState ⟨17 + 2 * l, 16 + 2 * l⟩ n

/-- ACTIVATION_LANES_STOPPED (R548, step 3): the lanes that are not retired read stopped. -/
def execActivationLanesStopped (s : State) : Out :=
  .next (
    match s.upd.act with
    | none => s
    | some a =>
      if a.kind = 1 ∧ a.step = 3 ∧ s.lanesStopped then
        let s := (List.range 3).foldl
          (fun s l => if s.fld (A.lnState l) F.lnState_lane = 3 then s else s.setLaneState l 0) s
        s.setAct (some { a with step := 4 })
      else s)

/-- STAGE 5 of a start (R587). -/
def State.lanesStage (s : State) : State := if s.stage' = 3 ∨ s.stage' = 4 then s.setStage 5 else s

/-- CODE_LOAD_DONE (R548, step 4): `agree` where each lane's code digest equals that of the CODE words. -/
def execCodeLoadDone (agree : Bool) (s : State) : Out :=
  .next (
    match s.upd.act with
    | some a =>
      if a.kind = 1 ∧ a.step = 4 then
        match s.nextImage with
        | none => s
        | some im =>
          if agree then ((s.loadCode im).lanesStage).setAct (some { a with step := 5 }) else s.fallBack a
      else s
    | none =>
      match s.upd.load, s.nextImage with
      | some k, some im =>
        if agree then (s.loadCode im).lanesStage
        else (s.modUpd fun u => { u with load := none }).fallBack ⟨1, k, false, 4, false, false, false⟩
      | _, _ => s)

/-- The closing record of a lane activation is handed on, unless it has been (R548, step 6). -/
def State.closeAct (s : State) (a : Activation) : State :=
  if a.committed then s.setAct (some { a with step := 7 })
  else if a.posted then s.setAct (some { a with step := 6 })
  else (s.offerAct a.slot (if a.rollback then 3 else 2)).setAct (some { a with step := 6, posted := true })

/-- The restore report waits for the first release after a start (R399). -/
def State.noteRestore (s : State) : State :=
  if s.frame.running then s
  else { s with tly := { s.tly with restore := [s.restoreReport] } }

/-- KEEP_WRITE_DONE (R548, step 5): the lamp room has written keep memory, `ok` where it could. -/
def execKeepWriteDone (ok : Bool) (s : State) : Out :=
  .next (
    match s.upd.act with
    | some a =>
      if a.kind = 1 ∧ a.step = 5 then
        if ok then (s.noteRestore.writeKeep).closeAct a else s.fallBack a
      else s
    | none =>
      if s.frame.running then s
      else
        match s.upd.load with
        | none => s.noteRestore
        | some k =>
          if s.image.isNone then s
          else if ok then (s.noteRestore.writeKeep).modUpd fun u => { u with load := none }
          else (s.modUpd fun u => { u with load := none }).fallBack ⟨1, k, false, 5, false, false, false⟩)

/-- A record of an activation has committed (R547 to R549). -/
def State.actCommitted (s : State) (subj phase : Nat) : State :=
  match s.upd.act with
  | none =>
    -- a rollback record of the boot ROM (R549)
    if phase = 3 then (s.event A.updStatus F.updStatus_rolledback).report 74 0 else s
  | some a =>
    if a.kind ≠ subj then s
    else if phase = 1 then
      if subj = 1 then s.setAct (some { a with step := 3 })
      else ((s.setBit A.updState F.updState_trial true).setAct (some { a with step := 7 })).lampRoomReset true
    else if subj = 1 then
      let s := s.makeActive a.slot
      s.setAct (some { a with committed := true, step := if a.step = 6 then 7 else a.step })
    else
      let s := ((s.makeActive a.slot).setBit A.updState F.updState_trial false).setAct none
      if phase = 3 then (s.event A.updStatus F.updStatus_rolledback).report 74 0
      else s.event A.updStatus F.updStatus_activated

/-- A record of an activation has been refused by the journal: a prepare record ends the activation, any other is handed on
again. -/
def State.actRefused (s : State) (subj phase : Nat) : State :=
  match s.upd.act with
  | none => s.offerAct (s.bootChoice) phase
  | some a =>
    if a.kind ≠ subj then s
    else if phase = 1 then
      ({ s with nextImage := none }.setAct none).event A.updStatus F.updStatus_actrefused
    else s.offerAct a.slot phase

/-- The first frame after a lane activation is released (R548, step 7). -/
def State.actReleased (s : State) : State :=
  match s.upd.act with
  | none => s
  | some a =>
    if a.kind = 1 ∧ a.step = 7 then
      let s := s.setAct none
      if a.rollback then (s.event A.updStatus F.updStatus_rolledback).report 74 0
      else s.event A.updStatus F.updStatus_activated
    else s

/-- TRIAL_EXPIRY (R549): the boot ROM rolls back. -/
def execTrialExpiry (s : State) : Out :=
  .next (
    match s.upd.act with
    | none => s
    | some a => if a.kind = 2 ∧ 2 < a.step ∧ ¬a.posted then s.lampRoomReset false else s)

/-! ## Registers of the update engine -/

/-- A write to UPD_CMD by master m, whose OP and KIND are permitted (R543, R547, R549). -/
def State.updCmdWritten (s : State) (m : Nat) (w : Word) : State :=
  let kind := F.updCmd_kind.get w
  match F.updCmd_op.get w with
  | 1 =>
    let n := (s.reg A.updLen).toNat
    (match s.openCause kind n with
     | some why => (s.setXfer 7).setFld A.updState F.updState_reason why
     | none => s.openXfer kind n m none 0)
  | 2 => match s.upd.xfer with
    | none => s
    | some x => if x.assoc.isNone then s.closeXfer x else s
  | 3 => match s.upd.xfer with
    | none => s
    | some x => if x.assoc.isNone then s.endXfer x else s
  | 4 => s.activate kind false
  | 5 => s.activate kind true
  | _ => match s.upd.act with
    | none => s
    | some a =>
      if a.kind = 2 ∧ 2 < a.step ∧ ¬a.posted then
        (s.offerAct a.slot (if a.rollback then 3 else 2)).setAct (some { a with posted := true })
      else s

/-- Whether a write to UPD_DATA by master m is taken (R543). -/
def State.updDataOk (s : State) (m : Nat) : Bool :=
  match s.upd.xfer with
  | none => false
  | some x => x.assoc.isNone && decide (x.master = m) && decide (x.phase = 2) && decide (x.next + 4 ≤ x.length)

/-- A write to UPD_DATA. -/
def State.updDataWritten (s : State) (w : Word) : State :=
  match s.upd.xfer with
  | none => s
  | some x => s.xferData x (wordBytes w)

/-- A write to UPD_KEYCMD (R546). -/
def State.keyWritten (s : State) (w : Word) : State :=
  if F.updKeycmd_key.get w = 0xF05E then
    s.modUpd fun u => { u with key := some ((List.range 8).map fun j => s.reg (A.updKeystg j)), keyBusy := true }
  else s

/-- KEY_PROGRAMMING_DONE (R546). -/
def execKeyProgrammingDone (s : State) : Out :=
  .next (
    if s.upd.keyBusy then
      (s.modUpd fun u => { u with keyBusy := false }).event A.updStatus F.updStatus_keyprog
    else s)

end Sys2Proof.Machine
end

