-- ==== Sys2Proof/Machine/JournalIns.lean ====
section
/-! DEFINITION. The journal's own steps: acceptance, commit, compaction, erasure, and the end of recovery with the start of
the timebase (R410 to R427, R434, R550, R583). -/

namespace Sys2Proof.Machine

/-! ## Telling the writers (R411, R435) -/

/-- Ring 109 tells a thread of its group: VALUE and AUX of *R411*. -/
def State.tellLane (s : State) (thread v aux : Nat) : State :=
  s.send (mkRec 109 0x50 thread ⟨BitVec.ofNat 32 v, .good⟩ aux s.tbc 8)

/-- The writer of a group is told that it has committed; `q` is the SEQ of its last record. -/
def State.tellCommit (s : State) (o : JOrigin) (q : Nat) : State :=
  match o with
  | .lane t told => if told then s.tellLane t q 0 else s
  | .master m =>
    let s := (s.setResult m 0).setReg (bank m A.jnlWseq) (BitVec.ofNat 32 q)
    if m = 4 then s.pendInterrupt 7 else s
  | .save => (s.setBit A.mgsCfgjState F.mgsCfgjState_busy false).setFld A.mgsCfgjState F.mgsCfgjState_result 0
  | .intent => s.intentCommitted
  | .activation subj phase => s.actCommitted subj phase
  | .compBegin => s.beganCopying
  | .compEnd => s.beganErasing
  | .out | .ledger | .stress | .node => s

/-- The writer of a group is told that it has been refused. -/
def State.tellRefusal (s : State) (o : JOrigin) : State :=
  match o with
  | .lane t told => if told then s.tellLane t 0 1 else s
  | .master m =>
    let s := s.setResult m 1
    if m = 4 then s.pendInterrupt 7 else s
  | .save => (s.setBit A.mgsCfgjState F.mgsCfgjState_busy false).setFld A.mgsCfgjState F.mgsCfgjState_result 1
  | .intent => s.intentRefused
  | .activation subj phase => s.actRefused subj phase
  | .out | .ledger | .stress | .node | .compBegin | .compEnd => s

/-- JOURNAL_GROUP_ACCEPT (R414): the first group at the crossings enters the caddy, is refused, or waits for room. -/
def execJournalGroupAccept (s : State) : Out :=
  .next (
    match s.jnl.offered with
    | [] => s
    | g :: t =>
      if s.jnlPhase = 0 then s
      else
        let rest := s.modJnl fun j => { j with offered := t }
        (match s.verdict g with
         | .wait => s
         | .accept => rest.enterCaddy g
         | v => (rest.countRefused v).tellRefusal g.origin))

/-- The recorder's IMAGE events of a committed group (R436). -/
def State.imageEvents (s : State) (g : JGroup) : State :=
  (g.recs.filter fun r => r.kind = 0x50).foldl (fun s r => s.evrEvent 6 (r.subj % 256 * 256 + r.subt) 0 s.tbc) s

/-- GROUP_COMMIT (R411, R434): the first group of the caddy has been programmed, `verified` where each word was. -/
def execGroupCommit (verified : Bool) (s : State) : Out :=
  .next (
    match s.jnl.caddy with
    | [] => s
    | (q, g) :: t =>
      match s.placeGroup (wordUp g.len) q with
      | none => s
      | some (s, a) =>
        if verified then
          let s := ((s.programGroup g q a).modJnl fun j => { j with caddy := t }).showCaddy
          (s.imageEvents g).tellCommit g.origin (q + g.recs.length - 1)
        else s.programFailed a)

/-! ## Compaction (R424 to R427) -/

/-- COMPACTION_START (R424): its begin record enters the caddy. -/
def execCompactionStart (s : State) : Out :=
  .next (
    let vs := s.victims
    if (s.jnlPhase = 1 ∨ s.jnlPhase = 3) ∧ s.jnl.comp.step = .idle ∧ s.compactionDue ∧ vs ≠ [] then
      let num := (s.jnl.comp.num + 1) % 65536
      let s := (s.modComp fun _ => ⟨.begun, num, vs.map fun x => x.1, s.tbc, [], true⟩).modJnl
        fun j => { j with compAsked := false }
      s.enterCaddy ⟨0x1F, .compBegin, [s.internalRec 0xF1 (beginPayload num vs)]⟩
    else s)

/-- COMPACTION_COPY_END (R425, step 3): the copies stand in their segments, and the end record enters the caddy. -/
def execCompactionCopyEnd (s : State) : Out :=
  .next (
    if s.jnl.comp.step = .copying ∧ s.jnlPhase ≠ 2 then
      let rs := s.toCopy s.jnl.comp.victims
      match s.planCopies s.jnlSeq rs none with
      | none => s
      | some (t, ps) =>
        let ks := (t.jnl.segs.map fun x => x.1).filter fun k => !(s.jnl.segs.any fun x => x.1 == k)
        let t := (State.programCopies s t ks rs ps).modComp
          fun c => { c with step := .ended, copies := ps.map fun p => (p.1, p.2.2) }
        let bs := rs.flatMap fun r => s.storedAt r.2.1 r.2.2
        let p := bytesWords (le 2 t.jnl.comp.num ++ le 2 0 ++ le 4 rs.length ++ le 4 bs.length ++ wordBytes (crc32c bs))
        t.enterCaddy ⟨0x1F, .compEnd, [t.internalRec 0xF2 p]⟩
    else s)

/-- A journal that was FULL runs again once a segment is free beside the reserve (R418). -/
def State.leaveFull (s : State) : State :=
  if s.jnlPhase = 3 ∧ s.openable ≠ 0 then s.setFld A.jnlState F.jnlState_phase 1 else s

/-- The first segment that awaits erasure is done with. -/
def State.victimDone (s : State) (k : Nat) : State :=
  let s := s.modJnl fun j => { j with retry := false, segs := j.segs.filter fun x => x.1 != k }
  let s := ((s.modComp fun c => { c with victims := c.victims.drop 1 }).showSegs).leaveFull
  if s.jnl.comp.victims.isEmpty then s.compactionEnded else s

/-- SEGMENT_ERASE_END (R402, R425, R434): `ok` where the erasure succeeded; one that fails is retried once. -/
def execSegmentEraseEnd (ok : Bool) (s : State) : Out :=
  .next (
    match s.jnl.comp.victims with
    | [] => s
    | k :: _ =>
      if s.jnl.comp.step = .erasing ∧ s.jnlPhase ≠ 0 ∧ s.jnlPhase ≠ 2 then
        if ok then (s.eraseSegment k).victimDone k
        else
          let s := s.flashError (k * 65536)
          if s.jnl.retry then (s.showSeg k 6).victimDone k
          else s.modJnl fun j => { j with retry := true }
      else s)

/-! ## The end of recovery (R423, R550, R583) -/

/-- TBC starts above every stamp of the journal (R583). -/
def State.startTbc (s : State) : State :=
  let n := (s.pair A.jnlMaxstampLo / second + 2) * second
  let t := BitVec.ofNat 64 n
  let s := { s with
    tbc := t
    rtc := { s.rtc with secondAt := s.rtc.secondAt + t }
    mgs := { s.mgs with secondAt := t } }
  ((s.setPair A.tmbStartLo n).setBit A.tmbState F.tmbState_tbcrun true).event A.tmbStatus F.tmbStatus_tbcstart

/-- The kept state of each leader, from the latest output-state record that names it (R376, R419). -/
def State.readKept (s : State) : State :=
  let es := (s.jnl.index.filter fun e => e.kind = 0x20).mergeSort fun a b => decide (b.seq ≤ a.seq)
  let latest (n : Nat) : Option IndexEntry := es.find? fun e => e.leaders.getLsbD n
  let bits (p : Nat → Bool) : BitVec 48 := BitVec.ofNat 48 (((List.range 48).filter p).foldl (fun m n => m + 2 ^ n) 0)
  let valid := bits fun n => (latest n).isSome
  let on := bits fun n => match latest n with
    | none => false
    | some e => decide (leAt (s.payloadOf e) 8 8 / 2 ^ n % 2 = 1)
  s.modField fun f => { f with keptValid := valid, keptOn := on }

/-- SUBT of an activation record: 1 prepare, 2 commit, 3 rollback. -/
def State.actPhase (s : State) (e : IndexEntry) : Nat := leAt (s.storedAt e.at_ 24) 14 1

/-- The management slot of a start, loaded by the boot ROM (R531, R550). -/
def State.startManagement (s : State) : State :=
  match s.actRecord 2 with
  | none => (s.makeActive 2).bootFrom 2
  | some e =>
    let k := s.recSlot 2 e
    if s.actPhase e = 1 then s.rollBackTo (otherSlot k) else (s.makeActive k).bootFrom k

/-- The lane image of a start (R550): loaded, an activation resumed at step 4, or none. -/
def State.startLane (s : State) : State :=
  match s.actRecord 1 with
  | none => s
  | some e =>
    let k := s.recSlot 1 e
    let im := parseImage (s.slotImage k)
    if s.slotState k ≠ 2 then
      if s.actPhase e = 1 then s.fallBack ⟨1, k, false, 4, false, false, false⟩ else s.noImage
    else if s.actPhase e = 1 then
      { s with nextImage := some im }.setAct (some ⟨1, k, false, 4, false, false, false⟩)
    else ({ s with nextImage := some im }.makeActive k).modUpd fun u => { u with load := some k }

/-- RECOVERY_DONE (R423, R583): recovery took `ms` milliseconds, and TBC starts `boot` milliseconds after power good. -/
def execRecoveryDone (ms boot : BitVec 16) (s : State) : Out :=
  .next (
    if s.jnlPhase ≠ 0 ∨ s.jnl.found.isNone ∨ s.heldReset then s
    else
      let s := (s.endRecovery ms.toNat).startTbc
      let s := if s.shed then s.jnlPowerFail else s
      let s := ((List.range 4).foldl State.verifyAtStart s).readKept
      let s := s.startManagement.startLane
      let s := s.evrEvent 3 (s.fld A.supReset F.supReset_cause) 0 s.tbc
      (s.modSup fun p => { p with bootMs := boot.toNat }).setStage 3)

end Sys2Proof.Machine
end

