-- ==== Sys2Proof/Machine/Tally.lean ====
section
/-! DEFINITION. The tally at a seam: the decision on the frame's lanes, the vote on their transactions, split frames,
out-votes and retirement, and what else a frame seam does (R314, R317, R339 to R357). -/

namespace Sys2Proof.Machine

/-- The state with the tally changed. -/
def State.modTly (s : State) (g : Tally → Tally) : State := { s with tly := g s.tly }

/-- LN_STATE.LANE of lane l: 0 stopped, 1 running, 2 rejoining, 3 retired. -/
def State.laneState (s : State) (l : LaneId) : Nat := s.fld (A.lnState l.val) F.lnState_lane

/-- The lanes in order. -/
def allLanes : List LaneId := [0, 1, 2]

/-! ## Mode and the windows of out-votes -/

/-- Whether the tally is split (R356). -/
def State.isSplit (s : State) : Bool := decide (s.fld A.tlyState F.tlyState_mode = 2)

/-- TLY_STATE.MODE: split stays; duplex while a lane is retired, is repaired or sits a frame out. -/
def State.showMode (s : State) : State :=
  if s.isSplit then s
  else
    s.setFld A.tlyState F.tlyState_mode
      (if s.tly.repair.isSome || !s.tly.excluded.isEmpty || (allLanes.any fun l => s.laneState l == 3) then 1 else 0)

/-- Frames of a history that lie within the 1,000 frames up to frame k. -/
def recentFrames (k : Nat) (h : List Nat) : List Nat := h.filter fun f => decide (k < f + 1000)

/-- TLY_LANEn.WIN and TLY_VOTERv.WIN as they stand at frame k (R355, R360). -/
def State.showWindows (s : State) (k : Nat) : State :=
  let n (h : List (List Nat)) (i : Nat) : Nat := Nat.min 3 (recentFrames k (h.getD i [])).length
  (List.range 3).foldl
    (fun s i => (s.setFld (A.tlyLane i) F.tlyLane_win (n s.tly.history i)).setFld
      (A.tlyVoter i) F.tlyVoter_win (n s.tly.voterHistory i)) s

/-! ## Out-votes, retirement and repair (R351 to R355) -/

/-- An event of TLY_STATUS with its recorder event (R436). -/
def State.tallyEvent (s : State) (flag : Fld) (lane : Nat) (f : Stamp) : State :=
  (s.event A.tlyStatus flag).evrEvent 4 (flag.lo * 256 + lane) 0 f

/-- Lane l is out-voted for frame k with a cause of *Table: Out-vote causes* (R351). -/
def State.outVote (s : State) (l : LaneId) (cause k : Nat) (f : Stamp) : State :=
  let a := A.tlyLane l.val
  let s := ((s.satInc a F.tlyLane_total).setFld a F.tlyLane_cause cause).setReg (A.tlyLast l.val) (BitVec.ofNat 32 k)
  let s := if cause = 7 then s
    else s.modTly fun t => { t with history := t.history.modify l.val fun h => k :: h }
  let s := s.tallyEvent F.tlyStatus_outvote l.val f
  let s := if cause = 3 then s.event A.tlyStatus F.tlyStatus_late else s
  let s := if cause = 4 then s.event A.tlyStatus F.tlyStatus_drift else s
  s.raise 51 l.val 0 l.val 0 f

/-- Lane l is retired (R354, R355). -/
def State.retire (s : State) (l : LaneId) (f : Stamp) : State :=
  let s := match s.tly.repair with
    | none => s
    | some r => if r.lane = l then
        (s.modTly fun t => { t with repair := none }).setFld A.tlyState F.tlyState_donor 3 else s
  ((s.setLaneState l.val 3).tallyEvent F.tlyStatus_retired l.val f).raise 57 l.val 0 l.val 0 f

/-- Whether lane l's last out-vote is its third within 1,000 frames (R355). -/
def State.thirdOut (s : State) (l : LaneId) : Bool :=
  match s.tly.history.getD l.val [] with
  | a :: _ :: c :: _ => decide (a < c + 1000)
  | _ => false

/-- Whether the fault in force of lane l lies in its code memory (R352). -/
def State.codeFault (s : State) (l : LaneId) : Bool := (s.lane l).fault == .codeMemory

/-- What becomes of an out-voted lane: repaired from the first lane of the pair, or retired (R352, R355, R356). -/
def State.dispose (s : State) (l : LaneId) (cause : Nat) (pair : List LaneId) (split : Bool) (f : Stamp) : State :=
  match pair with
  | [] => s.retire l f
  | d :: _ =>
    if cause = 7 ∨ split ∨ s.thirdOut l then s.retire l f
    else s.modTly fun t => { t with repair := some ⟨l, d, decide (cause = 6) && s.codeFault l, none, false⟩ }

/-- A repair whose two voting lanes no longer agree is abandoned (R354). -/
def State.abandonRepair (s : State) (f : Stamp) : State :=
  match s.tly.repair with
  | none => s
  | some r => (s.event A.tlyStatus F.tlyStatus_rejoinfail).retire r.lane f

/-! ## The vote on transactions (R347, R356) -/

/-- A lane with its outbox. -/
abbrev Box := LaneId × List Txn

/-- Transactions of the longest and of the shortest outbox. -/
def longest (bs : List Box) : Nat := bs.foldl (fun n b => Nat.max n b.2.length) 0
def shortest (bs : List Box) : Nat := bs.foldl (fun n b => Nat.min n b.2.length) (longest bs)

/-- The transactions of a split frame from index i on, each with whether two lanes carry it identically (R356). -/
def splitFrom (bs : List Box) (i : Nat) : List (Txn × Bool) :=
  ((List.range (longest bs)).drop i).filterMap fun j =>
    let copies := bs.filterMap fun b => b.2[j]?
    match copies.find? fun x => decide (2 ≤ (copies.filter fun y => y = x).length), copies with
    | some x, _ => some (x, decide (j < shortest bs))
    | none, x :: _ => some (x, false)
    | none, [] => none

/-- The voted transactions of a pair or triple, the lane of a triple that differed, and whether the frame becomes a split
frame (R347). -/
structure VoteResult where
  items : List (Txn × Bool)
  odd : Option LaneId
  split : Bool
  deriving DecidableEq, Repr

/-- The vote from index i on, of at most `n` more transactions. -/
def voteFrom : Nat → Nat → List Box → VoteResult
  | 0, _, _ => ⟨[], none, false⟩
  | n + 1, i, bs =>
    let copy (b : Box) : Option Txn := b.2[i]?
    match bs with
    | [] => ⟨[], none, false⟩
    | b :: _ =>
      if bs.all fun x => decide (copy x = copy b) then
        match copy b with
        | none => ⟨[], none, false⟩
        | some x => let r := voteFrom n (i + 1) bs
          { r with items := (x, true) :: r.items }
      else
        let odd := bs.find? fun x => (bs.filter fun y => decide (copy y = copy x)).length == 1
        match decide (bs.length = 3 ∧ (bs.any fun x => 2 ≤ (bs.filter fun y => copy y = copy x).length)), odd with
        | true, some o =>
          let rest := bs.filter fun x => decide (x.1 ≠ o.1)
          let r := voteFrom n (i + 1) rest
          (match rest.head? with
           | some y => (match copy y with
             | some x => ⟨(x, true) :: r.items, some o.1, r.split⟩
             | none => ⟨[], some o.1, false⟩)
           | none => ⟨[], some o.1, false⟩)
        | _, _ => ⟨splitFrom bs i, none, true⟩

/-! ## Commit groups and limits (R314, R317, R348, R356) -/

/-- What becomes of thread t's commit group whose other members follow: 0 handed on, 1 discarded by its thread, 2
withheld. -/
def groupFate (t : Nat) : List (Txn × Bool) → Nat
  | [] => 2
  | (x, ok) :: r =>
    if x.thread ≠ t then groupFate t r
    else
      match x.body with
      | .journal _ => if ok then groupFate t r else 2
      | .groupEnd discard => if !ok then 2 else if discard then 1 else 0
      | .groupBegin => 2
      | _ => groupFate t r

/-- What a frame's vote hands on: the transactions, the threads told of a group that is not, and how many are withheld. -/
structure Sorted where
  items : List Txn
  told : List Nat
  withheld : Nat
  deriving DecidableEq, Repr

/-- One transaction sorted before the rest: handed on, dropped, or withheld. -/
def Sorted.add (r : Sorted) (x : Txn) (hand held : Bool) : Sorted :=
  { r with items := if hand then x :: r.items else r.items, withheld := r.withheld + if held then 1 else 0 }

/-- The voted transactions sorted; `open_` holds each thread's open group with its fate. -/
def sortItems : List (Nat × Nat) → List (Txn × Bool) → Sorted
  | _, [] => ⟨[], [], 0⟩
  | open_, (x, ok) :: r =>
    let fate : Option Nat := (open_.find? fun g => g.1 == x.thread).map fun g => g.2
    let closed := open_.filter fun g => g.1 != x.thread
    match x.body, fate with
    | .groupBegin, _ =>
      let n := if ok then groupFate x.thread r else 2
      let rest := sortItems ((x.thread, n) :: closed) r
      let rest := if n = 0 then rest else { rest with told := x.thread :: rest.told }
      rest.add x (decide (n = 0)) (decide (n = 2))
    | .groupEnd _, some n => (sortItems closed r).add x (decide (n = 0)) (decide (n = 2))
    | .groupEnd _, none => (sortItems closed r).add x false (!ok)
    | .journal _, some n => (sortItems open_ r).add x (decide (n = 0)) (decide (n = 2))
    | _, _ => (sortItems open_ r).add x ok (!ok)

/-- Of a frame's output commands for one leader the last is handed on (R314, R348). -/
def lastOutputs : List Txn → List Txn
  | [] => []
  | x :: r =>
    match x.body with
    | .output n _ _ =>
      if r.any fun y => match y.body with
        | .output m _ _ => m == n
        | _ => false
      then lastOutputs r else x :: lastOutputs r
    | _ => x :: lastOutputs r

/-- Counts toward *Table: Hand-on by transaction kind*: panel targets, SNX messages, calls, journal records, their bytes,
register accesses. -/
structure HandCount where
  panel : Nat
  snx : Nat
  call : Nat
  recs : Nat
  bytes : Nat
  reg : Nat
  deriving DecidableEq, Repr

/-- The counts with a transaction more, and whether it lies beyond its kind's count. -/
def HandCount.take (c : HandCount) : TxnBody → HandCount × Bool
  | .output _ _ _ => (c, false)
  | .panel _ _ _ => ({ c with panel := c.panel + 1 }, decide (64 ≤ c.panel))
  | .snxPoint _ _ => ({ c with snx := c.snx + 1 }, decide (256 ≤ c.snx))
  | .snxAlarm _ _ _ _ => ({ c with snx := c.snx + 1 }, decide (256 ≤ c.snx))
  | .snxMsg _ _ _ => ({ c with snx := c.snx + 1 }, decide (256 ≤ c.snx))
  | .call _ _ _ _ _ _ _ => ({ c with call := c.call + 1 }, decide (64 ≤ c.call))
  | .journal r =>
    ({ c with recs := c.recs + 1, bytes := c.bytes + r.len }, decide (256 ≤ c.recs ∨ 16384 < c.bytes + r.len))
  | .groupBegin => (c, decide (256 ≤ c.recs ∨ 16384 ≤ c.bytes))
  | .groupEnd _ => (c, decide (256 < c.recs ∨ 16384 < c.bytes))
  | .regRead _ _ => ({ c with reg := c.reg + 1 }, decide (128 ≤ c.reg))
  | .regWrite _ _ => ({ c with reg := c.reg + 1 }, decide (128 ≤ c.reg))

/-- The transactions with their marks. -/
def markBeyond : HandCount → List Txn → List HandOn
  | _, [] => []
  | c, x :: r => ⟨x, (c.take x.body).2⟩ :: markBeyond (c.take x.body).1 r

/-! ## The decision (R346) -/

/-- Why a lane of the frame is no good lane: a RETIRE request, a lane fault, no heartbeat, or drift (R346, R357). -/
def State.laneCause (s : State) (l : LaneId) : Option Nat :=
  if s.tly.retireReq = some l then some 7
  else if (s.lane l).fault ≠ .none then some 6
  else if (s.tly.arrived.getD l.val none).isNone then some 3
  else if s.tly.drifted.contains l then some 4
  else none

/-- The voting pair or triple of the good lanes. -/
def State.votingLanes (s : State) (g : List LaneId) : List LaneId :=
  let same (l : LaneId) : List LaneId :=
    g.filter fun m => decide (s.tly.arrived.getD m.val none = s.tly.arrived.getD l.val none)
  match g.find? fun l => decide (2 ≤ (same l).length) with
  | none => []
  | some l => same l

/-- Thread faults of the frame's lanes: one that two lanes report identically once as master 3, any other with its
lane (R256). -/
def State.tellThreadFaults (s : State) (v : List LaneId) (f : Stamp) : State :=
  (v.flatMap fun l => (s.lane l).reports.map fun r => (l, r)).foldl
    (fun s x =>
      let who := v.filter fun l => (s.lane l).reports.contains x.2
      if who.head? ≠ some x.1 then s
      else
        let m := if 2 ≤ who.length then 3 else x.1.val
        s.raise (41 + x.2.fcode) (x.2.thread + 256 * m) 0 m (BitVec.ofNat 32 (x.2.pc % 65536)) f) s

/-- A lane's full outbox is noted for the frame (R320). -/
def State.tellFull (s : State) (v : List LaneId) (f : Stamp) : State :=
  (v.filter fun l => (s.lane l).outboxFull).foldl
    (fun s l => (s.event A.tlyStatus F.tlyStatus_outboxfull).raise 53 l.val 0 l.val 0 f) s

/-- The frame is a split frame (R356). -/
def State.splitFrame (s : State) (held : Bool) (f : Stamp) : State :=
  let first := !s.isSplit
  let s := (s.setFld A.tlyState F.tlyState_mode 2).tallyEvent F.tlyStatus_split 3 f
  if first || held then (s.raise 60 0 0 0 0 f).safeOn else s

/-- The voted transactions of frame k are put in order for their destinations; groups that are not handed on are reported
in ring 109 (R317, R348, R356). -/
def State.handOver (s : State) (items : List (Txn × Bool)) (k : Nat) (f : Stamp) : State :=
  let r := sortItems [] items
  let s := s.satAdd A.tlyWithheld F.tlyWithheld_count r.withheld
  let s := r.told.foldl (fun s t => s.send (mkRec 109 0x50 t ⟨0, .good⟩ 1 f 8)) s
  let s := s.modTly fun t => { t with
    handOn := t.handOn ++ markBeyond ⟨0, 0, 0, 0, 0, 0⟩ (lastOutputs r.items)
    votedFrame := k, votedSeam := f, late := false }
  (s.setPair A.tlyVframeLo k).lastPeak A.tlyHandon F.tlyHandon_last F.tlyHandon_peak 0

/-- The decision of frame k at seam f (R346, R347, R351 to R356). -/
def State.decideFrame (s : State) (k : Nat) (f : Stamp) : State :=
  let v := s.tly.inFrame
  let box (l : LaneId) : Box := (l, (s.lane l).outbox)
  let bad := v.filterMap fun l => (s.laneCause l).map fun c => (l, c)
  let g := v.filter fun l => (s.laneCause l).isNone
  let p := if s.isSplit then [] else s.votingLanes g
  let vote : VoteResult :=
    if p.isEmpty then ⟨splitFrom (g.map box) 0, none, true⟩ else voteFrom (longest (p.map box)) 0 (p.map box)
  let digest := if p.isEmpty then [] else (g.filter fun l => !p.contains l).map fun l => (l, 1)
  let minority := match vote.odd with
    | none => []
    | some l => [(l, 2)]
  let outs := bad ++ digest ++ minority
  let pair := p.filter fun l => decide (vote.odd ≠ some l)
  let late := s.tly.excluded.map fun l => (l, 5)
  let s := (s.tellFull v f).tellThreadFaults v f
  let s := if vote.split then s.abandonRepair f else s
  let s := outs.foldl (fun s x => s.outVote x.1 x.2 k f) s
  let s := s.modTly fun t => { t with excluded := [] }
  let s := (outs ++ late).foldl (fun s x => s.dispose x.1 x.2 pair vote.split f) s
  let s := if vote.split then s.splitFrame (vote.items.any fun x => !x.2) f else s
  s.handOver vote.items k f

/-- A RETIRE request at a seam that decides no frame, or for a lane that did not run it (R357). -/
def State.retireAsked (s : State) (k : Nat) (f : Stamp) : State :=
  match s.tly.retireReq with
  | none => s
  | some l => if s.laneState l = 3 then s else (s.outVote l 7 k f).retire l f

/-! ## The seam -/

/-- The last ring-106 change of each leader in the input interval, with MORE where changes between were left out
(R377). -/
def State.flushOuts (s : State) : State :=
  (List.range 48).foldl
    (fun s n =>
      let c := s.cell n
      let s := match c.lastChange with
        | none => s
        | some (t, v) => s.sendOut n (if 3 ≤ c.changes then v + 256 else v) t
      s.modCell n fun c => { c with changes := 0, lastChange := none }) s

/-- The next seam: its number, F(k) and F(k−1); frame 0's interval begins with TBC's start (R27, R247, R589). -/
def State.nextSeam (s : State) : Option (Nat × Stamp × Stamp) :=
  match s.frame.running, s.frame.f0 with
  | true, _ => some (s.frame.k + 1, s.frame.f + BitVec.ofNat 64 s.frame.period, s.frame.f)
  | false, some f0 => some (0, f0, BitVec.ofNat 64 (s.pair A.tmbStartLo))
  | false, none => none

/-- Whether a lane activation lets no frame be released (R548). -/
def State.actHolds (s : State) : Bool :=
  match s.upd.act with
  | none => false
  | some a => decide (a.kind = 1 ∧ 3 ≤ a.step ∧ a.step ≤ 6)

/-- FRAME_SEAM (R27, R31, R156, R208, R346, R376, R377). -/
def execFrameSeam (s : State) : Out :=
  .next (
    match s.nextSeam with
    | none => s
    | some (k, f, fPrev) =>
      if s.heldReset ∨ (s.frame.running ∧ s.frame.phase ≠ .released) then s
      else
        let voted := !s.tly.inFrame.isEmpty
        let s := if voted then s.decideFrame s.frame.k f else s
        let s := ((s.retireAsked s.frame.k f).showWindows k).showMode
        let s := s.modTly fun t => { t with
          inFrame := [], sent := [none, none, none], arrived := [none, none, none], drifted := [], retireReq := none }
        let s := (s.flushOuts).outRecord f
        let s := if voted then s.modField fun x => { x with loading := false } else s
        let s := { s with
          frame := { s.frame with running := true, k := k, f := f, fPrev := fPrev, phase := .seam, held := s.actHolds }
          flt := { s.flt with notices := 0 } }
        let s := (s.setReg A.seqFrameCnt (BitVec.ofNat 32 k)).setPair A.seqNextSeamLo (f.toNat + s.frame.period)
        (List.range 8).foldl State.dedicSeam s)

end Sys2Proof.Machine
end

