-- ==== Sys2Proof/Machine/Release.lean ====
section
/-! DEFINITION. Records reaching the tally, the cut, the release of a frame, heartbeats, repair and the lanes' memory checks
(R26, R28, R241 to R260, R340 to R345, R352, R353, R357, R399). -/

namespace Sys2Proof.Machine

/-! ## Arrival and the cut (R26, R28, R340, R341) -/

/-- Ring entries of records. -/
def entriesOf (rs : List InRec) : Nat := rs.foldl (fun n r => n + r.entries) 0

/-- INPUT_ARRIVAL (R340): the first record at the crossing enters the store, where it has room. -/
def execInputArrival (s : State) : Out :=
  .next (
    match s.tly.crossing with
    | [] => s
    | r :: t =>
      if 32768 < entriesOf s.tly.store + r.entries then s
      else
        let s := s.modTly fun x => { x with crossing := t, store := x.store ++ [r] }
        let s := if r.ring = 104 then s.setFld A.tsuLevel F.tsuLevel_level (s.fld A.tsuLevel F.tsuLevel_level - 1) else s
        s.hcmdPosted r)

/-- Whether a record comes after another in the order of R26; records of one source keep the order of their arrival. -/
def recAfter (a b : InRec) : Bool :=
  decide (b.stamp.toNat < a.stamp.toNat) || (decide (b.stamp = a.stamp) && decide (b.island ≤ a.island))

/-- A record put in its place (R26). -/
def insertRec (r : InRec) : List InRec → List InRec
  | [] => [r]
  | x :: t => if recAfter r x then x :: insertRec r t else r :: x :: t

/-- Records in the order of R26. -/
def sortRecs (rs : List InRec) : List InRec := rs.foldl (fun l r => insertRec r l) []

/-- The time record of the frame (R247, R460). -/
def State.timeRecord (s : State) : InRec :=
  let src := (if s.rtcValid then 2 else 0) + (if s.shipValid then 1 else 0)
  let t := s.rtcNow.seconds % 2 ^ 32 * 2 ^ 32 + 2 * s.fld A.rtcFlags F.rtcFlags_lbv + s.fld A.rtcFlags F.rtcFlags_osf
  ⟨112, 0x80, src, ⟨BitVec.ofNat 32 s.frame.k, .good⟩, 3, s.frame.f, [s.frame.fPrev, s.ofs, BitVec.ofNat 64 t], 3,
    false, false⟩

/-- A record that is delivered after the frame of its input set (R249, R532). -/
def carriedRec (r : InRec) : InRec := { r with carry := true }

/-- The closed set joins the carried records; the time record of a frame that is not released is not delivered. -/
def State.carrySet (s : State) : State :=
  s.modTly fun t => { t with
    carried := t.carried ++ ((t.cutSet.filter fun r => r.ring ≠ 112).map carriedRec), cutSet := [] }

/-- The late records of a closing set are counted and reported (R28, R340). -/
def State.noteLate (s : State) (rs : List InRec) : State :=
  (rs.filter fun r => decide (r.stamp.toNat < s.frame.fPrev.toNat)).foldl
    (fun s _ => ((s.event A.tlyStatus F.tlyStatus_inputlate).satInc A.tlyLatein F.tlyLatein_count).report 52 0) s

/-- INPUT_CUT (R28, R341): the set of frame k closes; `bad` marks the distributors whose CRC differed. -/
def execInputCut (badA badB badC : Bool) (s : State) : Out :=
  .next (
    if ¬s.frame.running ∨ s.frame.phase ≠ .seam then s
    else
      let own := s.tly.store.filter fun r => decide (r.stamp.toNat < s.frame.f.toNat)
      let s := s.noteLate own
      let cut := sortRecs own ++ [s.timeRecord]
      let bad := ((allLanes.zip [badA, badB, badC]).filter fun x => x.2).map fun x => x.1
      let s := s.modTly fun t => { t with
        store := t.store.filter fun r => !decide (r.stamp.toNat < s.frame.f.toNat), cutSet := cut, excluded := bad }
      let s := s.lastPeak A.tlyInset F.tlyInset_last F.tlyInset_peak (entriesOf cut)
      let s := { s with frame := { s.frame with phase := .cut } }
      if 2 ≤ bad.length then
        let s := ((s.abandonRepair s.frame.f).splitFrame false s.frame.f).carrySet
        { s with tly := { s.tly with excluded := [] }, frame := { s.frame with phase := .released } }
      else s)

/-! ## A lane at a release (R251 to R253, R258) -/

/-- A queued command acts on its thread (R258). -/
def Thread.command (entry : Nat) (th : Thread) (c : ThreadCmd) : Thread :=
  if c.halt then
    if c.after = 0 then { th with st := .halted, lastPc := entry } else { th with haltAt := some c.after }
  else if th.st = .halted ∨ th.st = .faulted then { th with st := .done }
  else th

/-- A thread at a release: its commands, fresh registers, and RUN where it has a budget and is not kept out (R251). -/
def Thread.release (e : ThreadEntry) (cmds : List ThreadCmd) (th : Thread) : Thread :=
  let th := cmds.foldl (Thread.command e.entry)
    { th with haltAt := none, waiting := none, group := none, used := 0, cpu := Cpu.fresh e.entry }
  if e.budget = 0 ∨ th.st = .halted ∨ (th.st = .faulted ∧ e.stop) then th else { th with st := .run }

/-- Bits of a record's head entry (R247). -/
def headBits (r : InRec) : BitVec 64 :=
  BitVec.ofNat 64 (r.value.val.toNat * 2 ^ 32 + r.value.tag.code * 2 ^ 30 + r.aux % 16 * 2 ^ 26
    + (if r.late then 2 ^ 25 else 0) + (if r.carry then 2 ^ 24 else 0) + r.kind % 256 * 2 ^ 16 + r.source % 65536)

/-- The entries of a record (R247). -/
def recFixed (r : InRec) : List FixedEntry :=
  ⟨headBits r, true⟩ :: ⟨r.stamp, false⟩ :: r.payload.map fun p => ⟨p, false⟩

/-- The fixed rings' entries of a delivered set, rings 96 to 127 (R249). -/
def fixedRings (rs : List InRec) : List (List FixedEntry) :=
  (List.range 32).map fun i => (rs.filter fun r => r.ring = 96 + i).flatMap recFixed

/-- Total length of lists. -/
def totalLength {α : Type} (ls : List (List α)) : Nat := ls.foldl (fun n l => n + l.length) 0

/-- A lane that has not completed its frame when a release reaches it (R253). -/
def State.lateLane (s : State) (l : LaneId) : State :=
  if (s.lane l).executing then
    let s := (List.finRange 128).foldl
      (fun s t =>
        let th := s.thread l t
        if th.st = .run ∨ th.st = .wait then
          s.modLane l fun ln => (ln.dropGroup t th).putThread t { th with st := .done, waiting := none, group := none }
        else s) s
    (s.modLane l fun ln => { ln with executing := false }).event (A.lnStatus l.val) F.lnStatus_late
  else s

/-- Lane l receives the release of the frame with its set, and begins (R251). -/
def State.releaseLane (s : State) (cmds : List ThreadCmd) (rs : List InRec) (powerFail : Bool) (l : LaneId) : State :=
  let s := s.lateLane l
  let ln := s.lane l
  let entry (i : Nat) : ThreadEntry := match s.image with
    | none => ⟨0, 0, false⟩
    | some im => im.threads.getD i ⟨0, 0, false⟩
  let mine (i : Nat) : List ThreadCmd := cmds.filter fun c => c.thread == i
  let left (r : Nat) : Nat := if r < 96 then (ln.rings.getD r []).length else (ln.fixed.getD (r - 96) []).length
  let ln' : LaneSt := { ln with
    threads := ln.threads.zipIdx.map fun x => x.1.release (entry x.2) (mine x.2)
    rings := List.replicate 96 []
    fixed := fixedRings rs
    drops := ln.drops.zipIdx.map fun x => Nat.min (x.1 + left x.2) 65535
    outbox := [], reports := [], outboxFull := false, executing := true
    frame := s.frame.k, fPrev := s.frame.fPrev, fCur := s.frame.f, period := s.frame.period, powerFail := powerFail }
  let s := s.modLane l fun _ => ln'
  let u := A.lnUntaken l.val
  let s := s.setFld u F.lnUntaken_general (Nat.min (totalLength ln.rings) 65535)
  let s := s.setFld u F.lnUntaken_fixed (Nat.min (totalLength ln.fixed) 65535)
  let s := s.lastPeak (A.lnInbuf l.val) F.lnInbuf_last F.lnInbuf_peak (entriesOf rs)
  ((s.setFld (A.lnState l.val) F.lnState_framedone 0).setLaneState l.val 1).completeFrame l

/-! ## Repair (R352, R353, R357) -/

/-- The repair release reaches the lane of repair r, with frame k; after DRIFT or LATE its DCO is re-trimmed, or it is
retired (R352, R353). -/
def State.repairRelease (s : State) (r : Repair) (retrim : Bool) : State :=
  let s := (s.lateLane r.lane).setLaneState r.lane.val 2
  let s := s.setFld A.tlyState F.tlyState_donor r.donor.val
  let s := s.modTly fun t => { t with repair := some { r with released := some s.frame.k } }
  let c := s.fld (A.tlyLane r.lane.val) F.tlyLane_cause
  if c = 3 ∨ c = 4 then
    if retrim then s.retrimIsland r.lane.val else s.retire r.lane s.frame.f
  else s

/-- A repaired lane runs again (R352, step 4). -/
def State.rejoin (s : State) (r : Repair) : State :=
  let d := s.lane r.donor
  let s := s.modLane r.lane fun ln => { ln with threads := d.threads }
  let s := (s.modTly fun t => { t with repair := none }).setFld A.tlyState F.tlyState_donor 3
  (s.setLaneState r.lane.val 1).tallyEvent F.tlyStatus_rejoined r.lane.val s.frame.f

/-- What a release makes of the repair in progress or asked for: a rejoin, a repair release, or one for RETURN. -/
def State.repairStep (s : State) (retrim : Bool) : State :=
  match s.tly.repair with
  | some r =>
    (match r.released with
     | none => s.repairRelease r retrim
     | some k => if k < s.frame.k ∧ r.copied ∧ ¬(s.lane r.donor).executing then s.rejoin r else s)
  | none =>
    match s.tly.returnReq with
    | none => s
    | some l =>
      if s.isSplit || s.laneState l != 3 then s
      else
        match allLanes.find? fun d => decide (s.laneState d < 2) with
        | none => s
        | some d => s.repairRelease ⟨l, d, true, none, false⟩ retrim

/-- REPAIR_COPY_END (R352): keep memory, and where asked code memory, of the donor stand in the lane. -/
def execRepairCopyEnd (l : LaneId) (s : State) : Out :=
  .next (
    match s.tly.repair with
    | none => s
    | some r =>
      if r.lane = l ∧ r.released.isSome ∧ ¬r.copied then
        let d := s.lane r.donor
        let s := s.modLane l fun ln => { ln with
          keep := d.keep, code := if r.code then d.code else ln.code, fault := .none }
        let s := if r.code then s.setReg (A.lnCodedig l.val) (s.reg (A.lnCodedig r.donor.val)) else s
        let us := (s.tbc.toNat - (s.frame.f.toNat + 500)) / 100
        (s.setFld A.tlyRejoin F.tlyRejoin_copy (Nat.min us 65535)).modTly
          fun t => { t with repair := some { r with copied := true } }
      else s)

/-- Whether a write to TLY_CTRL is permitted (R357). -/
def State.tlyCtrlOk (s : State) (w : Word) : Bool :=
  let a := F.tlyCtrl_retire.get w
  let b := F.tlyCtrl_return.get w
  let one (n : Nat) : Bool := n == 1 || n == 2 || n == 4
  let mode := s.fld A.tlyState F.tlyState_mode
  if a = 0 ∧ b = 0 then true
  else if a ≠ 0 ∧ b ≠ 0 then false
  else if s.tly.repair.isSome then false
  else if a ≠ 0 then one a && decide (mode = 0)
  else one b && decide (mode = 1) && (allLanes.any fun l => decide (b = 2 ^ l.val) && s.laneState l == 3)

/-- A permitted write to TLY_CTRL (R357). -/
def State.tlyCtrlWritten (s : State) (w : Word) : State :=
  match allLanes.find? fun l => decide (F.tlyCtrl_retire.get w = 2 ^ l.val) with
  | some l => s.modTly fun t => { t with retireReq := some l }
  | none =>
    match allLanes.find? fun l => decide (F.tlyCtrl_return.get w = 2 ^ l.val) with
    | some l =>
      (s.modTly fun t => { t with returnReq := some l, history := t.history.set l.val [] }).setFld
        (A.tlyLane l.val) F.tlyLane_win 0
    | none => s

/-! ## The release (R342, R251, R399, R532, R548, R587, R589) -/

/-- Records that fit in `room` entries, and those from the first that does not (R249). -/
def fitRecs : Nat → List InRec → List InRec × List InRec
  | _, [] => ([], [])
  | room, r :: t =>
    if r.entries ≤ room then
      let x := fitRecs (room - r.entries) t
      (r :: x.1, x.2)
    else ([], r :: t)

/-- The set a release delivers, and the records carried past it: the carried records first, each with LATE where its stamp
lies before the frame's input interval (R247, R249, R532). -/
def State.deliverySet (s : State) : List InRec × List InRec :=
  let own := if s.stage' < 6 then sortRecs (s.tly.restore ++ s.tly.cutSet) else s.tly.cutSet
  let rs := (sortRecs s.tly.carried ++ own).map
    fun r => { r with late := decide (r.stamp.toNat < s.frame.fPrev.toNat) }
  fitRecs 8192 rs

/-- The lanes that take part in a frame: stopped or running ones that are neither left out nor repaired. -/
def State.partLanes (s : State) : List LaneId :=
  allLanes.filter fun l => decide (s.laneState l < 2) && !s.tly.excluded.contains l

/-- A lane left out of the frame is out-voted at its release (R341, R351). -/
def State.inputOut (s : State) : State :=
  let ex := s.tly.excluded
  let s := (List.range 3).foldl
    (fun s i => s.setBit A.tlyState ⟨F.tlyState_dist.lo + i, F.tlyState_dist.lo + i⟩ (ex.any fun l => l.val == i)) s
  let out := ex.filter fun l => decide (s.laneState l < 2)
  let s := s.modTly fun t => { t with excluded := out }
  out.foldl (fun s l => s.outVote l 5 s.frame.k s.frame.f) s

/-- The first release after a start (R587, R589). -/
def State.firstRelease (s : State) : State :=
  if s.stage' < 6 then
    let ms := s.sup.bootMs + (s.frame.f.toNat + 500 - s.pair A.tmbStartLo) / 100000
    let s := (s.setStage 6).setFld A.supBoot F.supBoot_ms (Nat.min ms 65535)
    let s := if s.phase = 0 then s.setFld A.supState F.supState_phase 1 else s
    s.modTly fun t => { t with restore := [] }
  else s

/-- Lane l reports records carried past its input buffer (R249). -/
def State.noteCarry (s : State) (l : LaneId) : State :=
  (s.event (A.lnStatus l.val) F.lnStatus_carry).raise 50 l.val 0 l.val 0 s.tbc

/-- FRAME_RELEASE (R342): `retrim` where TMB can bring the DCO of a lane under repair within ±1 % (R353). -/
def execFrameRelease (retrim : Bool) (s : State) : Out :=
  .next (
    if s.frame.phase ≠ .cut then s
    else
      let s := { s with frame := { s.frame with phase := .released } }
      if s.mgs.holding || s.frame.held then
        (s.carrySet.modTly fun t => { t with excluded := [] }).showMode
      else
        let s := (s.inputOut.repairStep retrim).modTly fun t => { t with returnReq := none }
        let d := s.deliverySet
        let s := s.modTly fun t => { t with carried := d.2.map carriedRec, cutSet := [] }
        let v := s.partLanes
        let powerFail := d.1.any fun r => r.ring == 116 && r.kind == 0xC0 && r.source == 5
        let cmds := s.tcmds
        let s := { s with tcmds := [] }
        let s := v.foldl (State.releaseLane · cmds d.1 powerFail ·) s
        let s := if d.2.isEmpty then s else v.foldl State.noteCarry s
        let s := (s.modTly fun t => { t with inFrame := v }).showMode
        s.firstRelease.actReleased)

/-! ## Heartbeats and the canary (R343, R345) -/

/-- HEARTBEAT (R345): lane l's heartbeat reaches the voters `ticks` after the release. -/
def execHeartbeat (l : LaneId) (ticks : BitVec 32) (s : State) : Out :=
  .next (
    match s.tly.sent.getD l.val none with
    | none => s
    | some h =>
      let s := s.modTly fun t => { t with
        sent := t.sent.set l.val none, arrived := t.arrived.set l.val (some h) }
      let c : Int := h.cycles
      let t := ticks.toNat
      if h.cycles < 20000 ∨ t = 0 then s
      else
        let off := (c - 2 * t)
        let s := s.setFld (A.tlyClk l.val) F.tlyClk_ppm (BitVec.ofInt 16 (roundDiv (off * 100000) (2 * t))).toNat
        if t < 25 * off.natAbs then s.modTly fun x => { x with drifted := l :: x.drifted } else s)

/-! ## Lane memories (R241) -/

/-- A fault of lane l's own. -/
def State.laneFails (s : State) (l : LaneId) (f : LaneFault) : State := s.modLane l fun ln => { ln with fault := f }

/-- KEEP_SCRUB (R241). -/
def execKeepScrub (l : LaneId) (found : ScrubFind) (s : State) : Out :=
  let lost (s : State) : State :=
    (s.satInc (A.lnEcc l.val) F.lnEcc_uncorr).event (A.lnStatus l.val) F.lnStatus_eccuncorr
  .next (
    match found with
    | .clean => s
    | .corrected =>
      ((s.satInc (A.lnEcc l.val) F.lnEcc_corr).event (A.lnStatus l.val) F.lnStatus_ecccorr).raise
        49 l.val 0 l.val 0 s.tbc
    | .keepLost => (lost s).laneFails l .keepMemory
    | .codeLost => (lost s).laneFails l .codeMemory
    | .parity => s.laneFails l .parity)

end Sys2Proof.Machine
end

