-- ==== Sys2Proof/Machine/BusRules.lean ====
section
/-! DEFINITION. Which writes the management bus accepts: every case in which a write raises a bus error (R7, R39, R45 and
the descriptions of the registers). -/

namespace Sys2Proof.Machine

/-- Whether `n` lies from `lo` to `hi`. -/
def within (lo hi n : Nat) : Bool := decide (lo ≤ n) && decide (n ≤ hi)

/-- Whether terminal n is present (R3). -/
def State.hasTerm (s : State) (n : Nat) : Bool := decide (n < s.terms)

/-- Whether group g is present (R3). -/
def State.hasGroup (s : State) (g : Nat) : Bool := decide (g < s.terms / 8)

/-! ## Terminal cells (R101, R110, R112, R370) -/

/-- TRP_LOCK.LOCK. -/
def State.matrixLocked (s : State) : Bool := s.bit A.trpLock F.trpLock_lock

/-- Whether terminal n is named by a literal in use. -/
def State.isLiteral (s : State) (n : Nat) : Bool :=
  (List.range 32).any fun k => (s.literals k).any fun l => decide (128 ≤ l) && l % 64 == n

/-- Whether terminal n is named as an output of a term. -/
def State.isOutput (s : State) (n : Nat) : Bool := (List.range 32).any fun k => s.tripNames k n

/-- Whether a PAR code is valid on terminal n (R101). -/
def parOk (n par : Nat) : Bool :=
  match par with
  | 0 => true
  | 1 => n % 2 == 0
  | 2 => n % 4 == 0
  | _ => false

/-- Writes to the window of terminal n, at offset `o`. -/
def State.trmOk (s : State) (n o : Nat) (w : Word) : Bool :=
  match o with
  | 0x04 => decide (F.trmMode_mode.get w ≤ 9) && !(s.matrixLocked && (s.isLiteral n || s.isOutput n))
  | 0x08 => decide (F.trmDi_thr.get w ≤ 260) && F.trmDi_type.get w != 3 && !(s.matrixLocked && s.isLiteral n)
  | 0x0C => F.trmDeb_deb.get w != 0
  | 0x10 =>
    F.trmDo_limittime.get w != 0 && parOk n (F.trmDo_par.get w) && !(s.matrixLocked && s.isOutput n)
  | 0x28 => decide (F.trmGcfg_uv.get w ≤ 24)
  | _ => true

/-! ## Measurement (R117, R118, R138, R141, R144, R154, R175, R180, R210, R212) -/

/-- A half word as a two's complement number: the low half, or the high half. -/
def lowHalf (w : Word) : Int := (w.truncate 16 : BitVec 16).toInt
def highHalf (w : Word) : Int := ((w >>> 16).truncate 16 : BitVec 16).toInt

/-- A cold-junction code (R141): the terminal or group it names is present. -/
def State.cjOk (s : State) (c : Nat) : Bool := s.hasTerm c || (within 0x38 0x3D c && s.hasGroup (c - 0x38))

/-- Writes to the MUX block. -/
def State.muxOk (s : State) (a : Nat) (w : Word) : Bool :=
  if a = A.muxCtrl then within 5 1000 (F.muxCtrl_disch.get w)
  else if a < A.muxCmw 0 then true
  else if a < A.muxCmw 4 then decide (lowHalf w ≤ highHalf w)
  else if a < A.muxTopt 48 then
    s.cjOk (F.muxTopt_cj.get w) && decide (F.muxTopt_cext.get w ≤ 4) && decide (F.muxTopt_rsrc.get w ≤ 5)
      && F.muxTopt_bias.get w != 3
  else true

/-- Writes to the EXC block (R118, R126). -/
def State.excOk (s : State) (a : Nat) (w : Word) : Bool :=
  if a < A.excSrc 0 then true
  else
    let n := F.excSrc_manterm.get w
    F.excSrc_mode.get w != 3 && (s.hasTerm n || n == 0x3F) && within 1 200 (F.excSrc_mancode.get w)
      && match manualOn w with
         | none => true
         | some t => s.manualOk ((a - A.excSrc 0) / 4) t

/-- Writes to the window of converter c, at offset `o` (R154, R161, R165, R175). -/
def State.asyOk (s : State) (c o : Nat) (w : Word) : Bool :=
  match o with
  | 0x04 =>
    let lead := F.asyCtrl_lead.get w
    let div := F.asyCtrl_divlog.get w
    within 20 1000 lead && div != 7
      && (!s.dedicated c || divlogOk lead div (s.fld A.seqFrameAct F.seqFrameAct_period * 100))
  | 0x10 =>
    let up := F.asyAr_upthr.get w
    let dn := F.asyAr_dnthr.get w
    within 50 99 up && within 5 24 dn && decide (4 * dn < up) && F.asyAr_dwell.get w != 0
  | 0x14 => decide (F.asyBlank_tail.get w ≤ 1000)
  | _ => true

/-- Writes to the HRT block by master m (R185, R198, R202, R207). -/
def State.hrtOk (s : State) (m a : Nat) (w : Word) : Bool :=
  if a < A.hrtMcfg 0 then true
  else if a < A.hrtLcfg 0 then
    (s.field.owner || decide (m = 4)) &&
      match (a - A.hrtMcfg 0) % 0x200 with
      | 0x00 =>
        let t := F.hrtMcfg_term.get w
        within 5 20 (F.hrtMcfg_pre.get w) && (s.hasTerm t || t == 0x3F)
          && s.mcfgOk ((a - A.hrtMcfg 0) / 0x200) w
      | 0x10 => decide (F.hrtMtxlen_len.get w ≤ 128)
      | 0x14 => F.hrtMtimeout_chars.get w != 0
      | _ => true
  else
    let n := (a - A.hrtLcfg 0) / 0x20
    match (a - A.hrtLcfg 0) % 0x20 with
    | 0x00 =>
      let t := F.hrtLcfg_sup.get w
      (t == 0x3F || (t != n && t / 8 == n / 8)) && within 0x32 0xF0 (F.hrtLcfg_hmin.get w)
    | 0x04 => within 20000 115000 (F.hrtLrb_rb.get w)
    | _ => true

/-- The group a select code lies in (R116, R117). -/
def selectGroup (c : Nat) : Option Nat :=
  if c < 48 then some (c / 8) else if c < 54 then some (c - 48) else none

/-- Whether a select code is not reserved and names nothing absent (*Table: Input select codes*). -/
def State.selectOk (s : State) (c : Nat) : Bool :=
  match selectGroup c with
  | some g => s.hasGroup g
  | none => c == 0x3E || c == 0x3F

/-- A word of a staged descriptor, at offset `o` (R117, R210). -/
def State.descWordOk (s : State) (o : Nat) (w : Word) : Bool :=
  match o with
  | 0x00 =>
    decide (F.sdMode_kind.get w ≤ 3) && decide (F.sdMode_form.get w ≤ 4) && decide (F.sdMode_tctype.get w ≤ 4)
      && F.sdMode_win.get w != 3 && F.sdMode_elem.get w != 3
      && decide (F.sdMode_rwide.get w ≤ F.sdMode_rnarrow.get w)
  | 0x04 =>
    let cs := [F.sdTerm_psel.get w, F.sdTerm_nsel.get w, F.sdTerm_rsel.get w, F.sdTerm_fsel.get w]
    let gs := cs.filterMap selectGroup
    cs.all s.selectOk && gs.all (· == gs.headD 0)
  | 0x10 => lowHalf w != highHalf w
  | 0x14 =>
    let src (n : Nat) : Bool := decide (n ≤ 15) || n == 0x1F
    let a := F.sdExc_srca.get w
    let b := F.sdExc_srcb.get w
    src a && src b && (a == 0x1F || b == 0x1F || (a % 2 == 0 && b == a + 1) || (b % 2 == 0 && a == b + 1))
      && decide (F.sdExc_code.get w ≤ 200)
  | 0x18 =>
    let st := F.sdTime_steep.get w
    let di := F.sdTime_disch.get w
    (st == 0 || within 5 5000 st) && (di == 0 || within 5 1000 di)
  | _ => true

/-- Writes to the SEQ block (R208, R212, R226). -/
def State.seqOk (s : State) (a : Nat) (w : Word) : Bool :=
  if a = A.seqCtrl then !(s.seqBusy && decide (w ≠ 0))
  else if !isStaging a then true
  else
    !s.seqBusy &&
      (if a = A.seqFrame then within 1000 1000000 (F.seqFrame_period.get w)
       else if a < A.seqClist 8 then F.seqClist_cycle.get w != 0
       else s.descWordOk ((a - A.sdMode 0) % 0x20) w)

/-! ## Lanes and trips (R258, R262, R263, R369, R370, R382, R383) -/

/-- Writes to a lane window, at offset `o` of it. -/
def State.laneOk (s : State) (o : Nat) (w : Word) : Bool :=
  if o = 0x40 then
    let op := F.lnTcmd_op.get w
    op != 3 && (op == 0 || (decide (s.tcmds.length < 16)
      && match s.image with
         | none => false
         | some im =>
           match im.threads[F.lnTcmd_thread.get w]? with
           | none => false
           | some e => decide (e.budget ≠ 0)))
  else if o < 0x10000 then true
  else [A.lnState 0, A.lnState 1, A.lnState 2].all fun a => s.fld a F.lnState_lane == 0

/-- Writes to the TRP block. -/
def State.trpOk (s : State) (a : Nat) (w : Word) : Bool :=
  if a = A.trpReset ∨ a = A.trpStatus then true
  else if s.matrixLocked then false
  else if a < A.trpCfg 0 then true
  else
    let k := (a - A.trpCfg 0) / 0x20
    let on := s.bit (A.trpCfg k) F.trpCfg_en
    let old := s.reg (A.trpCfg k)
    match (a - A.trpCfg 0) % 0x20 with
    | 0x00 => !on || decide (w.toNat / 2 = old.toNat / 2)
    | 0x04 | 0x08 =>
      !on && (List.range 4).all fun j =>
        let l := w.toNat / 2 ^ (8 * j) % 256
        decide (l % 64 < 48) && (decide (l < 128) || s.hasTerm (l % 64))
    | 0x0C => !on && decide (w.toNat < 2 ^ s.terms)
    | _ => !on && decide (w.toNat * 2 ^ 32 < 2 ^ s.terms)

/-! ## Supply, lamp room, updates and faults -/

/-- Writes to the SUP block (R384, R571). -/
def supOk (a : Nat) (w : Word) : Bool :=
  if a = A.supPmtCfg then
    decide (F.supPmtCfg_margin.get w ≤ 100) && F.supPmtCfg_stagger.get w != 0
      && within 1 100 (F.supPmtCfg_period.get w) && within 4 16 (F.supPmtCfg_units.get w)
  else if a = A.supCtrl then decide (F.supCtrl_vset.get w ≤ 80)
  else true

/-- Writes to the MGS block (R390, R535, R537, R552). -/
def State.mgsOk (s : State) (a : Nat) (w : Word) : Bool :=
  if a = A.mgsCtrl then F.mgsCtrl_wdt.get w != 0
  else if a = A.mgsTlim then
    let warn := F.mgsTlim_warn.get w
    let alarm := F.mgsTlim_alarm.get w
    within 50 150 warn && within 60 150 alarm && decide (warn ≤ alarm)
  else if a = A.mgsHcmd then s.hcmdOk w
  else if a = A.mgsCfgjCmd then
    within 1 56 (F.mgsCfgjCmd_n.get w) && !s.bit A.mgsCfgjState F.mgsCfgjState_busy
  else if A.mgsWatchBase 0 ≤ a ∧ a < A.mgsWatchBase 64 ∧ a % 8 = 4 then
    decide (s.fld (a - 4) F.mgsWatchBase_base ≤ F.mgsWatchLim_limit.get w)
  else true

/-- Writes to the UPD block by master m (R543, R546, R547, R549). -/
def State.updOk (s : State) (m a : Nat) (w : Word) : Bool :=
  if a = A.updCfg then decide (10 ≤ F.updCfg_trial.get w)
  else if a = A.updCmd then
    within 1 2 (F.updCmd_kind.get w) &&
      match F.updCmd_op.get w with
      | 1 | 2 | 3 => decide (m = 4) || decide (m = 5)
      | 4 | 5 => decide (m = 4) || decide (m = 5) || decide (m = 6)
      | 6 => decide (m = 4)
      | _ => false
  else if a = A.updData then s.updDataOk m
  else if a = A.updKeycmd then !s.bit A.idFuse F.idFuse_keyset && s.upd.key.isNone
  else true

/-- Writes to the FLT block by master m (R561 to R563). -/
def State.fltOk (s : State) (m a : Nat) (w : Word) : Bool :=
  if a = A.fltCtrl then F.fltCtrl_unhold.get w == 0 || decide (m = 4)
  else if a = A.fltSafe then
    !(F.fltSafe_key.get w == 0x5AFE && s.fld A.tlyState F.tlyState_mode == 2)
  else if A.fltSrc 0 ≤ a then decide (faultFloor ((a - A.fltSrc 0) / 4) ≤ F.fltSrc_class.get w)
  else true

/-! ## Records and clock (R421, R432, R435, R438, R446 to R448, R457 to R467) -/

/-- Writes to the JNL block by master m. -/
def State.jnlOk (s : State) (m a : Nat) (w : Word) : Bool :=
  if a = A.jnlCtrl then within 30 3650 (F.jnlCtrl_age.get w)
  else if a = A.jnlLook then s.lookMay w
  else if a = A.jnlWhdr then F.jnlWhdr_ver.get w != 0
  else if a = A.jnlWlen then within 4 228 (F.jnlWlen_plen.get w) && F.jnlWlen_plen.get w % 4 == 0
  else if a = A.jnlWcmd then s.wcmdMay m
  else if a = A.jnlFcmd then s.fcmdMay m w
  else true

/-- Writes to the EVR block. -/
def evrOk (a : Nat) (w : Word) : Bool :=
  if a = A.evrClear then F.evrClear_area.get w != 0
  else if a = A.evrCursor then F.evrCursor_area.get w == 0 || decide (F.evrCursor_slot.get w ≤ 255)
  else if A.evrTrg 0 ≤ a ∧ a < A.evrTrg 32 then F.evrTrg_kind.get w != 0xF
  else if A.evrList 0 0 ≤ a ∧ a < A.evrList 8 0 then
    F.evrList_type.get w != 1 || F.evrList_addr.get w % 4 == 0
  else true

/-- Writes to the RTC block while the gate is open. -/
def rtcOk (a : Nat) (w : Word) : Bool :=
  if A.rtcSec ≤ a ∧ a ≤ A.rtcYear then timeValueOk a w.toNat
  else if a = A.rtcCal then F.rtcCal_cal.get w != 0x200
  else true

/-! ## Panel and network (R472, R475, R496, R497, R499, R513, R528, R529) -/

/-- Writes to the PNL block. -/
def State.pnlOk (s : State) (a : Nat) (w : Word) : Bool :=
  if a = A.pnlCtrl then
    let m := F.pnlCtrl_mode.get w
    m != 3 && (m == 0 || s.fld A.pnlWver F.pnlWver_wver != 0)
  else if a = A.pnlVcom then decide (F.pnlVcom_vcom.get w ≤ 250)
  else if a = A.pnlPfcfg then within 1 20 (F.pnlPfcfg_tmax.get w) && within 31 72 (F.pnlPfcfg_floor.get w)
  else if a = A.pnlWcmd then F.pnlWcmd_commit.get w == 0 || s.fld A.pnlWstg F.pnlWstg_wver != 0
  else if A.pnlTscale 0 ≤ a ∧ a < A.pnlTscale 8 then
    F.pnlTscale_factor.get w == 0 || decide (16 ≤ F.pnlTscale_factor.get w)
  else if A.pnlWave 0 0 ≤ a then w &&& 0x1FC01FC0#32 == 0
  else true

/-- Writes to the registers of a C port, at offset `o` of its window. -/
def State.canOk (s : State) (c o : Nat) (w : Word) : Bool :=
  match o with
  | 0x04 =>
    let sjw := F.netCnbt_sjw.get w
    !s.bit (A.netCcfg c) F.netCcfg_en && within 2 256 (F.netCnbt_tseg1.get w) && within 1 127 (F.netCnbt_tseg2.get w)
      && within 1 (F.netCnbt_tseg2.get w) sjw && F.netCnbt_brp.get w != 0
  | 0x08 =>
    let sjw := F.netCdbt_sjw.get w
    !s.bit (A.netCcfg c) F.netCcfg_en && F.netCdbt_tseg1.get w != 0 && F.netCdbt_tseg2.get w != 0
      && within 1 (F.netCdbt_tseg2.get w) sjw && F.netCdbt_brp.get w != 0
  | _ => true

/-- Writes to the NET block. -/
def State.netOk (s : State) (a : Nat) (w : Word) : Bool :=
  if a = A.netNodeid then within 1 0xFE (F.netNodeid_canaddr.get w) && within 1 0xFFFE (F.netNodeid_node.get w)
  else if A.netPcfg 0 ≤ a ∧ a < A.netPcfg 2 then F.netPcfg_amp.get w != 3
  else if a = A.netPrpcfg then within 100 10000 (F.netPrpcfg_life.get w)
  else if a = A.netMdio then [1, 3, 7].contains (F.netMdio_mmd.get w)
  else if a = A.netPtpcfg then decide (F.netPtpcfg_hold.get w ≤ 3600)
  else if A.netCcfg 0 ≤ a ∧ a < A.netCcfg 2 then s.canOk ((a - A.netCcfg 0) / 0x100) ((a - A.netCcfg 0) % 0x100) w
  else if A.netAcfg 0 ≤ a ∧ a < A.netAcfg 64 ∧ a % 0x10 = 0 then
    let md := F.netAcfg_medium.get w
    md != 3 && (md == 0 || s.bit A.idVariant variantCan) && F.netAcfg_vmax.get w != 0 && F.netAcfg_acc.get w != 3
      && !s.partnerTaken ((a - A.netAcfg 0) / 0x10) w
  else true

/-! ## All of it -/

/-- Whether no field encoding of the word is one its register's description marks reserved, names something absent or is
not permitted at present: R45, cases 5 to 7, beside the reserved bits. -/
def State.valueOk (s : State) (m a : Nat) (w : Word) : Bool :=
  if a < 0x00010000 then true
  else if a < 0x00020000 then supOk a w
  else if a < 0x00030000 then true
  else if a < 0x00040000 then s.fltOk m a w
  else if a < 0x00050000 then rtcOk a w
  else if a < 0x00060000 then evrOk a w
  else if a < 0x00070000 then s.jnlOk m a w
  else if a < 0x00100000 then s.mgsOk a w
  else if a < 0x00110000 then s.trmOk ((a - 0x00100000) / 0x100) (a % 0x100) w
  else if a < 0x00120000 then s.muxOk a w
  else if a < 0x00130000 then s.excOk a w
  else if a < 0x00140000 then s.asyOk ((a - 0x00130000) / 0x1000) (a % 0x1000) w
  else if a < 0x00150000 then a != A.svcCtrl || decide (100 ≤ F.svcCtrl_sweep.get w)
  else if a < 0x00160000 then s.hrtOk m a w
  else if a < 0x00170000 then s.seqOk a w
  else if a < 0x00200000 then true
  else if a < 0x002C0000 then s.laneOk (a % 0x40000) w
  else if a < 0x00300000 then a != A.tlyCtrl || s.tlyCtrlOk w
  else if a < 0x00310000 then s.trpOk a w
  else if a < 0x00400000 then decide (a < A.outCfg 0) || F.outCfg_safepol.get w != 3
  else if a < 0x00500000 then s.pnlOk a w
  else if a < 0x00600000 then s.netOk a w
  else if a < 0x00700000 then s.updOk m a w
  else a != A.hspCtrl || F.hspCtrl_access.get w != 3

/-- Whether the bus accepts master m's write of `w` to the register at `a` (R45): the register exists and is present, is
not read-only and not a locked LK register, master m may write it, no reserved bit is 1, and the value may be written. -/
def State.writeOk (s : State) (m a : Nat) (w : Word) : Bool :=
  s.readable m a &&
    match rowOf a with
    | none => false
    | some r =>
      r.kind != .ro && !(r.kind == .lk && s.locked.contains a) && r.writers.testBit m
        && decide (w.toNat &&& r.legal = w.toNat) && s.valueOk m a w

end Sys2Proof.Machine
end

