-- ==== Sys2Proof/Machine/Bus.lean ====
section
/-! DEFINITION. Accesses on the management bus: what a write does to each register, and what a read returns and does (R38
to R58). -/

namespace Sys2Proof.Machine

/-! ## What a write stores -/

/-- A write stored in the register's bits that a write stores (R48); a register held per master is the writer's own. -/
def State.storeReg (s : State) (m a : Nat) (w : Word) : State :=
  match rowOf a with
  | none => s
  | some r =>
    let k := if perMaster a then bank m a else canon a
    let keep : Word := ~~~(BitVec.ofNat 32 r.stored)
    s.setReg k ((s.reg k &&& keep) ||| (w &&& ~~~keep))

/-- A clearing write to a status register (R50, R51, R607). -/
def State.clearFlags (s : State) (a : Nat) (w : Word) : State :=
  let k := canon a
  let cur := s.reg k
  let s := s.setReg k (sqClear cur w)
  if a = A.fltStatus then s.fltStatusWritten cur w else s

/-- A write to a low word is staged for its master (R55). -/
def State.stageLow (s : State) (m a : Nat) (w : Word) : State :=
  { s with staged := (s.staged.filter fun x => x.1 ≠ bank m a) ++ [(bank m a, w)] }

/-- A write to the high word at `a` commits it with the low word its master has staged, if it has (R55). -/
def State.commitHigh (s : State) (m a : Nat) (w : Word) : State :=
  let k := bank m (a - 4)
  let s1 := (match s.staged.find? fun x => x.1 == k with
    | none => s
    | some x => s.setReg k x.2)
  { s1.setReg (bank m a) w with staged := s.staged.filter fun x => x.1 ≠ k }

/-! ## Writes that do more than store -/

/-- Writes to the window of terminal n (R101, R106, R108, R113). -/
def State.trmWritten (s : State) (m a : Nat) (w : Word) : State :=
  let n := (a - 0x00100000) / 0x100
  match a % 0x100 with
  | 0x04 => (s.storeReg m a w).modeWritten n
  | 0x10 => s.doWritten n w
  | 0x14 => (s.storeReg m a w).loopWritten n
  | _ => s.storeReg m a w

/-- Writes to the EXC block (R125, R126). -/
def State.excBlockWritten (s : State) (m a : Nat) (w : Word) : State :=
  if A.excSrc 0 ≤ a then s.excWritten ((a - A.excSrc 0) / 4) w
  else
    let s := s.storeReg m a w
    if a = A.excCtrl ∧ F.excCtrl_calnow.get w = 1 then s.calNow else s

/-- Writes to the HRT block (R198, R199, R201, R206). -/
def State.hrtWritten (s : State) (m a : Nat) (w : Word) : State :=
  if A.hrtMcfg 0 ≤ a ∧ a < A.hrtLcfg 0 ∧ (a - A.hrtMcfg 0) % 0x200 = 4 then s.mcmdWritten ((a - A.hrtMcfg 0) / 0x200) w
  else s.storeReg m a w

/-- Writes to SEQ_CTRL: COPY, then COMMIT (R212). -/
def State.seqCtrlWritten (s : State) (w : Word) : State :=
  let s := if F.seqCtrl_copy.get w = 1 then s.copyWritten else s
  if F.seqCtrl_commit.get w = 1 then s.commitWritten else s

/-- All three lanes' keep memory changed (R263). -/
def State.modKeep (s : State) (g : List (Nat × TWord) → List (Nat × TWord)) : State :=
  { s with lanes := s.lanes.map fun l => { l with keep := g l.keep } }

/-- Writes to a lane window: a thread command, a keep word or the tags of sixteen (R258, R263). -/
def State.laneWritten (s : State) (a : Nat) (w : Word) : State :=
  let o := a % 0x40000
  if o = 0x40 then
    if F.lnTcmd_op.get w = 0 then s
    else { s with tcmds := s.tcmds ++ [⟨F.lnTcmd_op.get w == 1, F.lnTcmd_at.get w, F.lnTcmd_thread.get w⟩] }
  else if o < 0x20000 then
    let j := (o - 0x10000) / 4
    s.modKeep fun k => (List.range 16).foldl
      (fun k i =>
        let v := sget TWord.zero k (16 * j + i)
        sput TWord.zero k (16 * j + i) ⟨v.val, Tag.ofCode (w.toNat / 4 ^ i)⟩) k
  else
    let i := (o - 0x20000) / 4
    s.modKeep fun k => sput TWord.zero k i ⟨w, (sget TWord.zero k i).tag⟩

/-- Writes to the TRP block (R363, R369). -/
def State.trpWritten (s : State) (m a : Nat) (w : Word) : State :=
  if a = A.trpReset then s.resetTerms w
  else
    let s := s.storeReg m a w
    if A.trpCfg 0 ≤ a ∧ (a - A.trpCfg 0) % 0x20 = 0 then s.trpCfgWritten ((a - A.trpCfg 0) / 0x20) else s

/-- Writes to the MGS block by master m (R391, R532, R533, R535, R537). -/
def State.mgsWritten (s : State) (m a : Nat) (w : Word) : State :=
  if a = A.mgsCtrl then (s.storeReg m a w).readyWritten
  else if a = A.mgsWdog then s.wdogWritten w
  else if a = A.mgsHcmd then s.hcmdWritten m w
  else if a = A.mgsCfgjCmd then s.saveWritten w
  else if a = A.mgsWqpop then s.popWritten w
  else s.storeReg m a w

/-- Writes to the JNL block by master m (R421, R424, R432, R435); where `corr`, a lookup's read corrects a word. -/
def State.jnlWritten (s : State) (m a : Nat) (w : Word) (corr : Bool) : State :=
  if a = A.jnlCtrl then
    let s := s.storeReg m a w
    if F.jnlCtrl_compactnow.get w = 1 then s.modJnl fun j => { j with compAsked := true } else s
  else if a = A.jnlLook then s.lookWritten w corr
  else if a = A.jnlWstampLo then s.stageLow m a w
  else if a = A.jnlWstampHi then s.commitHigh m a w
  else if a = A.jnlWcmd then s.wcmdWritten m w
  else if a = A.jnlFcmd then s.fcmdWritten w
  else s.storeReg m a w

/-- Writes to the RTC block by master m (R461, R462, R464). -/
def State.rtcWritten (s : State) (m a : Nat) (w : Word) : State :=
  if a = A.rtcYear then s.commitTime m w.toNat
  else if A.rtcSec ≤ a ∧ a < A.rtcYear then s.stageTime m a w.toNat
  else if a = A.rtcFclr then s.fclrWritten w
  else s.storeReg m a w

/-- Writes to the PNL block (R475, R488, R497). -/
def State.pnlWritten (s : State) (m a : Nat) (w : Word) : State :=
  if a = A.pnlCtrl then (s.storeReg m a w).panelCtrlWritten (s.fld A.pnlCtrl F.pnlCtrl_mode)
  else if a = A.pnlWcmd then if F.pnlWcmd_commit.get w = 1 then s.waveCommitted else s
  else s.storeReg m a w

/-- An MDIO access, which runs as NET_MDIO is written (R528): a read leaves the PHY's word in NET_MDIO_DATA. -/
def State.mdioRuns (s : State) (w : Word) : State :=
  if F.netMdio_wr.get w = 1 then s
  else
    let k := s.nextFree
    k.2.setFld A.netMdioData F.netMdioData_data (Config.freeWord k.1).toNat

/-- Writes to the NET block (R499, R508, R528, R529). -/
def State.netWritten (s : State) (m a : Nat) (w : Word) : State :=
  if A.netAcfg 0 ≤ a ∧ a < A.netAcfg 64 ∧ a % 0x10 = 0 then s.acfgWrite ((a - A.netAcfg 0) / 0x10) w
  else
    let old := s.reg a
    let s := s.storeReg m a w
    if a = A.netNodeid ∨ a = A.netMacLo ∨ a = A.netMacHi then if old = w then s else s.allDown
    else if A.netPcfg 0 ≤ a ∧ a < A.netPcfg 2 ∧ a % 0x10 = 0 then s.pcfgWritten ((a - A.netPcfg 0) / 0x10)
    else if A.netCcfg 0 ≤ a ∧ a < A.netCcfg 2 ∧ a % 0x100 = 0 then s.ccfgWritten ((a - A.netCcfg 0) / 0x100) old
    else if a = A.netMdio then s.mdioRuns w
    else s

/-- Writes to the UPD block by master m (R543, R546, R547). -/
def State.updWritten (s : State) (m a : Nat) (w : Word) : State :=
  if a = A.updCmd then s.updCmdWritten m w
  else if a = A.updData then s.updDataWritten w
  else if a = A.updKeycmd then s.keyWritten w
  else s.storeReg m a w

/-- Writes to the FLT block (R557, R561, R562, R563). -/
def State.fltWritten (s : State) (m a : Nat) (w : Word) : State :=
  if a = A.fltCtrl then s.fltCtrlWritten w
  else if a = A.fltSafe then s.safeKeyWritten w
  else s.storeReg m a w

/-- What a write of master m to the register at `a`, which is no status register, does. -/
def State.blockWritten (s : State) (m a : Nat) (w : Word) (corr : Bool) : State :=
  if 0x00010000 ≤ a ∧ a < 0x00020000 then if a = A.supRst then s.rstWritten w else s.storeReg m a w
  else if 0x00030000 ≤ a ∧ a < 0x00040000 then s.fltWritten m a w
  else if 0x00040000 ≤ a ∧ a < 0x00050000 then s.rtcWritten m a w
  else if a = A.evrSwtrig then s.swtrigWritten w
  else if a = A.evrClear then s.clearWritten w
  else if 0x00060000 ≤ a ∧ a < 0x00070000 then s.jnlWritten m a w corr
  else if 0x00070000 ≤ a ∧ a < 0x00080000 then s.mgsWritten m a w
  else if 0x00100000 ≤ a ∧ a < 0x00110000 then s.trmWritten m a w
  else if A.muxTopt 0 ≤ a ∧ a < A.muxTopt 48 then s.toptWritten ((a - A.muxTopt 0) / 4) w
  else if 0x00120000 ≤ a ∧ a < 0x00130000 then s.excBlockWritten m a w
  else if 0x00130000 ≤ a ∧ a < 0x00140000 ∧ a % 0x1000 = 4 then s.asyWritten ((a - 0x00130000) / 0x1000) w
  else if 0x00150000 ≤ a ∧ a < 0x00160000 then s.hrtWritten m a w
  else if a = A.seqCtrl then s.seqCtrlWritten w
  else if 0x00200000 ≤ a ∧ a < 0x002C0000 then s.laneWritten a w
  else if a = A.tlyCtrl then s.tlyCtrlWritten w
  else if 0x00300000 ≤ a ∧ a < 0x00310000 then s.trpWritten m a w
  else if 0x00400000 ≤ a ∧ a < 0x00410000 then s.pnlWritten m a w
  else if 0x00500000 ≤ a ∧ a < 0x00600000 then s.netWritten m a w
  else if 0x00600000 ≤ a ∧ a < 0x00700000 then s.updWritten m a w
  else s.storeReg m a w

/-- What an accepted write does, by the type of its register (R48): an LK register is locked by its first write (R49). -/
def State.regWritten (s : State) (m a : Nat) (w : Word) (corr : Bool) : State :=
  match rowOf a with
  | none => s
  | some r =>
    match r.kind with
    | .sq => s.clearFlags a w
    | .lk => { s.blockWritten m a w corr with locked := a :: s.locked }
    | _ => s.blockWritten m a w corr

/-! ## Accesses -/

/-- The moment after a completed write of master m, which `s0` preceded: the write watch sees it, unless it was one of the
lamp room's restore writes, which brings the configuration stage (R535, R587). -/
def State.writeSeen (s : State) (s0 : State) (m a : Nat) : State :=
  if s0.restoring m then s.configStage a else s.watchWrite m a

/-- A refused write is reported; a restore write is skipped and counted besides (R46, R538). -/
def State.writeRefused (s : State) (m : Nat) (addr : Word) : State :=
  let t := s.busError m 2 addr
  if s.restoring m then t.skipRestore else t

/-- A write of master m (R45): the state after it, and whether it completed. -/
def State.busWriteWith (s : State) (m : Nat) (addr data : Word) (corr : Bool) : State × Bool :=
  let a := addr.toNat
  if s.writeOk m a data then ((s.regWritten m a data corr).writeSeen s m a, true)
  else (s.writeRefused m addr, false)

/-- A write of master m. -/
def State.busWrite (s : State) (m : Nat) (addr data : Word) : State × Bool := s.busWriteWith m addr data false

/-- The side effect of a read of the register at `a` by master m (R47). -/
def State.readEffect (s : State) (m a : Nat) : State :=
  if A.rtcSubsec ≤ a ∧ a ≤ A.rtcYear then s.timeRead m a
  else if a = A.evrWend then s.wendRead m
  else s

/-- What a read of a register returns: a WO register reads 0 (R48). -/
def State.readBack (s : State) (m a : Nat) : Word :=
  match rowOf a with
  | none => 0
  | some r => if r.kind = .wo then 0 else s.view m a

/-- A read of master m (R45, R46): the word, whether it completed, and the state after it. -/
def State.busRead (s : State) (m : Nat) (addr : Word) : Word × Bool × State :=
  let a := addr.toNat
  if s.readable m a then (s.readBack m a, true, s.readEffect m a)
  else (0, false, s.busError m 1 addr)

/-- A command that is a write by a master: nothing while the node is held in reset (R585). -/
def State.masterWrite (s : State) (m : Master) (a : Nat) (w : Word) : Out :=
  .next (if s.heldReset then s else (s.busWrite m.id (BitVec.ofNat 32 a) w).1)

/-- A command that is a read by a master: nothing while the node is held in reset. -/
def State.masterRead (s : State) (m : Master) (a : Nat) : Out :=
  .next (if s.heldReset then s else (s.busRead m.id (BitVec.ofNat 32 a)).2.2)

/-- The word of the register at `a` with field `f` written. -/
def State.wordWith (s : State) (a : Nat) (f : Fld) (n : Nat) : Word := f.set (s.reg a) n

/-- Key `k` in the high half of a word. -/
def highKey (k : Nat) : Word := BitVec.ofNat 32 (k * 65536)

end Sys2Proof.Machine
end

