-- ==== Sys2Proof/Machine/BusIns.lean ====
section
/-! DEFINITION. The commands that are a write or a read of a register of the field side, the lanes and the trip matrix. -/

namespace Sys2Proof.Machine

/-- REGISTER_WRITE (R45). -/
def execRegisterWrite (m : Master) (addr data : Word) (s : State) : Out := s.masterWrite m addr.toNat data

/-- SQ_CLEAR_WRITE (R51). -/
def execSqClearWrite (m : Master) (addr data : Word) (s : State) : Out := s.masterWrite m addr.toNat data

/-- LK_FIELD_WRITE (R49). -/
def execLkFieldWrite (m : Master) (addr data : Word) (s : State) : Out := s.masterWrite m addr.toNat data

/-- STAGE_LOW_WORD (R55). -/
def execStageLowWord (m : Master) (addr data : Word) (s : State) : Out := s.masterWrite m addr.toNat data

/-- COMMIT_HIGH_WORD (R55). -/
def execCommitHighWord (m : Master) (addr data : Word) (s : State) : Out := s.masterWrite m addr.toNat data

/-! ## Terminals, routing and converters -/

/-- TRM_MODE_WRITE (R108). -/
def execTrmModeWrite (m : Master) (t : Term) (data : Word) (s : State) : Out := s.masterWrite m (A.trmMode t.val) data

/-- PAR_WRITE (R101). -/
def execParWrite (m : Master) (t : Term) (data : Word) (s : State) : Out := s.masterWrite m (A.trmDo t.val) data

/-- EXC_SRC_WRITE (R126). -/
def execExcSrcWrite (m : Master) (i : Source) (data : Word) (s : State) : Out := s.masterWrite m (A.excSrc i.val) data

/-- MUX_TOPT_WRITE (R145): MUX_RLEAD where `rlead`, else MUX_TOPT. -/
def execMuxToptWrite (m : Master) (t : Term) (rlead : Bool) (data : Word) (s : State) : Out :=
  s.masterWrite m (if rlead then A.muxRlead t.val else A.muxTopt t.val) data

/-- CAL_NOW (R125): EXC_CTRL with its period. -/
def execCalNow (m : Master) (period : BitVec 16) (s : State) : Out :=
  s.masterWrite m A.excCtrl (BitVec.ofNat 32 (65536 + period.toNat))

/-- SELFTEST (R175): ASY_CTRL with its other fields as they are. -/
def execSelftest (m : Master) (c : Conv) (s : State) : Out :=
  s.masterWrite m (A.asyCtrl c.val) (s.wordWith (A.asyCtrl c.val) F.asyCtrl_selftest 1)

/-- ASY_DISABLE (R177). -/
def execAsyDisable (m : Master) (c : Conv) (s : State) : Out :=
  s.masterWrite m (A.asyCtrl c.val) (s.wordWith (A.asyCtrl c.val) F.asyCtrl_en 0)

/-- ASY_ENABLE (R177). -/
def execAsyEnable (m : Master) (c : Conv) (s : State) : Out :=
  s.masterWrite m (A.asyCtrl c.val) (s.wordWith (A.asyCtrl c.val) F.asyCtrl_en 1)

/-! ## Modems and the sequencer -/

/-- MODEM_CONNECT (R198). -/
def execModemConnect (m : Master) (h : Modem) (data : Word) (s : State) : Out := s.masterWrite m (A.hrtMcfg h.val) data

/-- SEND (R199). -/
def execSend (m : Master) (h : Modem) (s : State) : Out := s.masterWrite m (A.hrtMcmd h.val) 1

/-- ABORT (R201). -/
def execAbort (m : Master) (h : Modem) (s : State) : Out := s.masterWrite m (A.hrtMcmd h.val) 2

/-- RXCLR (R206). -/
def execRxClr (m : Master) (h : Modem) (s : State) : Out := s.masterWrite m (A.hrtMcmd h.val) 4

/-- COMMIT (R212). -/
def execSeqCommit (m : Master) (s : State) : Out := s.masterWrite m A.seqCtrl 1

/-- COPY (R212). -/
def execSeqCopy (m : Master) (s : State) : Out := s.masterWrite m A.seqCtrl 2

/-! ## Lanes and trips -/

/-- RETIRE (R357). -/
def execRetireLane (m : Master) (l : LaneId) (s : State) : Out := s.masterWrite m A.tlyCtrl (BitVec.ofNat 32 (2 ^ l.val))

/-- RETURN (R357). -/
def execReturnLane (m : Master) (l : LaneId) (s : State) : Out :=
  s.masterWrite m A.tlyCtrl (BitVec.ofNat 32 (2 ^ (4 + l.val)))

/-- THREAD_HALT_COMMAND (R258). -/
def execThreadHaltCommand (m : Master) (at_ : BitVec 22) (t : ThreadId) (s : State) : Out :=
  s.masterWrite m (A.lnTcmd 0) (BitVec.ofNat 32 (2 ^ 30 + at_.toNat * 2 ^ 8 + t.val))

/-- THREAD_RUN_COMMAND (R258). -/
def execThreadRunCommand (m : Master) (t : ThreadId) (s : State) : Out :=
  s.masterWrite m (A.lnTcmd 0) (BitVec.ofNat 32 (2 ^ 31 + t.val))

/-- TRP_RESET (R363). -/
def execTrpReset (m : Master) (terms : Word) (s : State) : Out := s.masterWrite m A.trpReset terms

/-- TRP_CFG_WRITE (R369). -/
def execTrpCfgWrite (m : Master) (n : TripId) (data : Word) (s : State) : Out := s.masterWrite m (A.trpCfg n.val) data

/-! ## Host commands (R391) -/

/-- The word of MGS_HCMD. -/
def hostCommand (code : Nat) (subject : BitVec 16) : Word := BitVec.ofNat 32 (code * 2 ^ 24 + subject.toNat)

/-- ACK_ALARM (R391). -/
def execAckAlarm (m : Master) (subject : BitVec 16) (s : State) : Out := s.masterWrite m A.mgsHcmd (hostCommand 1 subject)

/-- ACK_GROUP (R391). -/
def execAckGroup (m : Master) (subject : BitVec 16) (s : State) : Out := s.masterWrite m A.mgsHcmd (hostCommand 2 subject)

/-- ANSWER (R391). -/
def execAnswer (m : Master) (subject : BitVec 16) (s : State) : Out := s.masterWrite m A.mgsHcmd (hostCommand 3 subject)

/-- DUTY (R391). -/
def execDuty (m : Master) (subject : BitVec 16) (s : State) : Out := s.masterWrite m A.mgsHcmd (hostCommand 4 subject)

/-- ROSTER (R391). -/
def execRoster (m : Master) (subject : BitVec 16) (s : State) : Out := s.masterWrite m A.mgsHcmd (hostCommand 5 subject)

/-- USER (R391). -/
def execUser (m : Master) (code : Byte) (subject : BitVec 16) (s : State) : Out :=
  s.masterWrite m A.mgsHcmd (hostCommand code.toNat subject)

end Sys2Proof.Machine
end

