-- ==== Sys2Proof/Machine/BusRecords.lean ====
section
/-! DEFINITION. The commands that are a write or a read of a register of the journal, the recorder, the clock, the panel,
the network, the lamp room, the update engine, the fault collector and the supply. -/

namespace Sys2Proof.Machine

/-! ## Journal and flash -/

/-- COMPACT_NOW (R424): JNL_CTRL with AGE as it is. -/
def execCompactNow (m : Master) (s : State) : Out :=
  s.masterWrite m A.jnlCtrl (s.wordWith A.jnlCtrl F.jnlCtrl_compactnow 1)

/-- A lookup by master m; where `corr`, its read of the flash corrects a word (R434). -/
def State.lookup (s : State) (m : Master) (cmd : Word) (corr : Bool) : Out :=
  .next (if s.heldReset then s else (s.busWriteWith m.id (BitVec.ofNat 32 A.jnlLook) cmd corr).1)

/-- LOOK_EXACT (R421). -/
def execLookExact (m : Master) (corr : Bool) (s : State) : Out := s.lookup m 1 corr

/-- LOOK_NEXT (R421). -/
def execLookNext (m : Master) (corr : Bool) (s : State) : Out := s.lookup m 2 corr

/-- APPEND (R435). -/
def execAppend (m : Master) (s : State) : Out := s.masterWrite m A.jnlWcmd 1

/-- GOPEN (R435). -/
def execGopen (m : Master) (s : State) : Out := s.masterWrite m A.jnlWcmd 2

/-- GCLOSE (R435). -/
def execGclose (m : Master) (s : State) : Out := s.masterWrite m A.jnlWcmd 4

/-- RAW_READ (R432). -/
def execRawRead (m : Master) (s : State) : Out := s.masterWrite m A.jnlFcmd 1

/-- RAW_PROGRAM (R432). -/
def execRawProgram (m : Master) (s : State) : Out := s.masterWrite m A.jnlFcmd 2

/-- RAW_ERASE (R432). -/
def execRawErase (m : Master) (s : State) : Out := s.masterWrite m A.jnlFcmd 3

/-! ## Event recorder -/

/-- EVR_SWTRIG (R436). -/
def execEvrSwtrig (m : Master) (detail : BitVec 16) (s : State) : Out := s.masterWrite m A.evrSwtrig (detail.zeroExtend 32)

/-- EVR_CLEAR_ARM (R447). -/
def execEvrClearArm (m : Master) (area : BitVec 2) (s : State) : Out :=
  s.masterWrite m A.evrClear (highKey 0xA5A5 + area.zeroExtend 32)

/-- EVR_CLEAR_CONFIRM (R447). -/
def execEvrClearConfirm (m : Master) (area : BitVec 2) (s : State) : Out :=
  s.masterWrite m A.evrClear (highKey 0x5A5A + area.zeroExtend 32)

/-- EVR_WEND_READ (R446). -/
def execEvrWendRead (m : Master) (s : State) : Out := s.masterRead m A.evrWend

/-! ## Real-time clock -/

/-- The register of a time field (R459). -/
def timeAddr : TimeField → Nat
  | .subsec => A.rtcSubsec
  | .sec => A.rtcSec
  | .min => A.rtcMin
  | .hour => A.rtcHour
  | .date => A.rtcDate
  | .month => A.rtcMonth
  | .year => A.rtcYear

/-- RTC_SHADOW_FREEZE (R459): a read of a time register. -/
def execRtcShadowFreeze (m : Master) (field : TimeField) (s : State) : Out := s.masterRead m (timeAddr field)

/-- RTC_YEAR_READ (R459). -/
def execRtcYearRead (m : Master) (s : State) : Out := s.masterRead m A.rtcYear

/-- RTC_FIELD_STAGE (R461): a write of a time register. -/
def execRtcFieldStage (m : Master) (field : TimeField) (data : Word) (s : State) : Out :=
  s.masterWrite m (timeAddr field) data

/-- RTC_COMMIT (R462). -/
def execRtcCommit (m : Master) (data : Word) (s : State) : Out := s.masterWrite m A.rtcYear data

/-- OSF_CLEAR (R464). -/
def execOsfClear (m : Master) (s : State) : Out := s.masterWrite m A.rtcFclr 1

/-- LBV_CLEAR (R464). -/
def execLbvClear (m : Master) (s : State) : Out := s.masterWrite m A.rtcFclr 2

/-! ## Panel and network -/

/-- WAVE_COMMIT (R475). -/
def execWaveCommit (m : Master) (s : State) : Out := s.masterWrite m A.pnlWcmd 1

/-- PANEL_MODE_WRITE (R488). -/
def execPanelModeWrite (m : Master) (data : Word) (s : State) : Out := s.masterWrite m A.pnlCtrl data

/-- PORT_DISABLE (R499): NET_PCFG with AMP as it is. -/
def execPortDisable (m : Master) (port : EthPort) (s : State) : Out :=
  s.masterWrite m (A.netPcfg port.val) (s.wordWith (A.netPcfg port.val) F.netPcfg_en 0)

/-- MDIO_ACCESS (R528). -/
def execMdioAccess (m : Master) (data : Word) (s : State) : Out := s.masterWrite m A.netMdio data

/-- ASSOCIATION_CONFIG (R529). -/
def execAssociationConfig (m : Master) (a : Assoc) (data : Word) (s : State) : Out :=
  s.masterWrite m (A.netAcfg a.val) data

/-! ## Lamp room -/

/-- READY (R532): MGS_CTRL with WDT as it is. -/
def execReady (m : Master) (s : State) : Out := s.masterWrite m A.mgsCtrl (s.wordWith A.mgsCtrl F.mgsCtrl_ready 1)

/-- WATCHDOG_KICK (R533). -/
def execWatchdogKick (m : Master) (key : Word) (s : State) : Out := s.masterWrite m A.mgsWdog key

/-- WQPOP (R535). -/
def execWqpop (m : Master) (s : State) : Out := s.masterWrite m A.mgsWqpop 1

/-- SAVE (R537). -/
def execSave (m : Master) (n : BitVec 6) (s : State) : Out :=
  s.masterWrite m A.mgsCfgjCmd (BitVec.ofNat 32 (2 ^ 31 + n.toNat))

/-! ## Update engine -/

/-- The word of UPD_CMD. -/
def updCommand (op : Nat) (kind : BitVec 2) : Word := BitVec.ofNat 32 (kind.toNat * 256 + op)

/-- OPEN (R543). -/
def execOpenTransfer (m : Master) (kind : BitVec 2) (s : State) : Out := s.masterWrite m A.updCmd (updCommand 1 kind)

/-- UPD_DATA_WRITE (R543). -/
def execUpdDataWrite (m : Master) (data : Word) (s : State) : Out := s.masterWrite m A.updData data

/-- CLOSE (R543): the KIND has no part in it, and is that of the transfer. -/
def execCloseTransfer (m : Master) (s : State) : Out := s.masterWrite m A.updCmd (updCommand 2 1)

/-- ABORT of a transfer (R543): the KIND has no part in it. -/
def execUpdAbort (m : Master) (s : State) : Out := s.masterWrite m A.updCmd (updCommand 3 1)

/-- ACTIVATE (R547). -/
def execActivate (m : Master) (kind : BitVec 2) (s : State) : Out := s.masterWrite m A.updCmd (updCommand 4 kind)

/-- ROLLBACK (R547). -/
def execRollback (m : Master) (kind : BitVec 2) (s : State) : Out := s.masterWrite m A.updCmd (updCommand 5 kind)

/-- CONFIRM (R549): of a management image. -/
def execConfirm (m : Master) (s : State) : Out := s.masterWrite m A.updCmd (updCommand 6 2)

/-- KEY (R546). -/
def execKey (m : Master) (s : State) : Out := s.masterWrite m A.updKeycmd 0xF05E

/-! ## Faults and supply -/

/-- SAFE_RELEASE (R561). -/
def execSafeRelease (m : Master) (s : State) : Out := s.masterWrite m A.fltSafe (highKey 0x5AFE)

/-- REARM_F (R557). -/
def execRearmF (m : Master) (s : State) : Out := s.masterWrite m A.fltCtrl 1

/-- REARM_G (R557). -/
def execRearmG (m : Master) (s : State) : Out := s.masterWrite m A.fltCtrl 2

/-- UNHOLD (R562). -/
def execUnhold (m : Master) (s : State) : Out := s.masterWrite m A.fltCtrl 4

/-- FLT_STATUS_CLEAR (R607). -/
def execFltStatusClear (m : Master) (data : Word) (s : State) : Out := s.masterWrite m A.fltStatus data

/-- SOFT_RESET (R585). -/
def execSoftReset (m : Master) (s : State) : Out := s.masterWrite m A.supRst (highKey 0x5253)

end Sys2Proof.Machine
end

