-- ==== Sys2Proof/Machine/System.lean ====
section
/-! DEFINITION. Control registers, exceptions and interrupts of the lamp room core (R285 to R291). -/

namespace Sys2Proof.Machine

/-- Whether the core is in supervisor state (R285). -/
def State.supervisor (s : State) : Bool := decide (mstatS.get s.core.mstat = 1)

/-- Whether *Table: Control registers* lists the number (R286, R287). -/
def csrOk (n : Nat) : Bool := decide (n ≤ 0x0C)

/-- Whether the control register may be written: ECAUSE, EADDR, IPEND and CYCLE are read-only (R286, R287). -/
def csrWritable (n : Nat) : Bool := csrOk n && !([0x02, 0x03, 0x07, 0x0A, 0x0B].contains n)

/-- The value of control register n (R287). -/
def State.csr (s : State) (n : Nat) : Word :=
  let k := s.core
  match n with
  | 0x00 => k.mstat
  | 0x01 => k.epc
  | 0x02 => k.ecause
  | 0x03 => k.eaddr
  | 0x04 => k.eflags
  | 0x05 => k.vbase
  | 0x06 => k.imask
  | 0x07 => s.ipend
  | 0x08 => k.tmr.truncate 32
  | 0x09 => (k.tmr >>> 32).truncate 32
  | 0x0A => k.cycles.truncate 32
  | 0x0B => (k.cycles >>> 32).truncate 32
  | 0x0C => k.scratch
  | _ => 0

/-- IPEND bit 0: TBC is at or above TMR (R287, R288). -/
def Core.timer (k : Core) (tbc : Stamp) : Core :=
  { k with ipend := (k.ipend &&& 0xFFFFFFFE#32) ||| (if k.tmr.toNat ≤ tbc.toNat then 1#32 else 0#32) }

/-- The core with control register n written; reserved bits stay 0 (R55, R287). -/
def Core.putCsr (k : Core) (tbc : Stamp) (n : Nat) (v : Word) : Core :=
  match n with
  | 0x00 => k.setMstat (v &&& 0x3F#32)
  | 0x01 => { k with epc := v }
  | 0x04 => { k with eflags := v &&& 0x1F#32 }
  | 0x05 => { k with vbase := v &&& 0xFFFFFF00#32 }
  | 0x06 => { k with imask := v }
  | 0x08 => { k with tmrStaged := some v }
  | 0x09 =>
    let lo : Word := match k.tmrStaged with
      | none => k.tmr.truncate 32
      | some w => w
    { k with tmr := BitVec.ofNat 64 (v.toNat * 2 ^ 32 + lo.toNat), tmrStaged := none }.timer tbc
  | 0x0C => { k with scratch := v }
  | _ => k

/-- CSRR: in task state every register but CYCLE takes PRIV (R285, R286). -/
def execCsrr (w : Who) (d : Reg) (csr : BitVec 18) (s : State) : Out :=
  .next (s.issueM w (csrOk csr.toNat) fun s c =>
    if !s.supervisor && !(csr.toNat == 0x0A || csr.toNat == 0x0B) then .fault 2 (csr.zeroExtend 32)
    else .done s (c.set d ⟨s.csr csr.toNat, .good⟩))

/-- CSRW: PRIV in task state (R285, R286). -/
def execCsrw (w : Who) (d : Reg) (csr : BitVec 18) (s : State) : Out :=
  .next (s.issueM w (csrWritable csr.toNat) fun s c =>
    if !s.supervisor then .fault 2 (csr.zeroExtend 32)
    else
      let k := { s.core with cpu := c }.putCsr s.tbc csr.toNat (c.get d).val
      .done { s with core := k } k.cpu)

/-- The flags and CT of an EFLAGS word (R287). -/
def Cpu.fromEflags (c : Cpu) (e : Word) : Cpu :=
  c.flags (e.getLsbD 0) (e.getLsbD 1) (e.getLsbD 2) (Tag.ofCode (e.toNat / 8))

/-- ERET (R290): PRIV in task state. -/
def execEret (w : Who) (s : State) : Out :=
  .next (s.issueM w true fun s c =>
    if !s.supervisor then .priv
    else
      let k := s.core
      let m := mstatX.set (mstatIe.set (mstatS.set k.mstat (mstatPs.get k.mstat)) (mstatPie.get k.mstat))
        (mstatPx.get k.mstat)
      let k := { k with cpu := c.fromEflags k.eflags }.setMstat m
      .jump { s with core := k } k.cpu k.epc.toNat)

/-- WFI: idle until an interrupt is pending and enabled in IMASK (R286): PRIV in task state. -/
def execWfi (w : Who) (s : State) : Out :=
  .next (s.issueM w true fun s c =>
    if !s.supervisor then .priv
    else .done (s.modCore fun k => { k with waiting := s.dueInterrupt.isNone }) c)

/-- SYS: its exception in either state; IMM[17:16] are 0 (R285, R286). -/
def execSys (w : Who) (imm : BitVec 18) (s : State) : Out :=
  .next (s.issueM w (decide (imm.toNat < 65536)) fun _ _ => .sys imm.toNat)

/-- Interrupts 6 and 7 are requests without a flag: taking one ends it (DEDUCED, assumption 40). -/
def Core.taken (k : Core) (n : Nat) : Core :=
  if n = 6 ∨ n = 7 then { k with ipend := k.ipend &&& ~~~(BitVec.ofNat 32 (2 ^ n)) } else k

/-- INTERRUPT_ENTRY (R289, R290): the lowest interrupt that is pending and enabled, where IE is 1. -/
def execInterruptEntry (s : State) : Out :=
  .next (match s.dueInterrupt with
    | none => s
    | some n => if mstatIe.get s.core.mstat = 1 then s.modCore fun k => (k.interrupt n).taken n else s)

/-- TIMER_COMPARE (R287, R288): interrupt 0 is pending while TBC is at or above TMR. -/
def execTimerCompare (s : State) : Out := .next (s.modCore fun k => k.timer s.tbc)

end Sys2Proof.Machine
end

