-- ==== Sys2Proof/Machine/CoreBus.lean ====
section
/-! DEFINITION. The lamp room core's loads and stores: its SRAM and boot ROM, and the management bus as master 4 (R39, R44,
R285, R286). -/

namespace Sys2Proof.Machine

/-- Whether an address lies in the SRAM, or in the boot ROM (R38). -/
def inSram (a : Int) : Bool := decide (0x80000000 ≤ a) && decide (a < 0x80040000)
def inRom (a : Int) : Bool := decide (0xFFFF0000 ≤ a) && decide (a < 0x100000000)

/-- The effective address of a memory instruction, computed without wrap (R286). -/
def Cpu.effective (c : Cpu) (a : Reg) (imm : BitVec 18) : Int := (c.get a).val.toNat + imm.toInt

/-- A byte of the SRAM or of the boot ROM. -/
def Core.byteAt (k : Core) (a : Int) : Byte :=
  if inSram a then sget 0 k.sram (a - 0x80000000).toNat else sget 0 k.rom (a - 0xFFFF0000).toNat

/-- The little-endian word at an address of the SRAM or of the boot ROM. -/
def Core.wordAt (k : Core) (a : Int) : Word := k.byteAt (a + 3) ++ k.byteAt (a + 2) ++ k.byteAt (a + 1) ++ k.byteAt a

/-- Bytes stored into the SRAM from address `a`. -/
def Core.storeBytes (k : Core) (a : Int) (bs : List Byte) : Core :=
  { k with sram := sputs 0 k.sram (a - 0x80000000).toNat bs }

/-- A memory instruction with the address `a`: PRIV in task state where it lies outside the SRAM (R285). -/
def State.coreMemory (s : State) (a : Int) (go : Eff) : Eff :=
  if !s.supervisor && !inSram a then .fault 2 (BitVec.ofInt 32 a) else go

/-- The flags of a memory instruction: Z where the access raised a bus error (R286). -/
def Cpu.busFlags (c : Cpu) (err : Bool) : Cpu := c.flags err false false .good

/-- What a load leaves: the value GOOD, or 0 BAD on a bus error. -/
def Cpu.loaded (c : Cpu) (d : Reg) (v : Word) (ok : Bool) : Cpu :=
  (c.set d (if ok then ⟨v, .good⟩ else ⟨0, .bad⟩)).busFlags !ok

/-- LDM (R286). -/
def execLdm (w : Who) (d a : Reg) (imm : BitVec 18) (s : State) : Out :=
  .next (s.issueM w true fun s c =>
    let ea := c.effective a imm
    s.coreMemory ea (
      if inSram ea || inRom ea then
        if ea % 4 = 0 then .done s (c.loaded d (s.core.wordAt ea) true)
        else .done (s.busError 4 1 (BitVec.ofInt 32 ea)) (c.loaded d 0 false)
      else if ea < 0 ∨ 0x100000000 ≤ ea then .done (s.busError 4 1 (BitVec.ofInt 32 ea)) (c.loaded d 0 false)
      else
        let x := s.busRead 4 (BitVec.ofInt 32 ea)
        .done x.2.2 (c.loaded d x.1 x.2.1)))

/-- STM (R286). A write that resets the node leaves the core as the reset does. -/
def execStm (w : Who) (d a : Reg) (imm : BitVec 18) (s : State) : Out :=
  .next (s.issueM w true fun s c =>
    let ea := c.effective a imm
    let v := (c.get d).val
    s.coreMemory ea (
      if inSram ea then
        if ea % 4 = 0 then
          let t := s.modCore fun k => k.storeBytes ea (wordBytes v)
          .done (t.writeSeen s 4 ea.toNat) (c.busFlags false)
        else .done (s.writeRefused 4 (BitVec.ofInt 32 ea)) (c.busFlags true)
      else if inRom ea ∨ ea < 0 ∨ 0x100000000 ≤ ea then
        .done (s.writeRefused 4 (BitVec.ofInt 32 ea)) (c.busFlags true)
      else
        let x := s.busWrite 4 (BitVec.ofInt 32 ea) v
        if x.1.core.cpu = s.core.cpu then .done x.1 (c.busFlags !x.2) else .turn x.1))

/-- LDB (R286). -/
def execLdb (w : Who) (d a : Reg) (imm : BitVec 18) (s : State) : Out :=
  .next (s.issueM w true fun s c =>
    let ea := c.effective a imm
    s.coreMemory ea (
      if inSram ea || inRom ea then .done s (c.loaded d ((s.core.byteAt ea).zeroExtend 32) true)
      else .done (s.busError 4 1 (BitVec.ofInt 32 ea)) (c.loaded d 0 false)))

/-- STB (R286). -/
def execStb (w : Who) (d a : Reg) (imm : BitVec 18) (s : State) : Out :=
  .next (s.issueM w true fun s c =>
    let ea := c.effective a imm
    s.coreMemory ea (
      if inSram ea then
        .done (s.modCore fun k => k.storeBytes ea [(c.get d).val.truncate 8]) (c.busFlags false)
      else .done (s.busError 4 2 (BitVec.ofInt 32 ea)) (c.busFlags true)))

end Sys2Proof.Machine
end

