-- ==== Sys2Proof/Machine/Flow.lean ====
section
/-! DEFINITION. Branches, loops and thread control (R273 to R275, R281). -/

namespace Sys2Proof.Machine

/-- The address a B-format TARGET names for an instruction at `pc`: a code word address in a lane, a word of the
256 KiB region that holds the branch on the core (R273, R284). -/
def codeTarget (w : Who) (pc : Nat) (t : BitVec 16) : Nat :=
  match w with
  | .lane _ _ => t.toNat
  | .core => pc / 0x40000 * 0x40000 + 4 * t.toNat

/-- Bcc (R273). -/
def execBcc (w : Who) (cond : BitVec 4) (target : BitVec 16) (s : State) : Out :=
  .next (s.issue w 1 (condOk cond) fun s c =>
    if c.holds cond then .jump s c (codeTarget w c.pc target) else .done s c)

/-- JAL: the link is the address of the next instruction, tag GOOD (R273, R284). -/
def execJal (w : Who) (d : Reg) (target : BitVec 16) (s : State) : Out :=
  .next (s.issue w 1 true fun s c =>
    .jump s (c.set d ⟨BitVec.ofNat 32 (c.pc + pcStep w), .good⟩) (codeTarget w c.pc target))

/-- JR: PC := the value of ra (R273, R284). -/
def execJr (w : Who) (a : Reg) (s : State) : Out :=
  .next (s.issue w 1 true fun s c => .jump s c (c.get a).val.toNat)

/-- LOOP (R274): ra = w0 names MAX passes; no pass skips the body. -/
def execLoop (w : Who) (a : Reg) (lv : BitVec 2) (body max : BitVec 10) (s : State) : Out :=
  .next (s.issue w 1 (decide (body ≠ 0 ∧ max ≠ 0)) fun s c =>
    let n := if a = 0 then max.toNat else Nat.min (c.get a).val.toNat max.toNat
    if n = 0 then
      .jump s { c with loops := c.loops.modify lv.toNat fun v => { v with active := false } }
        (c.pc + pcStep w * (body.toNat + 1))
    else
      let v : LoopLvl := ⟨true, c.pc + pcStep w, c.pc + pcStep w * body.toNat, n, n⟩
      .done s { c with loops := c.loops.set lv.toNat v })

/-- LEXIT: the level becomes inactive and control passes to TARGET (R273). -/
def execLexit (w : Who) (lv : BitVec 2) (target : BitVec 16) (s : State) : Out :=
  .next (s.issue w 1 true fun s c =>
    .jump s { c with loops := c.loops.modify lv.toNat fun v => { v with active := false } }
      (codeTarget w c.pc target))

/-- NOP (R281). -/
def execNop (w : Who) (s : State) : Out := s.issueCpu w 1 true id

/-- FEND: the thread enters DONE for the frame; it executes with the budget spent (R281). -/
def execFend (w : Who) (s : State) : Out :=
  .next (s.issueLanes w 1 true true fun _ _ _ _ => .stop .done)

/-- HALT: the thread enters HALTED (R281). -/
def execHalt (w : Who) (s : State) : Out :=
  .next (s.issueLanes w 1 false true fun _ _ _ _ => .stop .halted)

/-- LIDX: COUNT − REM of an active level, 0 of an inactive one, tag GOOD (R281). LV is RA[1:0], RA[3:2] are 0. -/
def execLidx (w : Who) (d : Reg) (lv : BitVec 4) (s : State) : Out :=
  s.issueCpu w 1 (decide (lv.toNat < 4)) fun c =>
    let v := c.loops.getD lv.toNat LoopLvl.off
    c.set d ⟨BitVec.ofNat 32 (if v.active then v.count - v.rem else 0), .good⟩

end Sys2Proof.Machine
end

