-- ==== Sys2Proof/Machine/HandOn.lean ====
section
/-! DEFINITION. The hand-on of voted transactions to their destinations, and voters that disagree (R280, R348 to R350,
R372). -/

namespace Sys2Proof.Machine

/-! ## Voters (R349, R350) -/

/-- Whether voter v is in service: its bit of TLY_STATE.VOTERS. -/
def State.voterIn (s : State) (v : Nat) : Bool := (s.fld A.tlyState F.tlyState_voters).testBit v

/-- The voters in service. -/
def State.voters (s : State) : List Nat := (List.range 3).filter s.voterIn

/-- Whether voter v's last disagreement is its third within 1,000 frames. -/
def State.thirdDisagreement (s : State) (v : Nat) : Bool :=
  match s.tly.voterHistory.getD v [] with
  | a :: _ :: c :: _ => decide (a < c + 1000)
  | _ => false

/-- Voter v is retired. -/
def State.retireVoter (s : State) (v : Nat) : State :=
  let s := (s.setBit (A.tlyVoter v) F.tlyVoter_retired true).setBit A.tlyState ⟨8 + v, 8 + v⟩ false
  (s.event A.tlyStatus F.tlyStatus_voterret).report 58 v

/-- A copy of voter v has been discarded: it has disagreed. -/
def State.voterDisagrees (s : State) (v : Nat) : State :=
  let s := s.modTly fun t => { t with voterHistory := t.voterHistory.modify v fun h => s.frame.k :: h }
  let s := (s.satInc (A.tlyVoter v) F.tlyVoter_total).event A.tlyStatus F.tlyStatus_voterdis
  let s := s.report 56 v
  let s := s.showWindows s.frame.k
  if s.thirdDisagreement v then s.retireVoter v else s

/-- Whether the destination accepts the transaction: at least two voters in service hand on the voted copy (R349, R350). -/
def accepted (good : List Nat) : Bool := decide (2 ≤ good.length)

/-- What the copies do apart from the transaction: one differing copy of three makes its voter disagree; two voters that
are all that remain and differ make a SAFE fault (R350). -/
def State.judge (s : State) (good : List Nat) : State :=
  let bad := s.voters.filter fun v => !good.contains v
  if s.voters.length = 3 then
    match bad with
    | [v] => s.voterDisagrees v
    | _ => s
  else if bad.isEmpty then s
  else (s.report 59 0).safeOn

/-! ## Destinations -/

/-- `n` more transactions are withheld. -/
def State.withhold (s : State) (n : Nat) : State := s.satAdd A.tlyWithheld F.tlyWithheld_count n

/-- The latches of leader n of the voters whose copy is accepted take the state ordered (R349). -/
def State.writeLatches (s : State) (n : Nat) (on : Bool) (good : List Nat) : State :=
  let a := A.outState n
  let was := s.voted n
  let s := good.foldl (fun s v => s.setBit a ⟨4 + v, 4 + v⟩ on) s
  let s := s.setBit a F.outState_voted on
  if was == on then s else s.modField fun f => { f with outDirty := true }

/-- An output command that is discarded (R372, R377). -/
def State.ignoreCommand (s : State) (n : Nat) : State :=
  let s := (s.satInc A.outIgnored F.outIgnored_count).setFld A.outIgnored F.outIgnored_term n
  let s := (s.event A.outStatus F.outStatus_ignored).report 64 n
  s.sendOut n (s.outValue n + 128) s.tbc

/-- An output command at its gate (R372). -/
def State.outputCommand (s : State) (n : Nat) (on : Bool) (good : List Nat) : State :=
  if s.leader n && !s.busy n then s.writeLatches n on good else s.ignoreCommand n

/-- The group of a thread at the JNL crossing. -/
def State.crossGroup (s : State) (t : Nat) : Option CrossGroup := s.tly.groups.find? fun g => g.thread == t

/-- The group of a thread at the JNL crossing replaced. -/
def State.setCross (s : State) (t : Nat) (g : List CrossGroup) : State :=
  s.modTly fun x => { x with groups := (x.groups.filter fun y => y.thread != t) ++ g }

/-- Ring 109 tells thread t that its group was discarded (R356, R411). -/
def State.tellDiscard (s : State) (t : Nat) : State :=
  s.send (mkRec 109 0x50 t ⟨0, .good⟩ 1 s.tly.votedSeam 8)

/-- A journal record or commit marker at the JNL crossing: commit groups are handed on whole, and a withheld member
withholds its group (R317, R348, R356). -/
def State.journalTxn (s : State) (x : Txn) (ok : Bool) : State :=
  let t := x.thread
  match x.body, s.crossGroup t with
  | .groupBegin, _ => (s.withhold (if ok then 0 else 1)).setCross t [⟨t, [], !ok⟩]
  | .journal r, none => if ok then s.offer ⟨3, .lane t false, [r]⟩ else s.withhold 1
  | .journal r, some g =>
    if g.withheld then s.withhold 1
    else if ok then s.setCross t [{ g with recs := g.recs ++ [r] }]
    else (s.withhold (g.recs.length + 2)).setCross t [{ g with withheld := true }]
  | .groupEnd _, none => s.withhold (if ok then 0 else 1)
  | .groupEnd _, some g =>
    let s := s.setCross t []
    if g.withheld then (s.withhold 1).tellDiscard t
    else if !ok then (s.withhold (g.recs.length + 2)).tellDiscard t
    else if g.recs.isEmpty then s.send (mkRec 109 0x50 t ⟨0, .good⟩ 0 s.tbc 8)
    else s.offer ⟨3, .lane t true, g.recs⟩
  | _, _ => s

/-- The ring-114 reply to a voted read (R280). -/
def State.readReply (s : State) (req : Nat) (v : Word) (ok : Bool) : State :=
  s.send (mkRec 114 0xA0 req (if ok then ⟨v, .good⟩ else ⟨0, .bad⟩) (if ok then 0 else 1) s.tbc 3)

/-- A voted register read is issued once, as master 3 (R280). -/
def State.votedRead (s : State) (addr : Word) (req : Nat) : State :=
  let x := s.busRead 3 addr
  x.2.2.readReply req x.1 x.2.1

/-- Whether a transaction is for the NET crossing (*Table: Hand-on by transaction kind*). -/
def forNet : TxnBody → Bool
  | .snxPoint _ _ | .snxAlarm _ _ _ _ | .snxMsg _ _ _ | .call _ _ _ _ _ _ _ => true
  | _ => false

/-- The transaction acts at its destination, or is withheld. -/
def State.deliverTxn (s : State) (x : Txn) (good : List Nat) : State :=
  let ok := accepted good
  match x.body with
  | .journal _ | .groupBegin | .groupEnd _ => s.journalTxn x ok
  | .output n on _ => if ok then s.outputCommand n on good else s.withhold 1
  | .panel seg level tag => if ok then s.panelTarget seg level tag.code else s.withhold 1
  | .regRead addr req => if ok then s.votedRead addr req else s.withhold 1
  | .regWrite addr data => if ok then (s.busWrite 3 addr data).1 else s.withhold 1
  | _ =>
    if ok then (match s.netTake x with
      | some t => t
      | none => s)
    else s.withhold 1

/-! ## The command -/

/-- Whether the first transaction for NET has to wait at its crossing (R522). -/
def State.netWaits (s : State) : Bool :=
  match s.tly.handOn.find? fun h => forNet h.txn.body with
  | none => false
  | some h => (s.netTake h.txn).isNone

/-- The transaction handed on next: the first, but none for NET while its crossing waits. -/
def State.nextHandOn (s : State) : Option HandOn :=
  s.tly.handOn.find? fun h => !(forNet h.txn.body && s.netWaits)

/-- The end of a hand-on: its time since the seam, and HANDON_LATE once for the frame (R348, R360). -/
def State.timeHandOn (s : State) (beyond : Bool) : State :=
  let d := (s.tbc - s.tly.votedSeam).toNat
  let s := s.lastPeak A.tlyHandon F.tlyHandon_last F.tlyHandon_peak (d / 10)
  if (beyond || decide (20000 < d)) && !s.tly.late then
    ((s.modTly fun t => { t with late := true }).event A.tlyStatus F.tlyStatus_handonlate).report 54 0
  else s

/-- TRANSACTION_HAND_ON (R348 to R350): the next transaction is handed on; `agree v` tells whether voter v's copy is the
voted one. -/
def execTransactionHandOn (agree0 agree1 agree2 : Bool) (s : State) : Out :=
  .next (
    if s.heldReset then s
    else
      match s.nextHandOn with
      | none => s
      | some h =>
        let s := s.modTly fun t => { t with handOn := t.handOn.erase h }
        let good := s.voters.filter fun v => [agree0, agree1, agree2].getD v false
        ((s.judge good).deliverTxn h.txn good).timeHandOn h.beyond)

end Sys2Proof.Machine
end

