-- ==== Sys2Proof/Machine/HartReply.lean ====
section
/-! DEFINITION. The end of a HART reception and what the lamp room takes from a reply to its poll (R199, R204, R205). -/

namespace Sys2Proof.Machine

/-- A flag of HRT_LSTATUS of loop Tm that a poll sets, with its fault (R204). -/
def State.pollFlag (s : State) (n : Nat) (flag : Fld) : State := (s.event (A.hrtLstatus n) flag).report 39 n

/-- Whether the loop current in mA that a variable gives differs by more than 0.1 mA from `ia` in µA (R204). -/
def currentDiffers (v : HartVar) (ia : Nat) : Bool :=
  let q := ieeeToQ v.ieee
  (q.2 || q.1 != 0) && decide (6553600 < (q.1.toInt * 1000 - ia * 65536).natAbs)

/-- A variable that a poll read: to the lanes and to SNX partners, and the loop current (index 245) is compared with the
point's last OK result (R204, R205). -/
def State.pollVar (s : State) (n : Nat) (dev : Byte) (v : HartVar) : State :=
  let s := (s.send (hartRecord n dev v s.tbc)).sendHart n dev v s.tbc
  match (s.loop n).okIa with
  | none => s
  | some ia =>
    if v.index.toNat = 245 ∧ currentDiffers v ia then s.pollFlag n F.hrtLstatus_damismatch else s

/-- The reply to a poll (R204): bits 7 and 4 of the field device status are device malfunction and more status
available (PRESUMED, assumption 80). -/
def State.pollReply (s : State) (r : HartReply) : State :=
  let n := r.loop.val
  let s := if r.dev.getLsbD 7 || r.dev.getLsbD 4 then s.pollFlag n F.hrtLstatus_devstatus else s
  r.vars.foldl (fun s v => s.pollVar n r.dev v) s

/-- RX_DONE (R199): up to 128 bytes are stored; `errIdx` is the first stored byte with a parity or framing error, and
`poll` what the reply says to the lamp room while it owns the modems. -/
def execRxDone (h : Modem) (data : List Byte) (errIdx : Option Nat) (poll : Option HartReply) (s : State) : Out :=
  let k := h.val
  .next (
    if s.modem k = 3 then
      let n := Nat.min data.length 128
      let a := A.hrtMstate k
      let s := (s.putBytes (A.hrtMrxbuf k 0) (data.take 128)).setModem k 4
      let s := (s.setFld a F.hrtMstate_rxlen n).setFld a F.hrtMstate_cd 0
      let e := match errIdx with
        | none => 0xFF
        | some i => if i < n then i else 0xFF
      let s := s.setFld a F.hrtMstate_erridx e
      let s := if e ≠ 0xFF ∨ 128 < data.length then
          (s.event (A.hrtMstatus k) F.hrtMstatus_rxerr).satInc (A.hrtMerr k) F.hrtMerr_rxerrs
        else s
      let s := s.event (A.hrtMstatus k) F.hrtMstatus_rxdone
      match poll with
      | some r => if s.field.owner then s else s.pollReply r
      | none => s
    else s)

end Sys2Proof.Machine
end

