-- ==== Sys2Proof/Machine/HostSpi.lean ====
section
/-! DEFINITION. The host SPI and remote register access: masters 5 and 6 of the management bus (R62 to R73, R525, R608). -/

namespace Sys2Proof.Machine

/-- The state with the host SPI changed. -/
def State.modHsp (s : State) (g : HspSt → HspSt) : State := { s with hsp := g s.hsp }

/-! ## CRC (R65) -/

/-- One bit of CRC-8 with polynomial 0x07. -/
def crc8Bit (c : BitVec 8) (b : Bool) : BitVec 8 := if c.msb != b then (c <<< 1) ^^^ 0x07#8 else c <<< 1

/-- CRC-8 over the low `k` bits of `n`, most significant first. -/
def crc8 (n : Nat) : Nat → BitVec 8 → BitVec 8
  | 0, c => c
  | k + 1, c => crc8 n k (crc8Bit c (n.testBit k))

/-- Bits 79 to 8 of a frame: command or status, address and data (R64). -/
def frameBits (head : Nat) (addr data : Word) : Nat := head * 2 ^ 64 + addr.toNat * 2 ^ 32 + data.toNat

/-- The CRC of a frame (R65). -/
def frameCrc (head : Nat) (addr data : Word) : BitVec 8 := crc8 (frameBits head addr data) 72 0xFF#8

/-- The 80 bits of a response on HSP_MISO (R64). -/
def HspResp.frame (r : HspResp) : Nat := frameBits r.status r.addr r.data * 256 + (frameCrc r.status r.addr r.data).toNat

/-! ## HSP_ATTN (R71, R73) -/

/-- Whether HSP_ATTN is driven low: a flag of HSP_STATUS whose mask bit is set is 1. -/
def State.hspAttn (s : State) : Bool := s.reg A.hspStatus &&& s.reg A.hspAttnMask &&& 0x7F#32 != 0

/-! ## Frames (R66 to R70, R608) -/

/-- The response sent in a frame that begins now: RESET in the first after a node reset, PENDING while an access is in
progress, else the outcome of the last request. -/
def State.hspAnswer (s : State) : HspResp :=
  if s.hsp.first then ⟨0xC0, 0, 0⟩ else if s.hsp.access.isSome then ⟨0xB0, 0, 0⟩ else s.hsp.next

/-- The next response is set. -/
def State.hspReply (s : State) (r : HspResp) : State := s.modHsp fun h => { h with next := r }

/-- The first two checks of a frame (R608): the state after a failure of one, with its status. -/
def State.frameError (s : State) (edges cmd : Nat) (addr data : Word) (crc : Byte) : Option (State × Nat) :=
  if edges ≠ 80 then
    some ((s.satInc A.hspErrcnt F.hspErrcnt_frames).event A.hspStatus F.hspStatus_frameerr, 0xA1)
  else if frameCrc cmd addr data ≠ crc then
    some ((s.satInc A.hspErrcnt F.hspErrcnt_crcs).event A.hspStatus F.hspStatus_crcerr, 0xA0)
  else none

/-- The checks of the command, its fields that must be 0, and HSP_CTRL.ACCESS; a request that passes them is answered, or
starts its access. -/
def State.hspRequest (s : State) (cmd : Nat) (addr data : Word) : State :=
  let bad (a : Word) : State := (s.event A.hspStatus F.hspStatus_badcmd).hspReply ⟨0xA2, a, 0⟩
  let acc := s.fld A.hspCtrl F.hspCtrl_access
  if cmd = 0x00 then if addr = 0 ∧ data = 0 then s.hspReply ⟨0x80, 0, 0⟩ else bad 0
  else if cmd ≠ 0x3C ∧ cmd ≠ 0xC3 then bad 0
  else if cmd = 0x3C ∧ data ≠ 0 then bad addr
  else if acc = 2 ∨ (acc = 1 ∧ cmd = 0xC3) then
    (s.event A.hspStatus F.hspStatus_denied).hspReply ⟨0x92, addr, 0⟩
  else s.modHsp fun h => { h with access := some ⟨decide (cmd = 0xC3), addr, data⟩ }

/-- A frame of the host SPI: a response goes out, and the request, unless it is discarded under R69, is checked and
executed. -/
def State.hspFrame (s : State) (edges cmd : Nat) (addr data : Word) (crc : Byte) : State :=
  if s.heldReset then s
  else
    let pending := !s.hsp.first && s.hsp.access.isSome
    let r := s.hspAnswer
    let s := s.modHsp fun h => { h with miso := r, first := false }
    let s := if pending then s.event A.hspStatus F.hspStatus_pending else s
    match s.frameError edges cmd addr data crc with
    | some (t, status) => if pending then t else t.hspReply ⟨status, 0, 0⟩
    | none => if pending then s else s.hspRequest cmd addr data

/-- HSP_NOP (R66). -/
def execHspNop (edges : Nat) (addr data : Word) (crc : Byte) (s : State) : Out :=
  .next (s.hspFrame edges 0x00 addr data crc)

/-- HSP_READ (R66). -/
def execHspRead (edges : Nat) (addr data : Word) (crc : Byte) (s : State) : Out :=
  .next (s.hspFrame edges 0x3C addr data crc)

/-- HSP_WRITE (R66). -/
def execHspWrite (edges : Nat) (addr data : Word) (crc : Byte) (s : State) : Out :=
  .next (s.hspFrame edges 0xC3 addr data crc)

/-- HSP_BAD_FRAME (R66, R608). -/
def execHspBadFrame (edges : Nat) (cmd : Byte) (addr data : Word) (crc : Byte) (s : State) : Out :=
  .next (s.hspFrame edges cmd.toNat addr data crc)

/-! ## Completion (R67, R68) -/

/-- An access of master m: the state after it, whether it completed, and the data of its response (R68). -/
def State.respond (s : State) (m : Nat) (write : Bool) (addr data : Word) : State × Bool × Word :=
  if write then
    let x := s.busWrite m addr data
    (x.1, x.2, if x.2 then x.1.readBack m addr.toNat else 0)
  else
    let x := s.busRead m addr
    (x.2.2, x.2.1, x.1)

/-- HSP_ACCESS_DONE (R67, R68): the access is made as master 5; one that reset the node has no response (R70). -/
def execHspAccessDone (s : State) : Out :=
  .next (
    match s.hsp.access with
    | none => s
    | some q =>
      let x := s.respond 5 q.write q.addr q.data
      let t := x.1
      if t.hsp.access.isNone then t
      else
        let t := t.modHsp fun h => { h with access := none }
        if x.2.1 then t.hspReply ⟨0x80, q.addr, x.2.2⟩
        else (t.event A.hspStatus F.hspStatus_buserr).hspReply ⟨0x90, q.addr, 0⟩)

/-- REMOTE_ACCESS_DONE (R525, R526): the oldest waiting access is made as master 6 and answered. -/
def execRemoteAccessDone (s : State) : Out :=
  .next (
    match s.net.remote with
    | [] => s
    | q :: t =>
      let s := s.modNet fun n => { n with remote := t }
      let x := s.respond 6 q.write q.addr q.data
      let r : RegResp := ⟨q.req, if x.2.1 then 0x80 else 0x90, q.addr, if x.2.1 then x.2.2 else 0⟩
      (x.1.satInc A.netRcnt F.netRcnt_done).keepResp q.assoc r)

end Sys2Proof.Machine
end

