-- ==== Sys2Proof/Machine/Dispatch.lean ====
section
/-! DEFINITION. One arm per command: a direct call of its meaning. -/

namespace Sys2Proof.Machine

/-- The effect of a command on everything but the queue. -/
def exec (i : Instr) (s : State) : Host.Outcome State Fault Refusal :=
  match i with
  | .registerWrite m addr data => Sys2Proof.Machine.execRegisterWrite m addr data s
  | .sqClearWrite m addr data => Sys2Proof.Machine.execSqClearWrite m addr data s
  | .lkFieldWrite m addr data => Sys2Proof.Machine.execLkFieldWrite m addr data s
  | .stageLowWord m addr data => Sys2Proof.Machine.execStageLowWord m addr data s
  | .commitHighWord m addr data => Sys2Proof.Machine.execCommitHighWord m addr data s
  | .hspNop edges addr data crc => Sys2Proof.Machine.execHspNop edges addr data crc s
  | .hspRead edges addr data crc => Sys2Proof.Machine.execHspRead edges addr data crc s
  | .hspWrite edges addr data crc => Sys2Proof.Machine.execHspWrite edges addr data crc s
  | .hspAccessDone => Sys2Proof.Machine.execHspAccessDone s
  | .groupMeasurement g vfld ifld iout => Sys2Proof.Machine.execGroupMeasurement g vfld ifld iout s
  | .grpOver g => Sys2Proof.Machine.execGrpOver g s
  | .miswireDetect t => Sys2Proof.Machine.execMiswireDetect t s
  | .miswireClear t => Sys2Proof.Machine.execMiswireClear t s
  | .overtempShutdown t => Sys2Proof.Machine.execOvertempShutdown t s
  | .thermalRestart t => Sys2Proof.Machine.execThermalRestart t s
  | .diThresholdCrossing t level => Sys2Proof.Machine.execDiThresholdCrossing t level s
  | .filteredLevelChange t level => Sys2Proof.Machine.execFilteredLevelChange t level s
  | .debounceExpiry t => Sys2Proof.Machine.execDebounceExpiry t s
  | .diInitialLevel t => Sys2Proof.Machine.execDiInitialLevel t s
  | .trmModeWrite m t data => Sys2Proof.Machine.execTrmModeWrite m t data s
  | .modeTransitionEnd t => Sys2Proof.Machine.execModeTransitionEnd t s
  | .parWrite m t data => Sys2Proof.Machine.execParWrite m t data s
  | .gateOrder t => Sys2Proof.Machine.execGateOrder t s
  | .demagEnd t => Sys2Proof.Machine.execDemagEnd t s
  | .currentLimitEngage t => Sys2Proof.Machine.execCurrentLimitEngage t s
  | .overload t => Sys2Proof.Machine.execOverload t s
  | .overloadRetry t => Sys2Proof.Machine.execOverloadRetry t s
  | .openLoad t => Sys2Proof.Machine.execOpenLoad t s
  | .share t => Sys2Proof.Machine.execShare t s
  | .loopShort t => Sys2Proof.Machine.execLoopShort t s
  | .loopRetry t => Sys2Proof.Machine.execLoopRetry t s
  | .dischargeEnd c st => Sys2Proof.Machine.execDischargeEnd c st s
  | .openTestEnd c st mv => Sys2Proof.Machine.execOpenTestEnd c st mv s
  | .steepIntervalEnd c st => Sys2Proof.Machine.execSteepIntervalEnd c st s
  | .retLimit t => Sys2Proof.Machine.execRetLimit t s
  | .complianceLost n => Sys2Proof.Machine.execComplianceLost n s
  | .complianceRegained n => Sys2Proof.Machine.execComplianceRegained n s
  | .excSrcWrite m n data => Sys2Proof.Machine.execExcSrcWrite m n data s
  | .muxToptWrite m t rlead data => Sys2Proof.Machine.execMuxToptWrite m t rlead data s
  | .calNow m period => Sys2Proof.Machine.execCalNow m period s
  | .calibrationSlot => Sys2Proof.Machine.execCalibrationSlot s
  | .calibrationDone n err => Sys2Proof.Machine.execCalibrationDone n err s
  | .cjsRead readings => Sys2Proof.Machine.execCjsRead readings s
  | .windowOpen c st => Sys2Proof.Machine.execWindowOpen c st s
  | .windowClose c st code ovl => Sys2Proof.Machine.execWindowClose c st code ovl s
  | .windowBoundSample c st p n vts ir late => Sys2Proof.Machine.execWindowBoundSample c st p n vts ir late s
  | .cmCheckDone c st => Sys2Proof.Machine.execCmCheckDone c st s
  | .resultSeam c code ovl => Sys2Proof.Machine.execResultSeam c code ovl s
  | .blankStart c => Sys2Proof.Machine.execBlankStart c s
  | .blankEnd c => Sys2Proof.Machine.execBlankEnd c s
  | .blankedWindowEnd c st => Sys2Proof.Machine.execBlankedWindowEnd c st s
  | .converterFail c check => Sys2Proof.Machine.execConverterFail c check s
  | .stageFail c st => Sys2Proof.Machine.execStageFail c st s
  | .stageSelftest c st => Sys2Proof.Machine.execStageSelftest c st s
  | .selftest m c => Sys2Proof.Machine.execSelftest m c s
  | .selftestDone c pass => Sys2Proof.Machine.execSelftestDone c pass s
  | .asyDisable m c => Sys2Proof.Machine.execAsyDisable m c s
  | .asyEnable m c => Sys2Proof.Machine.execAsyEnable m c s
  | .svcMutualCheck failed noThree => Sys2Proof.Machine.execSvcMutualCheck failed noThree s
  | .svcSweep volts iloop load => Sys2Proof.Machine.execSvcSweep volts iloop load s
  | .warmUpEnd t => Sys2Proof.Machine.execWarmUpEnd t s
  | .modemConnect m h data => Sys2Proof.Machine.execModemConnect m h data s
  | .send m h => Sys2Proof.Machine.execSend m h s
  | .abort m h => Sys2Proof.Machine.execAbort m h s
  | .rxClr m h => Sys2Proof.Machine.execRxClr m h s
  | .txDone h => Sys2Proof.Machine.execTxDone h s
  | .noReply h => Sys2Proof.Machine.execNoReply h s
  | .carrierDetect h => Sys2Proof.Machine.execCarrierDetect h s
  | .rxDone h data errIdx poll => Sys2Proof.Machine.execRxDone h data errIdx poll s
  | .unsolicitedFrame h => Sys2Proof.Machine.execUnsolicitedFrame h s
  | .ownerChange => Sys2Proof.Machine.execOwnerChange s
  | .hartPoll h t req => Sys2Proof.Machine.execHartPoll h t req s
  | .frameSeam => Sys2Proof.Machine.execFrameSeam s
  | .inputCut badA badB badC => Sys2Proof.Machine.execInputCut badA badB badC s
  | .frameRelease retrim => Sys2Proof.Machine.execFrameRelease retrim s
  | .inputArrival => Sys2Proof.Machine.execInputArrival s
  | .heartbeat l ticks => Sys2Proof.Machine.execHeartbeat l ticks s
  | .transactionHandOn agree0 agree1 agree2 => Sys2Proof.Machine.execTransactionHandOn agree0 agree1 agree2 s
  | .repairCopyEnd l => Sys2Proof.Machine.execRepairCopyEnd l s
  | .retireLane m l => Sys2Proof.Machine.execRetireLane m l s
  | .returnLane m l => Sys2Proof.Machine.execReturnLane m l s
  | .threadHaltCommand m at_ t => Sys2Proof.Machine.execThreadHaltCommand m at_ t s
  | .threadRunCommand m t => Sys2Proof.Machine.execThreadRunCommand m t s
  | .keepScrub l found => Sys2Proof.Machine.execKeepScrub l found s
  | .add w d a b => Sys2Proof.Machine.execAdd w d a b s
  | .sub w d a b => Sys2Proof.Machine.execSub w d a b s
  | .addu w d a b => Sys2Proof.Machine.execAddu w d a b s
  | .subu w d a b => Sys2Proof.Machine.execSubu w d a b s
  | .addw w d a b => Sys2Proof.Machine.execAddw w d a b s
  | .subw w d a b => Sys2Proof.Machine.execSubw w d a b s
  | .and w d a b => Sys2Proof.Machine.execAnd w d a b s
  | .or w d a b => Sys2Proof.Machine.execOr w d a b s
  | .xor w d a b => Sys2Proof.Machine.execXor w d a b s
  | .shl w d a b => Sys2Proof.Machine.execShl w d a b s
  | .shr w d a b => Sys2Proof.Machine.execShr w d a b s
  | .sar w d a b => Sys2Proof.Machine.execSar w d a b s
  | .min w d a b => Sys2Proof.Machine.execMin w d a b s
  | .max w d a b => Sys2Proof.Machine.execMax w d a b s
  | .minu w d a b => Sys2Proof.Machine.execMinu w d a b s
  | .maxu w d a b => Sys2Proof.Machine.execMaxu w d a b s
  | .mul w d a b => Sys2Proof.Machine.execMul w d a b s
  | .mulh w d a b => Sys2Proof.Machine.execMulh w d a b s
  | .mulq w d a b => Sys2Proof.Machine.execMulq w d a b s
  | .div w d a b => Sys2Proof.Machine.execDiv w d a b s
  | .divu w d a b => Sys2Proof.Machine.execDivu w d a b s
  | .rem w d a b => Sys2Proof.Machine.execRem w d a b s
  | .divq w d a b => Sys2Proof.Machine.execDivq w d a b s
  | .abs w d a => Sys2Proof.Machine.execAbs w d a s
  | .neg w d a => Sys2Proof.Machine.execNeg w d a s
  | .qfi w d a => Sys2Proof.Machine.execQfi w d a s
  | .qti w d a => Sys2Proof.Machine.execQti w d a s
  | .lag w d a b => Sys2Proof.Machine.execLag w d a b s
  | .addi w d a imm => Sys2Proof.Machine.execAddi w d a imm s
  | .addwi w d a imm => Sys2Proof.Machine.execAddwi w d a imm s
  | .andi w d a imm => Sys2Proof.Machine.execAndi w d a imm s
  | .ori w d a imm => Sys2Proof.Machine.execOri w d a imm s
  | .xori w d a imm => Sys2Proof.Machine.execXori w d a imm s
  | .shli w d a imm => Sys2Proof.Machine.execShli w d a imm s
  | .shri w d a imm => Sys2Proof.Machine.execShri w d a imm s
  | .sari w d a imm => Sys2Proof.Machine.execSari w d a imm s
  | .lui w d imm => Sys2Proof.Machine.execLui w d imm s
  | .cmp w a b => Sys2Proof.Machine.execCmp w a b s
  | .cmpi w a imm => Sys2Proof.Machine.execCmpi w a imm s
  | .tat w a t => Sys2Proof.Machine.execTat w a t s
  | .gtag w d a => Sys2Proof.Machine.execGtag w d a s
  | .stag w d a t => Sys2Proof.Machine.execStag w d a t s
  | .wtag w d a b => Sys2Proof.Machine.execWtag w d a b s
  | .wtagi w d a t => Sys2Proof.Machine.execWtagi w d a t s
  | .ctag w d a => Sys2Proof.Machine.execCtag w d a s
  | .sel w d a b cond => Sys2Proof.Machine.execSel w d a b cond s
  | .bcc w cond target => Sys2Proof.Machine.execBcc w cond target s
  | .jal w d target => Sys2Proof.Machine.execJal w d target s
  | .jr w a => Sys2Proof.Machine.execJr w a s
  | .loop w a lv body max => Sys2Proof.Machine.execLoop w a lv body max s
  | .lexit w lv target => Sys2Proof.Machine.execLexit w lv target s
  | .nop w => Sys2Proof.Machine.execNop w s
  | .fend w => Sys2Proof.Machine.execFend w s
  | .halt w => Sys2Proof.Machine.execHalt w s
  | .lidx w d lv => Sys2Proof.Machine.execLidx w d lv s
  | .ldk w d a imm => Sys2Proof.Machine.execLdk w d a imm s
  | .stk w d a imm => Sys2Proof.Machine.execStk w d a imm s
  | .ldk2 w d a imm => Sys2Proof.Machine.execLdk2 w d a imm s
  | .stk2 w d a imm => Sys2Proof.Machine.execStk2 w d a imm s
  | .take w d ring => Sys2Proof.Machine.execTake w d ring s
  | .wait w d ring => Sys2Proof.Machine.execWait w d ring s
  | .waitEnd l t => Sys2Proof.Machine.execWaitEnd l t s
  | .post w d ring => Sys2Proof.Machine.execPost w d ring s
  | .rcnt w d ring => Sys2Proof.Machine.execRcnt w d ring s
  | .frm w d sel => Sys2Proof.Machine.execFrm w d sel s
  | .tadd w d a b => Sys2Proof.Machine.execTadd w d a b s
  | .taddp w d a b => Sys2Proof.Machine.execTaddp w d a b s
  | .tsub w d a b => Sys2Proof.Machine.execTsub w d a b s
  | .tcmp w a b => Sys2Proof.Machine.execTcmp w a b s
  | .tdue w a => Sys2Proof.Machine.execTdue w a s
  | .tdiff w d a b => Sys2Proof.Machine.execTdiff w d a b s
  | .ttos w d a b => Sys2Proof.Machine.execTtos w d a b s
  | .tqs w d a => Sys2Proof.Machine.execTqs w d a s
  | .tms w d a => Sys2Proof.Machine.execTms w d a s
  | .regr w a imm => Sys2Proof.Machine.execRegr w a imm s
  | .regw w a b => Sys2Proof.Machine.execRegw w a b s
  | .limh w d a b => Sys2Proof.Machine.execLimh w d a b s
  | .liml w d a b => Sys2Proof.Machine.execLiml w d a b s
  | .dlyon w d a b => Sys2Proof.Machine.execDlyon w d a b s
  | .dlyoff w d a b => Sys2Proof.Machine.execDlyoff w d a b s
  | .dly w d a b => Sys2Proof.Machine.execDly w d a b s
  | .alm w d a b => Sys2Proof.Machine.execAlm w d a b s
  | .ack w d a b => Sys2Proof.Machine.execAck w d a b s
  | .gsup w d a b => Sys2Proof.Machine.execGsup w d a b s
  | .fup w d a => Sys2Proof.Machine.execFup w d a s
  | .runh w d a b => Sys2Proof.Machine.execRunh w d a b s
  | .strt w d a b => Sys2Proof.Machine.execStrt w d a b s
  | .call w d a b => Sys2Proof.Machine.execCall w d a b s
  | .esc w d a => Sys2Proof.Machine.execEsc w d a s
  | .cans w d a b => Sys2Proof.Machine.execCans w d a b s
  | .cend w d a => Sys2Proof.Machine.execCend w d a s
  | .outc w d a b => Sys2Proof.Machine.execOutc w d a b s
  | .pnlt w d a b => Sys2Proof.Machine.execPnlt w d a b s
  | .snxpt w d a b => Sys2Proof.Machine.execSnxpt w d a b s
  | .snxae w d a b => Sys2Proof.Machine.execSnxae w d a b s
  | .snxm w d a b => Sys2Proof.Machine.execSnxm w d a b s
  | .kopen w => Sys2Proof.Machine.execKopen w s
  | .kclose w => Sys2Proof.Machine.execKclose w s
  | .krec w d a b => Sys2Proof.Machine.execKrec w d a b s
  | .ldm w d a imm => Sys2Proof.Machine.execLdm w d a imm s
  | .stm w d a imm => Sys2Proof.Machine.execStm w d a imm s
  | .ldb w d a imm => Sys2Proof.Machine.execLdb w d a imm s
  | .stb w d a imm => Sys2Proof.Machine.execStb w d a imm s
  | .csrr w d csr => Sys2Proof.Machine.execCsrr w d csr s
  | .csrw w d csr => Sys2Proof.Machine.execCsrw w d csr s
  | .eret w => Sys2Proof.Machine.execEret w s
  | .wfi w => Sys2Proof.Machine.execWfi w s
  | .sys w imm => Sys2Proof.Machine.execSys w imm s
  | .interruptEntry => Sys2Proof.Machine.execInterruptEntry s
  | .timerCompare => Sys2Proof.Machine.execTimerCompare s
  | .trpReset m terms => Sys2Proof.Machine.execTrpReset m terms s
  | .trpCfgWrite m n data => Sys2Proof.Machine.execTrpCfgWrite m n data s
  | .dupMismatch n => Sys2Proof.Machine.execDupMismatch n s
  | .latchScrub found => Sys2Proof.Machine.execLatchScrub found s
  | .permitToken => Sys2Proof.Machine.execPermitToken s
  | .deferLong => Sys2Proof.Machine.execDeferLong s
  | .staggerSlot => Sys2Proof.Machine.execStaggerSlot s
  | .ackAlarm m subject => Sys2Proof.Machine.execAckAlarm m subject s
  | .ackGroup m subject => Sys2Proof.Machine.execAckGroup m subject s
  | .answer m subject => Sys2Proof.Machine.execAnswer m subject s
  | .duty m subject => Sys2Proof.Machine.execDuty m subject s
  | .roster m subject => Sys2Proof.Machine.execRoster m subject s
  | .user m code subject => Sys2Proof.Machine.execUser m code subject s
  | .journalGroupAccept => Sys2Proof.Machine.execJournalGroupAccept s
  | .groupCommit verified => Sys2Proof.Machine.execGroupCommit verified s
  | .journalRecovery corr => Sys2Proof.Machine.execJournalRecovery corr s
  | .recoveryDone ms boot => Sys2Proof.Machine.execRecoveryDone ms boot s
  | .compactionStart => Sys2Proof.Machine.execCompactionStart s
  | .compactNow m => Sys2Proof.Machine.execCompactNow m s
  | .compactionCopyEnd => Sys2Proof.Machine.execCompactionCopyEnd s
  | .segmentEraseEnd ok => Sys2Proof.Machine.execSegmentEraseEnd ok s
  | .lookExact m corr => Sys2Proof.Machine.execLookExact m corr s
  | .lookNext m corr => Sys2Proof.Machine.execLookNext m corr s
  | .append m => Sys2Proof.Machine.execAppend m s
  | .gopen m => Sys2Proof.Machine.execGopen m s
  | .gclose m => Sys2Proof.Machine.execGclose m s
  | .rawRead m => Sys2Proof.Machine.execRawRead m s
  | .rawProgram m => Sys2Proof.Machine.execRawProgram m s
  | .rawErase m => Sys2Proof.Machine.execRawErase m s
  | .rawFlashDone ok => Sys2Proof.Machine.execRawFlashDone ok s
  | .eventRecordWrite => Sys2Proof.Machine.execEventRecordWrite s
  | .evrSwtrig m detail => Sys2Proof.Machine.execEvrSwtrig m detail s
  | .evrClearArm m area => Sys2Proof.Machine.execEvrClearArm m area s
  | .evrClearConfirm m area => Sys2Proof.Machine.execEvrClearConfirm m area s
  | .evrClearDisarm => Sys2Proof.Machine.execEvrClearDisarm s
  | .evrClearDone => Sys2Proof.Machine.execEvrClearDone s
  | .evrScan => Sys2Proof.Machine.execEvrScan s
  | .evrWendRead m => Sys2Proof.Machine.execEvrWendRead m s
  | .rtcShadowFreeze m field => Sys2Proof.Machine.execRtcShadowFreeze m field s
  | .rtcYearRead m => Sys2Proof.Machine.execRtcYearRead m s
  | .shadowTimeout m => Sys2Proof.Machine.execShadowTimeout m s
  | .rtcFieldStage m field data => Sys2Proof.Machine.execRtcFieldStage m field data s
  | .rtcCommit m data => Sys2Proof.Machine.execRtcCommit m data s
  | .rtcLoad => Sys2Proof.Machine.execRtcLoad s
  | .osfClear m => Sys2Proof.Machine.execOsfClear m s
  | .lbvClear m => Sys2Proof.Machine.execLbvClear m s
  | .rtcSecond => Sys2Proof.Machine.execRtcSecond s
  | .rtcCalibration => Sys2Proof.Machine.execRtcCalibration s
  | .vbatReading mv => Sys2Proof.Machine.execVbatReading mv s
  | .oscillatorStop => Sys2Proof.Machine.execOscillatorStop s
  | .domainReset => Sys2Proof.Machine.execDomainReset s
  | .vbatSwitchover => Sys2Proof.Machine.execVbatSwitchover s
  | .vbatSwitchback => Sys2Proof.Machine.execVbatSwitchback s
  | .gateClose => Sys2Proof.Machine.execGateClose s
  | .gateOpen => Sys2Proof.Machine.execGateOpen s
  | .refreshTick vp vn => Sys2Proof.Machine.execRefreshTick vp vn s
  | .panelTempRead temp ok => Sys2Proof.Machine.execPanelTempRead temp ok s
  | .reassertPass => Sys2Proof.Machine.execReassertPass s
  | .stressRecord => Sys2Proof.Machine.execStressRecord s
  | .waveCommit m => Sys2Proof.Machine.execWaveCommit m s
  | .panelModeWrite m data => Sys2Proof.Machine.execPanelModeWrite m data s
  | .panelClearEnd => Sys2Proof.Machine.execPanelClearEnd s
  | .railFault => Sys2Proof.Machine.execRailFault s
  | .segFault n => Sys2Proof.Machine.execSegFault n s
  | .panelPowerDown => Sys2Proof.Machine.execPanelPowerDown s
  | .ethFrameReceive port fcsOk src ethertype trailer body => Sys2Proof.Machine.execEthFrameReceive port fcsOk src ethertype trailer body s
  | .hello a => Sys2Proof.Machine.execHello a s
  | .helloTimer a => Sys2Proof.Machine.execHelloTimer a s
  | .associationTimeout a => Sys2Proof.Machine.execAssociationTimeout a s
  | .point a => Sys2Proof.Machine.execPoint a s
  | .ackElement a => Sys2Proof.Machine.execAckElement a s
  | .answerElement a => Sys2Proof.Machine.execAnswerElement a s
  | .msg a => Sys2Proof.Machine.execMsg a s
  | .subscribe a => Sys2Proof.Machine.execSubscribe a s
  | .regRd a => Sys2Proof.Machine.execRegRd a s
  | .regWr a => Sys2Proof.Machine.execRegWr a s
  | .imgOpen a => Sys2Proof.Machine.execImgOpen a s
  | .imgData a => Sys2Proof.Machine.execImgData a s
  | .imgClose a => Sys2Proof.Machine.execImgClose a s
  | .imgTimeout => Sys2Proof.Machine.execImgTimeout s
  | .prpSupervision => Sys2Proof.Machine.execPrpSupervision s
  | .pathLost port => Sys2Proof.Machine.execPathLost port s
  | .portDisable m port => Sys2Proof.Machine.execPortDisable m port s
  | .linkChange port up low => Sys2Proof.Machine.execLinkChange port up low s
  | .ptpSync p ident theta rate => Sys2Proof.Machine.execPtpSync p ident theta rate s
  | .ptpAnnounce p d utcValid utcOfs => Sys2Proof.Machine.execPtpAnnounce p d utcValid utcOfs s
  | .syncLoss both => Sys2Proof.Machine.execSyncLoss both s
  | .holdoverExpiry => Sys2Proof.Machine.execHoldoverExpiry s
  | .rtcShipSet => Sys2Proof.Machine.execRtcShipSet s
  | .timeElementTimer => Sys2Proof.Machine.execTimeElementTimer s
  | .canFrameReceive c ext id data => Sys2Proof.Machine.execCanFrameReceive c ext id data s
  | .busOff c => Sys2Proof.Machine.execBusOff c s
  | .busOffRecovery c => Sys2Proof.Machine.execBusOffRecovery c s
  | .mdioAccess m data => Sys2Proof.Machine.execMdioAccess m data s
  | .associationConfig m a data => Sys2Proof.Machine.execAssociationConfig m a data s
  | .lampRoomReset => Sys2Proof.Machine.execLampRoomReset s
  | .ready m => Sys2Proof.Machine.execReady m s
  | .readyTimeout => Sys2Proof.Machine.execReadyTimeout s
  | .watchdogKick m key => Sys2Proof.Machine.execWatchdogKick m key s
  | .watchdogExpiry => Sys2Proof.Machine.execWatchdogExpiry s
  | .wqpop m => Sys2Proof.Machine.execWqpop m s
  | .save m n => Sys2Proof.Machine.execSave m n s
  | .sensorSample temps tsw vmon vfld ifld => Sys2Proof.Machine.execSensorSample temps tsw vmon vfld ifld s
  | .nodeRecord => Sys2Proof.Machine.execNodeRecord s
  | .openTransfer m kind => Sys2Proof.Machine.execOpenTransfer m kind s
  | .updDataWrite m data => Sys2Proof.Machine.execUpdDataWrite m data s
  | .closeTransfer m => Sys2Proof.Machine.execCloseTransfer m s
  | .updAbort m => Sys2Proof.Machine.execUpdAbort m s
  | .slotEraseDone => Sys2Proof.Machine.execSlotEraseDone s
  | .verificationDone => Sys2Proof.Machine.execVerificationDone s
  | .activate m kind => Sys2Proof.Machine.execActivate m kind s
  | .rollback m kind => Sys2Proof.Machine.execRollback m kind s
  | .confirm m => Sys2Proof.Machine.execConfirm m s
  | .activationLanesStopped => Sys2Proof.Machine.execActivationLanesStopped s
  | .codeLoadDone agree => Sys2Proof.Machine.execCodeLoadDone agree s
  | .keepWriteDone ok => Sys2Proof.Machine.execKeepWriteDone ok s
  | .trialExpiry => Sys2Proof.Machine.execTrialExpiry s
  | .key m => Sys2Proof.Machine.execKey m s
  | .errorArrival => Sys2Proof.Machine.execErrorArrival s
  | .faultEntry => Sys2Proof.Machine.execFaultEntry s
  | .safeRelease m => Sys2Proof.Machine.execSafeRelease m s
  | .rearmF m => Sys2Proof.Machine.execRearmF m s
  | .rearmG m => Sys2Proof.Machine.execRearmG m s
  | .unhold m => Sys2Proof.Machine.execUnhold m s
  | .fltStatusClear m data => Sys2Proof.Machine.execFltStatusClear m data s
  | .collectorSelfCheck parityOk alone => Sys2Proof.Machine.execCollectorSelfCheck parityOk alone s
  | .inputPresent x v => Sys2Proof.Machine.execInputPresent x v s
  | .inputLost x v => Sys2Proof.Machine.execInputLost x v s
  | .inputLoss hold => Sys2Proof.Machine.execInputLoss hold s
  | .holdSwitchClose => Sys2Proof.Machine.execHoldSwitchClose s
  | .ride lowest => Sys2Proof.Machine.execRide lowest s
  | .holdReady v => Sys2Proof.Machine.execHoldReady v s
  | .holdLow v => Sys2Proof.Machine.execHoldLow v s
  | .logicFailing hold => Sys2Proof.Machine.execLogicFailing hold s
  | .powerReturn => Sys2Proof.Machine.execPowerReturn s
  | .powerGood fldExt => Sys2Proof.Machine.execPowerGood fldExt s
  | .logicRailOut rail => Sys2Proof.Machine.execLogicRailOut rail s
  | .brownout => Sys2Proof.Machine.execBrownout s
  | .fldIlimBegin ifld => Sys2Proof.Machine.execFldIlimBegin ifld s
  | .fldIlimEnd ifld => Sys2Proof.Machine.execFldIlimEnd ifld s
  | .crystalFail => Sys2Proof.Machine.execCrystalFail s
  | .xtalRetry => Sys2Proof.Machine.execXtalRetry s
  | .islandClockMeasure n edge err dcos => Sys2Proof.Machine.execIslandClockMeasure n edge err dcos s
  | .pinReset => Sys2Proof.Machine.execPinReset s
  | .softReset m => Sys2Proof.Machine.execSoftReset m s
  | .seqCommit m => Sys2Proof.Machine.execSeqCommit m s
  | .seqCopy m => Sys2Proof.Machine.execSeqCopy m s
  | .commitCheckDone => Sys2Proof.Machine.execCommitCheckDone s
  | .commitApply => Sys2Proof.Machine.execCommitApply s
  | .cycleStart c => Sys2Proof.Machine.execCycleStart c s
  | .pointSetupStart c => Sys2Proof.Machine.execPointSetupStart c s
  | .converterRelocate c => Sys2Proof.Machine.execConverterRelocate c s
  | .converterRestore c => Sys2Proof.Machine.execConverterRestore c s
  | .hspBadFrame edges cmd addr data crc => Sys2Proof.Machine.execHspBadFrame edges cmd addr data crc s
  | .remoteAccessDone => Sys2Proof.Machine.execRemoteAccessDone s
  | .transmissionComplete medium => Sys2Proof.Machine.execTransmissionComplete medium s
  | .ptpDelayResponse ns => Sys2Proof.Machine.execPtpDelayResponse ns s
  | .oscillatorRestart => Sys2Proof.Machine.execOscillatorRestart s
  | .resetRelease => Sys2Proof.Machine.execResetRelease s
  | .powerOn => Sys2Proof.Machine.execPowerOn s
  | .pllLock => Sys2Proof.Machine.execPllLock s
  | .fuseSensingEnd ok => Sys2Proof.Machine.execFuseSensingEnd ok s
  | .refnCheck c a b => Sys2Proof.Machine.execRefnCheck c a b s
  | .keyProgrammingDone => Sys2Proof.Machine.execKeyProgrammingDone s
  | .inputHandover => Sys2Proof.Machine.execInputHandover s

end Sys2Proof.Machine
end

