-- ==== Sys2Proof/Machine/Tick.lean ====
section
/-! DEFINITION. One tick of the timebase, which passes while no command waits (R25, R540, R583). -/

namespace Sys2Proof.Machine

/-- The seconds of good logic supply (R540): MGS_OPSECS advances by one for each second of ticks. -/
def State.countSecond (s : State) : State :=
  if s.bit A.supState F.supState_railsok && decide ((s.mgs.secondAt).toNat + second ≤ s.tbc.toNat) then
    (s.setPair A.mgsOpsecsLo ((s.pair A.mgsOpsecsLo + 1) % 2 ^ 48)).modMgs
      fun m => { m with secondAt := m.secondAt + BitVec.ofNat 64 second }
  else s

/-- TBC advances by one while it runs (R25, R583). -/
def State.tick (s : State) : State :=
  if s.bit A.tmbState F.tmbState_tbcrun then { s with tbc := s.tbc + 1 }.countSecond else s

end Sys2Proof.Machine
end

