-- ==== Sys2Proof/Safety.lean ====
section
/-! DEFINITION. What counts as a safe step and a safe run: the node goes on to a next state, since every error of the spec
is an effect on its state; and the canonical form every state a step reaches has. -/

namespace Sys2Proof

open Sys2Proof.Machine

/-- Whether an outcome is a next state. -/
def goesOn : Host.Outcome State Fault Refusal → Bool
  | .next _ => true
  | .fault _ => false
  | .refused _ => false

/-- The state after `k` steps, where each of them goes on. -/
def after : Nat → State → Option State
  | 0, s => some s
  | k + 1, s =>
    match step s with
    | .next t => after k t
    | .fault _ => none
    | .refused _ => none

/-- A run of `k` steps is safe: each goes on. -/
def safeRun (k : Nat) (s : State) : Prop := (after k s).isSome

/-- The canonical form of a state: its registers, its flash, the keep memories of the lanes and of the core, and the
core's SRAM list numbers strictly rising and nothing that equals what an unlisted number reads as; there are three lanes. -/
def canonical (s : State) : Bool :=
  swf resetWord s.regs && swf factoryWord s.flash && swf (fun _ => TWord.zero) s.core.keep
    && swf (fun _ => (0 : Byte)) s.core.sram
    && s.lanes.length == 3 && s.lanes.all fun ln => swf (fun _ => TWord.zero) ln.keep

/-! ## When an instruction runs, in the terms of the statements -/

/-- Thread t of lane l executes its next instruction, of `n` slots: its lane executes a frame, the thread is in RUN with
slots for it left of its budget, and the image declares an ISA level (R234, R266). -/
def laneRuns (s : State) (l : LaneId) (t : ThreadId) (n : Nat) : Prop :=
  (s.lane l).executing = true ∧ (s.thread l t).st = .run ∧ (s.thread l t).used + n ≤ s.budget t ∧ 1 ≤ s.isa

/-- The lamp room core executes its next instruction: it does not wait, no interrupt is taken first, and its PC lies in the
SRAM or the boot ROM (R284, R286, R289). -/
def coreRuns (s : State) : Prop := s.coreHeld = false ∧ codeOk s.core.cpu.pc = true

/-- The state after an instruction of `n` cycles of the core that leaves the context `c` and changes nothing else. -/
def coreAfter (s : State) (n : Nat) (c : Cpu) : State :=
  { s with core := { s.core with waiting := false, cycles := s.core.cycles + BitVec.ofNat 64 n, cpu := c } }

/-- The instruction `i` of thread t of lane l completes in `n` slots without a transfer of control, where the thread runs
and the next word is loaded code (R255): the state `s'` it leaves, its thread with the context `c` and the next PC. -/
def laneDoes (s : State) (l : LaneId) (t : ThreadId) (n : Nat) (i : Instr) (s' : State) (c : Cpu) : Prop :=
  laneRuns s l t n → (c.advance 1).pc < s.codeWords → exec i s = .next (s'.finish l t n (c.advance 1))

/-- An instruction of both sets that makes `g` of its register context and changes nothing else completes in `n` slots, on
a lane and on the core. -/
def bothDo (s : State) (n : Nat) (i : Who → Instr) (g : Cpu → Cpu) : Prop :=
  (∀ l t, laneDoes s l t n (i (.lane l t)) s (g (s.thread l t).cpu)) ∧
  (coreRuns s → codeOk ((g s.core.cpu).advance 4).pc = true →
    exec (i .core) s = .next (coreAfter s n ((g s.core.cpu).advance 4)))

/-- The instruction `i` of thread t of lane l transfers control to `p`, a loaded code word, in `n` slots: the state `s'`
it leaves, its thread with the context `c` and the PC `p` (R255, R273, R274). -/
def laneGoes (s : State) (l : LaneId) (t : ThreadId) (n : Nat) (i : Instr) (s' : State) (c : Cpu) (p : Nat) : Prop :=
  laneRuns s l t n → p < s.codeWords → exec i s = .next (s'.finish l t n { c with pc := p })

/-- The core's instruction `i` completes in `n` cycles without a transfer of control: the state `s'` it leaves, the core
with the context `c` and the next PC (R282, R284). -/
def coreDoes (s : State) (n : Nat) (i : Instr) (s' : State) (c : Cpu) : Prop :=
  coreRuns s → codeOk (c.advance 4).pc = true → exec i s = .next (coreAfter s' n (c.advance 4))

/-- An instruction of both sets makes `g` of its register context and transfers control, to `lp` on a lane and to `cp` on
the core. -/
def bothGo (s : State) (i : Who → Instr) (g : Cpu → Cpu) (lp cp : Cpu → Nat) : Prop :=
  (∀ l t, laneGoes s l t 1 (i (.lane l t)) s (g (s.thread l t).cpu) (lp (s.thread l t).cpu)) ∧
  (coreRuns s → codeOk (cp s.core.cpu) = true →
    exec (i .core) s = .next (coreAfter s 1 { g s.core.cpu with pc := cp s.core.cpu }))

/-- The state with keep writes of lane l made in order and transactions of thread t put into the lane's outbox behind
them (R294). -/
def withEffects (s : State) (l : LaneId) (t : ThreadId) (writes : List (Nat × TWord))
    (posts : List (Stamp × TxnBody)) : State :=
  (writes.foldl (fun s p => s.keepPut (.lane l t) p.1 p.2) s).modLane l fun ln => posts.foldl (fun ln p => ln.postTxn t p) ln

/-- Lane l has room for n transactions more in its outbox of 4,096 (R320). -/
def roomFor (s : State) (l : LaneId) (n : Nat) : Prop := (s.lane l).outbox.length + n ≤ 4096

/-! ## Accesses of the management bus, in the terms of the statements -/

/-- The command `c` is a write of `w` by master m to the register at `a`: where the bus accepts it (R45), and the node is
not held in reset, it leaves `t`, and the write watch of the lamp room has seen it (R535). -/
def writeDoes (s : State) (m : Master) (c : Instr) (a : Nat) (w : Word) (t : State) : Prop :=
  s.heldReset = false → s.writeOk m.id a w = true → exec c s = .next (t.writeSeen s m.id a)

/-- The command `c` is a read by master m of the register at `a`: where the bus accepts it it leaves `t`; else a bus error
of the read is reported (R46, R47). -/
def readDoes (s : State) (m : Master) (c : Instr) (a : Nat) (t : State) : Prop :=
  s.heldReset = false →
    (s.readable m.id a = true → exec c s = .next t) ∧
    (s.readable m.id a = false → exec c s = .next (s.busError m.id 1 (BitVec.ofNat 32 a)))

/-! ## Received elements, in the terms of the statements -/

/-- The command `i` is the arrival of an element of TYPE typ from association a: the first such element received, where the
association is UP at a version of at least `least` and the body is in form, is taken and acts as `g`; else it is discarded and
counted; with none received nothing happens (R515, R517, R524). -/
def elemDoes (s : State) (a : Assoc) (i : Instr) (typ least : Nat) (g : State → RxElem → State) : Prop :=
  (∀ e, (s.net.rx.find? fun e => e.assoc == a.val && e.typ == typ) = some e →
    let t : State := { s with net := { s.net with rx := s.net.rx.erase e } }
    (t.elemTaken e least = true → exec i s = .next (g t e)) ∧
    (t.elemTaken e least = false → exec i s = .next (t.satInc A.netCnt F.netCnt_skipped))) ∧
  ((s.net.rx.find? fun e => e.assoc == a.val && e.typ == typ) = none → exec i s = .next s)

end Sys2Proof
end

