-- ==== Sys2Proof/Certificates/Slice0/Obligations.lean ====
section
/-! DEFINITION. The statements for the provers, from the numbered rules of the spec. -/

open Sys2Proof Sys2Proof.Machine

/-! ## The node as a machine of commands -/

/-- A step with a command at the front of the queue runs that command on the state with the queue's rest. -/
def Obligations.StepRunsFrontCommand : Prop :=
  ∀ (s : State) (c : Instr) (rest : List Instr), s.pending = c :: rest → step s = exec c { s with pending := rest }

/-- R23, R25, R540 (an empty queue ticks: the model's choice, assumption 20): with no command waiting a step is one tick
of the timebase. TBC goes up by exactly one while it runs and stands while it does not; MGS_OPSECS counts the seconds of
good logic supply; nothing else changes. -/
def Obligations.IdleStepTicks : Prop :=
  ∀ s : State, s.pending = [] →
    (s.fld A.tmbState F.tmbState_tbcrun ≠ 1 → step s = .next s) ∧
    (s.fld A.tmbState F.tmbState_tbcrun = 1 → ∃ t, step s = .next t ∧ t.tbc = s.tbc + 1 ∧
      (∀ a, a ≠ A.mgsOpsecsLo → a ≠ A.mgsOpsecsLo + 4 → t.reg a = s.reg a) ∧
      t = { s with tbc := s.tbc + 1, regs := t.regs, mgs := t.mgs })

/-- Whatever the state, no command ends the node in a fault or a refusal: every error of the spec is an effect (R556),
and every row of the command table has its meaning. R23, R583: no command but RECOVERY_DONE, which starts it, moves the
timebase, but that a node reset sets it to 0. -/
def Obligations.EveryCommandGoesOn : Prop :=
  ((∀ (c : Instr) (s : State), ∃ t, exec c s = .next t) ∧ ∀ (k : Nat) (s : State), safeRun k s) ∧
  (∀ (c : Instr) (s t : State), canonical s = true → (∀ ms boot, c ≠ .recoveryDone ms boot) → exec c s = .next t →
      t.tbc = s.tbc ∨ t.tbc = 0)

/-- In a state of canonical form, whose registers, flash words, keep words and SRAM bytes are listed once each and only
where they differ from their reset, every step leaves a state of canonical form, with three lanes. -/
def Obligations.CanonicalKept : Prop :=
  ∀ (k : Nat) (s t : State), canonical s = true → after k s = some t → canonical t = true ∧ t.lanes.length = 3

/-- The commands waiting are taken first in, first out, and no command adds one or takes one away: after k steps the
queue is what it was without its first k commands, and the next step runs the command then at its front. -/
def Obligations.QueueInOrder : Prop :=
  ∀ (s : State) (k : Nat), canonical s = true → k ≤ s.pending.length →
    ∃ t, after k s = some t ∧ t.pending = s.pending.drop k ∧
      ∀ (c : Instr) (rest : List Instr), s.pending.drop k = c :: rest →
        ∃ u, after (k + 1) s = some u ∧ exec c { t with pending := rest } = .next u ∧ u.pending = rest

/-- R48, R60, R79, R229, R265, R583, R585: the node after reset. Its form is canonical, no command waits, TBC is 0 and
does not run, the cause is power on; three lanes stand idle with their registers and keep memory 0; every terminal is
off and open; the tally, the fault log, the journal's caddy and the network hold nothing, and the flash is as the
factory leaves it. -/
def Obligations.ResetState : Prop :=
  let s := State.reset
  canonical s = true ∧ s.pending = [] ∧ s.tbc = 0 ∧ s.fld A.tmbState F.tmbState_tbcrun = 0 ∧
  s.fld A.supReset F.supReset_cause = 1 ∧ s.reg A.idIsa = 0x101#32 ∧ s.reg A.idBlkId = 0x10100#32 ∧
  s.lanes.length = 3 ∧ (∀ l : LaneId, (s.lane l).executing = false ∧ (s.lane l).keep = [] ∧ (s.lane l).outbox = []) ∧
  (∀ (l : LaneId) (t : ThreadId) (r : Reg), ((s.thread l t).cpu.get r) = ⟨0#32, .good⟩) ∧
  (∀ n : Term, s.fld (A.trmMode n) F.trmMode_mode = 0 ∧ s.fld (A.trmState n) F.trmState_modeact = 0 ∧
    s.fld (A.trmState n) F.trmState_sw = 0 ∧ s.fld (A.trmState n) F.trmState_loopsw = 0) ∧
  s.tly.crossing = [] ∧ s.tly.store = [] ∧ s.tly.handOn = [] ∧ s.flt.crossing = [] ∧ s.flt.log = [] ∧
  s.jnl.caddy = [] ∧ s.evr.queue = [] ∧ s.net.rx = [] ∧ s.flash = [] ∧ s.upd.xfer = none ∧ s.hsp.access = none

/-- R583: a node reset leaves TBC at 0 and not counting, and an empty queue's tick does not count it; an error detected
meanwhile has the stamp TBC reads, 0. At the end of journal recovery TBC starts from two seconds past the second of the
highest stamp found, TMB_START shows that value, and from there it counts; then the slots are verified, the kept values
read, the lamp room's and the lanes' images begin, and the start-up is at stage 3. -/
def Obligations.TimebaseStart : Prop :=
  ∀ (s : State) (cause k inst seq top : Nat) (ms boot : BitVec 16), canonical s = true →
    let reset := s.nodeReset cause
    let begin_ := (top / 100000000 + 2) * 100000000
    let started := (s.endRecovery ms.toNat).startTbc
    let failing := if started.shed then started.jnlPowerFail else started
    let read := ((List.range 4).foldl State.verifyAtStart failing).readKept
    let up := read.startManagement.startLane
    let told := up.evrEvent 3 (up.fld A.supReset F.supReset_cause) 0 up.tbc
    (reset.tbc = 0 ∧ reset.fld A.tmbState F.tmbState_tbcrun = 0 ∧ reset.tick = reset) ∧
    (∃ e, (s.report k inst).flt.crossing = s.flt.crossing ++ [e] ∧ e.stamp = s.tbc) ∧
    (s.jnl.found = some (seq, top) → begin_ < 2 ^ 64 →
      started.tbc = BitVec.ofNat 64 begin_ ∧ started.pair A.tmbStartLo = begin_ ∧
      started.fld A.tmbState F.tmbState_tbcrun = 1 ∧ started.tick.tbc = BitVec.ofNat 64 begin_ + 1 ∧
      (s.jnlPhase = 0 → s.heldReset = false → exec (.recoveryDone ms boot) s =
        .next ((told.modSup fun p => { p with bootMs := boot.toNat }).setStage 3))) ∧
    (s.jnl.found = none → exec (.recoveryDone ms boot) s = .next s)

/-- R346, R347: one lane in error is masked. Of three outboxes of which two are identical, every transaction of those
two is voted, in its order, the frame is no split frame, and the third lane, where its outbox differs at all, is the one
found in the minority; two identical outboxes are voted whole; two that differ make a split frame from there on, and
what is voted before is a common beginning of both. -/
def Obligations.OneLaneMasked : Prop :=
  ∀ (l m n : LaneId) (x y : List Txn), l ≠ m → l ≠ n → m ≠ n →
    let vote (bs : List Box) : VoteResult := voteFrom (longest bs) 0 bs
    let voted (x : List Txn) : List (Txn × Bool) := x.map fun t => (t, true)
    (∀ bs, bs = [(l, x), (m, x), (n, y)] ∨ bs = [(l, x), (n, y), (m, x)] ∨ bs = [(n, y), (l, x), (m, x)] →
      (vote bs).items = voted x ∧ (vote bs).split = false ∧ (vote bs).odd = if x = y then none else some n) ∧
    ((vote [(l, x), (m, x)]).items = voted x ∧ (vote [(l, x), (m, x)]).split = false) ∧
    (x ≠ y → (vote [(l, x), (n, y)]).split = true ∧
      ∃ z rest, z <+: x ∧ z <+: y ∧ (vote [(l, x), (n, y)]).items = voted z ++ rest ∧ ∀ t ∈ rest, t.2 = true → t.1 ∈ x ∧ t.1 ∈ y)

/-- R346: the decision at a seam. The lanes of the frame without a lane fault, with their heartbeat and without drift
are good; where two good lanes have equal heartbeats, the voting lanes are those two or three whose heartbeats are
equal; where no two have, there is no voting lane. -/
def Obligations.VotingLanes : Prop :=
  ∀ (s : State) (g : List LaneId), g.Nodup → (∀ l ∈ g, s.laneCause l = none) →
    let beat (l : LaneId) := s.tly.arrived.getD l.val none
    let p := s.votingLanes g
    (∀ l ∈ g, (beat l).isSome = true ∧ (s.lane l).fault = .none ∧ s.tly.drifted.contains l = false) ∧
    (∀ l ∈ p, l ∈ g) ∧ (∀ l ∈ p, ∀ m ∈ g, m ∈ p ↔ beat m = beat l) ∧ p.length ≠ 1 ∧
    ((∃ l ∈ g, ∃ m ∈ g, l ≠ m ∧ beat l = beat m) → 2 ≤ p.length) ∧
    (p = [] ↔ ∀ l ∈ g, ∀ m ∈ g, beat l = beat m → l = m)

/-! ## Vupore instructions -/

/-- R236, R238, R271: the results of the arithmetic instructions that can leave their range, with the worse tag of their
operands, saturated and BAD where the result is not representable. -/
def Obligations.SaturatingArithmetic : Prop :=
  ∀ (s : State) (d a b : Reg) (imm : BitVec 18),
    let sat (n : Int) (t : Tag) : TWord :=
      if n < -2147483648 then ⟨0x80000000#32, .bad⟩
      else if 2147483647 < n then ⟨0x7FFFFFFF#32, .bad⟩
      else ⟨BitVec.ofInt 32 n, t⟩
    let satu (n : Int) (t : Tag) : TWord :=
      if n < 0 then ⟨0#32, .bad⟩
      else if 4294967295 < n then ⟨0xFFFFFFFF#32, .bad⟩
      else ⟨BitVec.ofInt 32 n, t⟩
    let byZero (n : Int) : TWord := if n < 0 then ⟨0x80000000#32, .bad⟩ else ⟨0x7FFFFFFF#32, .bad⟩
    let x (c : Cpu) : Int := (c.get a).val.toInt
    let y (c : Cpu) : Int := (c.get b).val.toInt
    let tag (c : Cpu) : Tag := (c.get a).tag.worst (c.get b).tag
    let near (n : Int) (m : Nat) : Int := if n < 0 then -((2 * -n + m) / (2 * m)) else (2 * n + m) / (2 * m)
    bothDo s 1 (.add · d a b) (fun c => c.set d (sat (x c + y c) (tag c))) ∧
    bothDo s 1 (.sub · d a b) (fun c => c.set d (sat (x c - y c) (tag c))) ∧
    bothDo s 1 (.addu · d a b)
      (fun c => c.set d (satu ((c.get a).val.toNat + (c.get b).val.toNat) (tag c))) ∧
    bothDo s 1 (.subu · d a b)
      (fun c => c.set d (satu ((c.get a).val.toNat - ((c.get b).val.toNat : Int)) (tag c))) ∧
    bothDo s 1 (.mul · d a b) (fun c => c.set d (sat (x c * y c) (tag c))) ∧
    bothDo s 1 (.mulq · d a b) (fun c => c.set d (sat ((x c * y c + 32768) / 65536) (tag c))) ∧
    bothDo s 4 (.div · d a b)
      (fun c => c.set d (if y c = 0 then byZero (x c) else sat ((x c).tdiv (y c)) (tag c))) ∧
    bothDo s 4 (.divu · d a b)
      (fun c => c.set d (if (c.get b).val = 0 then ⟨0xFFFFFFFF#32, .bad⟩
        else ⟨BitVec.ofNat 32 ((c.get a).val.toNat / (c.get b).val.toNat), tag c⟩)) ∧
    bothDo s 4 (.rem · d a b)
      (fun c => c.set d (if y c = 0 then ⟨0#32, .bad⟩ else ⟨BitVec.ofInt 32 ((x c).tmod (y c)), tag c⟩)) ∧
    bothDo s 4 (.divq · d a b)
      (fun c => c.set d (if y c = 0 then byZero (x c) else sat ((x c * 65536).tdiv (y c)) (tag c))) ∧
    bothDo s 1 (.abs · d a) (fun c => c.set d (sat (if x c < 0 then -x c else x c) (c.get a).tag)) ∧
    bothDo s 1 (.neg · d a) (fun c => c.set d (sat (-x c) (c.get a).tag)) ∧
    bothDo s 1 (.qfi · d a) (fun c => c.set d (sat (x c * 65536) (c.get a).tag)) ∧
    bothDo s 1 (.qti · d a) (fun c => c.set d ⟨BitVec.ofInt 32 (near (x c) 65536), (c.get a).tag⟩) ∧
    bothDo s 1 (.addi · d a imm) (fun c => c.set d (sat (x c + imm.toInt) (c.get a).tag)) ∧
    bothDo s 1 (.lag · d a b) (fun c =>
      let k : Int := if y c < 0 then 0 else if 65536 < y c then 65536 else y c
      let r := c.get d
      c.set d ⟨BitVec.ofInt 32 (r.val.toInt + ((x c - r.val.toInt) * k + 32768) / 65536),
        if k = y c then r.tag.worst (tag c) else .bad⟩)

/-- R236, R271: the results of the arithmetic instructions whose result is always representable. R264, R270, R272:
compares set Z, N, L and the condition tag and write no register; the tag instructions and SEL write the values and tags
of their rows. -/
def Obligations.WordAndTagInstructions : Prop :=
  (∀ (s : State) (d a b : Reg) (imm : BitVec 18) (wide : BitVec 22),
      let op (f : Word → Word → Word) (c : Cpu) : Cpu :=
        c.set d ⟨f (c.get a).val (c.get b).val, (c.get a).tag.worst (c.get b).tag⟩
      let opi (f : Word → Word) (c : Cpu) : Cpu := c.set d ⟨f (c.get a).val, (c.get a).tag⟩
      bothDo s 1 (.addw · d a b) (op fun x y => x + y) ∧
      bothDo s 1 (.subw · d a b) (op fun x y => x - y) ∧
      bothDo s 1 (.and · d a b) (op fun x y => x &&& y) ∧
      bothDo s 1 (.or · d a b) (op fun x y => x ||| y) ∧
      bothDo s 1 (.xor · d a b) (op fun x y => x ^^^ y) ∧
      bothDo s 1 (.shl · d a b) (op fun x y => if 32 ≤ y.toNat then 0 else x <<< y.toNat) ∧
      bothDo s 1 (.shr · d a b) (op fun x y => if 32 ≤ y.toNat then 0 else x >>> y.toNat) ∧
      bothDo s 1 (.sar · d a b) (op fun x y => x.sshiftRight (if 32 ≤ y.toNat then 31 else y.toNat)) ∧
      bothDo s 1 (.min · d a b) (op fun x y => if y.toInt < x.toInt then y else x) ∧
      bothDo s 1 (.max · d a b) (op fun x y => if x.toInt < y.toInt then y else x) ∧
      bothDo s 1 (.minu · d a b) (op fun x y => if y.toNat < x.toNat then y else x) ∧
      bothDo s 1 (.maxu · d a b) (op fun x y => if x.toNat < y.toNat then y else x) ∧
      bothDo s 1 (.mulh · d a b) (op fun x y => BitVec.ofInt 32 (x.toInt * y.toInt / 4294967296)) ∧
      bothDo s 1 (.addwi · d a imm) (opi fun x => x + imm.signExtend 32) ∧
      bothDo s 1 (.andi · d a imm) (opi fun x => x &&& imm.zeroExtend 32) ∧
      bothDo s 1 (.ori · d a imm) (opi fun x => x ||| imm.zeroExtend 32) ∧
      bothDo s 1 (.xori · d a imm) (opi fun x => x ^^^ imm.zeroExtend 32) ∧
      (imm.toNat < 32 →
        bothDo s 1 (.shli · d a imm) (opi fun x => x <<< imm.toNat) ∧
        bothDo s 1 (.shri · d a imm) (opi fun x => x >>> imm.toNat) ∧
        bothDo s 1 (.sari · d a imm) (opi fun x => x.sshiftRight imm.toNat)) ∧
      bothDo s 1 (.lui · d wide) (fun c => c.set d ⟨wide.zeroExtend 32 <<< 10, .good⟩)) ∧
  (∀ (s : State) (d a b : Reg) (imm : BitVec 18) (t k : BitVec 4),
      let sets (c : Cpu) (z n l : Bool) (ct : Tag) : Cpu := { c with z := z, n := n, l := l, ct := ct }
      let code (t : Tag) : Nat := match t with
        | .good => 0
        | .uncertain => 1
        | .substituted => 2
        | .bad => 3
      bothDo s 1 (.cmp · a b) (fun c =>
        let x := c.get a
        let y := c.get b
        sets c (decide (x.val = y.val)) (decide (x.val.toInt < y.val.toInt)) (decide (x.val.toNat < y.val.toNat))
          (x.tag.worst y.tag)) ∧
      bothDo s 1 (.cmpi · a imm) (fun c =>
        let x := c.get a
        let y : Word := imm.signExtend 32
        sets c (decide (x.val = y)) (decide (x.val.toInt < y.toInt)) (decide (x.val.toNat < y.toNat)) x.tag) ∧
      bothDo s 1 (.gtag · d a) (fun c => c.set d ⟨BitVec.ofNat 32 (code (c.get a).tag), .good⟩) ∧
      bothDo s 1 (.wtag · d a b) (fun c => c.set d ⟨(c.get a).val, (c.get a).tag.worst (c.get b).tag⟩) ∧
      bothDo s 1 (.ctag · d a) (fun c => c.set d ⟨(c.get a).val, (c.get a).tag.worst c.ct⟩) ∧
      (t.toNat < 4 →
        bothDo s 1 (.tat · a t) (fun c => sets c (decide (t.toNat ≤ code (c.get a).tag)) false false .good) ∧
        (∀ u : Tag, code u = t.toNat →
          bothDo s 1 (.stag · d a t) (fun c => c.set d ⟨(c.get a).val, u⟩) ∧
          bothDo s 1 (.wtagi · d a t) (fun c => c.set d ⟨(c.get a).val, (c.get a).tag.worst u⟩))) ∧
      (k.toNat ≤ 10 →
        bothDo s 1 (.sel · d a b k) (fun c =>
          let holds := [true, c.z, !c.z, c.n, !c.n, c.n || c.z, !(c.n || c.z), c.l, !c.l, c.l || c.z, !(c.l || c.z)].getD
            k.toNat false
          let v := if holds then c.get a else c.get b
          c.set d ⟨v.val, v.tag.worst c.ct⟩)))

/-- R235: w0 reads as 0 with tag GOOD and a write to it is discarded; every other register reads back the value and tag
last written to it, and no other register changes. The release of a frame to a lane leaves every register of every
thread 0 with tag GOOD, whatever it held. -/
def Obligations.ThreadRegisters : Prop :=
  ∀ (s : State) (c : Cpu) (r q : Reg) (v : TWord) (l : LaneId) (t : ThreadId) (cmds : List ThreadCmd) (rs : List InRec)
      (fail : Bool), c.regs.length = 16 → s.lanes.length = 3 → (s.lane l).threads.length = 128 →
    c.get 0 = ⟨0#32, .good⟩ ∧ c.set 0 v = c ∧
    (r ≠ 0 → (c.set r v).get r = v) ∧ (q ≠ r → (c.set r v).get q = c.get q) ∧ (c.set r v).regs.length = 16 ∧
    ((s.releaseLane cmds rs fail l).thread l t).cpu.get r = ⟨0#32, .good⟩

/-- R273, R284: branches, links and indirect jumps, and LEXIT. `step` is 1 in a lane and 4 on the core; a target is a
code word address in a lane, and a word of the 256 KiB region that holds the branch on the core. -/
def Obligations.Branches : Prop :=
  ∀ (s : State) (d a : Reg) (k : BitVec 4) (lv : BitVec 2) (target : BitVec 16),
    let holds (c : Cpu) : Bool :=
      [true, c.z, !c.z, c.n, !c.n, c.n || c.z, !(c.n || c.z), c.l, !c.l, c.l || c.z, !(c.l || c.z)].getD k.toNat false
    let there (c : Cpu) : Nat := c.pc / 262144 * 262144 + 4 * target.toNat
    let link (step : Nat) (c : Cpu) : Cpu := c.set d ⟨BitVec.ofNat 32 (c.pc + step), .good⟩
    let leave (c : Cpu) : Cpu := { c with loops := c.loops.modify lv.toNat fun v => { v with active := false } }
    (k.toNat ≤ 10 →
      (∀ l t, holds (s.thread l t).cpu = true →
        laneGoes s l t 1 (.bcc (.lane l t) k target) s (s.thread l t).cpu target.toNat) ∧
      (∀ l t, holds (s.thread l t).cpu = false →
        laneDoes s l t 1 (.bcc (.lane l t) k target) s (s.thread l t).cpu) ∧
      (coreRuns s → holds s.core.cpu = true → codeOk (there s.core.cpu) = true →
        exec (.bcc .core k target) s = .next (coreAfter s 1 { s.core.cpu with pc := there s.core.cpu })) ∧
      (holds s.core.cpu = false → coreDoes s 1 (.bcc .core k target) s s.core.cpu)) ∧
    (∀ l t, laneGoes s l t 1 (.jal (.lane l t) d target) s (link 1 (s.thread l t).cpu) target.toNat) ∧
    (coreRuns s → codeOk (there s.core.cpu) = true →
      exec (.jal .core d target) s = .next (coreAfter s 1 { link 4 s.core.cpu with pc := there s.core.cpu })) ∧
    bothGo s (.jr · a) id (fun c => (c.get a).val.toNat) (fun c => (c.get a).val.toNat) ∧
    bothGo s (.lexit · lv target) leave (fun _ => target.toNat) there

/-- R274: LOOP opens its level over the next `body` words with n passes; with n = 0 it passes over the body. R274: the
completion of the last instruction of the bodies of active levels. The highest active level that ends there with passes
left loops back with one pass less, every higher active level that ends there becomes inactive, and no other level
changes; with no such level the PC advances. -/
def Obligations.Loops : Prop :=
  (∀ (s : State) (a : Reg) (lv : BitVec 2) (body max : BitVec 10), body ≠ 0 → max ≠ 0 →
      let passes (c : Cpu) : Nat := if a = 0 then max.toNat else Nat.min (c.get a).val.toNat max.toNat
      let opens (step : Nat) (c : Cpu) : Cpu :=
        { c with loops := c.loops.set lv.toNat ⟨true, c.pc + step, c.pc + step * body.toNat, passes c, passes c⟩ }
      let skips (c : Cpu) : Cpu := { c with loops := c.loops.modify lv.toNat fun v => { v with active := false } }
      let past (step : Nat) (c : Cpu) : Nat := c.pc + step * (body.toNat + 1)
      (∀ l t, passes (s.thread l t).cpu ≠ 0 →
        laneDoes s l t 1 (.loop (.lane l t) a lv body max) s (opens 1 (s.thread l t).cpu)) ∧
      (∀ l t, passes (s.thread l t).cpu = 0 →
        laneGoes s l t 1 (.loop (.lane l t) a lv body max) s (skips (s.thread l t).cpu) (past 1 (s.thread l t).cpu)) ∧
      (passes s.core.cpu ≠ 0 → coreDoes s 1 (.loop .core a lv body max) s (opens 4 s.core.cpu)) ∧
      (passes s.core.cpu = 0 → coreRuns s → codeOk (past 4 s.core.cpu) = true →
        exec (.loop .core a lv body max) s = .next (coreAfter s 1 { skips s.core.cpu with pc := past 4 s.core.cpu }))) ∧
  (∀ (c : Cpu) (step : Nat), c.loops.length = 4 →
      let lv (v : Nat) : LoopLvl := c.loops.getD v LoopLvl.off
      let ends (v : Nat) : Bool := (lv v).active && (lv v).stop == c.pc
      let closed (v : Nat) : LoopLvl := if ends v then { lv v with active := false } else lv v
      (∀ v < 4, ends v = true → 1 < (lv v).rem → (∀ u, v < u → u < 4 → ends u = true → (lv u).rem ≤ 1) →
        (c.advance step).pc = (lv v).start ∧
        (c.advance step).loops.getD v LoopLvl.off = { lv v with rem := (lv v).rem - 1 } ∧
        (∀ u < 4, u < v → (c.advance step).loops.getD u LoopLvl.off = lv u) ∧
        (∀ u < 4, v < u → (c.advance step).loops.getD u LoopLvl.off = closed u)) ∧
      ((∀ v < 4, ends v = true → (lv v).rem ≤ 1) →
        (c.advance step).pc = c.pc + step ∧ ∀ u < 4, (c.advance step).loops.getD u LoopLvl.off = closed u) ∧
      (c.advance step).regs = c.regs)

/-- R231, R234, R281: NOP does nothing; FEND ends the thread's frame in DONE even with its budget spent, HALT in HALTED
with LN_TPC.PC at the HALT; their slot is counted. LIDX gives the number of the current pass. The lane's frame completes
with its last running thread (R252). R259: a thread that stops leaves its lane's state and keep memory as they were but
for itself: the thread takes the state given, its pending HALT command and its open commit group are dropped, and what
it has posted stays. -/
def Obligations.ThreadControl : Prop :=
  (∀ (s : State) (l : LaneId) (t : ThreadId) (d : Reg) (lv : BitVec 4),
      let th := s.thread l t
      bothDo s 1 .nop id ∧
      ((s.lane l).executing = true → th.st = .run → 1 ≤ s.isa →
        exec (.fend (.lane l t)) s = .next (s.stopThread l t { th with used := th.used + 1 } .done)) ∧
      (laneRuns s l t 1 →
        exec (.halt (.lane l t)) s =
          .next (s.stopThread l t { th with used := th.used + 1, lastPc := th.cpu.pc } .halted)) ∧
      (lv.toNat < 4 → bothDo s 1 (.lidx · d lv) fun c =>
        let v := c.loops.getD lv.toNat LoopLvl.off
        c.set d ⟨BitVec.ofNat 32 (if v.active then v.count - v.rem else 0), .good⟩)) ∧
  (∀ (s : State) (l : LaneId) (t : ThreadId) (th : Thread) (st : ThreadState), (s.lane l).threads.length = 128 →
      s.lanes.length = 3 →
      let u := s.stopThread l t th st
      ((u.thread l t).st = st ∧ (u.thread l t).group = none ∧ (u.thread l t).haltAt = none ∧
        (u.thread l t).used = th.used ∧ (u.thread l t).lastPc = th.lastPc ∧ (u.thread l t).fcode = th.fcode) ∧
      (∀ m a, sget TWord.zero (u.lane m).keep a = sget TWord.zero (s.lane m).keep a) ∧
      (∀ m, m ≠ l → u.lane m = s.lane m) ∧
      (s.lane l).outbox <+: (u.lane l).outbox ∧ u.core = s.core ∧ u.jnl = s.jnl)

/-- R239, R276, R283: a keep instruction whose words the thread may access (on the core: words below 8,192) loads or
stores words with their tags, the pair's even register with the lower address; a store changes no word but those it
stores. R239, R276: a keep word reads back what was stored with its tag, and storing it changes no other word of that
keep memory and no keep memory of another lane; while a repair copies from a donor, the store goes into the lane
repaired too (R352). -/
def Obligations.KeepAccesses : Prop :=
  (∀ (s : State) (l : LaneId) (t : ThreadId) (d a : Reg) (imm : BitVec 18), s.lanes.length = 3 →
      let c := (s.thread l t).cpu
      let k := s.core.cpu
      let at_ (c : Cpu) : Int := (c.get a).val.toNat + imm.toInt
      let odd : Reg := d + 1
      let word (n : Nat) : TWord := sget TWord.zero (s.lane l).keep n
      let wordM (n : Nat) : TWord := sget TWord.zero s.core.keep n
      let pairOk := d.val % 2 = 0 ∧ d ≠ 0
      let st := State.keepPut s (.lane l t)
      (s.keepOk t (at_ c) 1 = true →
        laneDoes s l t 1 (.ldk (.lane l t) d a imm) s (c.set d (word (at_ c).toNat)) ∧
        laneDoes s l t 1 (.stk (.lane l t) d a imm) (st (at_ c).toNat (c.get d)) c) ∧
      (s.keepOk t (at_ c) 2 = true → pairOk →
        laneDoes s l t 2 (.ldk2 (.lane l t) d a imm) s
          ((c.set d (word (at_ c).toNat)).set odd (word ((at_ c).toNat + 1))) ∧
        laneDoes s l t 2 (.stk2 (.lane l t) d a imm)
          ((st (at_ c).toNat (c.get d)).keepPut (.lane l t) ((at_ c).toNat + 1) (c.get odd)) c) ∧
      (0 ≤ at_ k → at_ k < 8192 →
        coreDoes s 1 (.ldk .core d a imm) s (k.set d (wordM (at_ k).toNat)) ∧
        coreDoes s 1 (.stk .core d a imm) (s.keepPut .core (at_ k).toNat (k.get d)) k) ∧
      (0 ≤ at_ k → at_ k < 8191 → pairOk →
        coreDoes s 2 (.ldk2 .core d a imm) s ((k.set d (wordM (at_ k).toNat)).set odd (wordM ((at_ k).toNat + 1))) ∧
        coreDoes s 2 (.stk2 .core d a imm)
          ((s.keepPut .core (at_ k).toNat (k.get d)).keepPut .core ((at_ k).toNat + 1) (k.get odd)) k)) ∧
  (∀ (s : State) (l m : LaneId) (t : ThreadId) (a b : Nat) (v : TWord), canonical s = true →
      let word (s : State) (m : LaneId) (n : Nat) : TWord := sget TWord.zero (s.lane m).keep n
      let u := s.keepPut (.lane l t) a v
      let w := s.keepPut .core a v
      word u l a = v ∧ (b ≠ a → word u m b = word s m b) ∧
      (m ≠ l → s.repairOf l ≠ some m → u.lane m = s.lane m) ∧ (s.repairOf l = some m → word u m a = v) ∧
      u.core = s.core ∧ sget TWord.zero w.core.keep a = v ∧
      (b ≠ a → sget TWord.zero w.core.keep b = sget TWord.zero s.core.keep b) ∧ w.lanes = s.lanes ∧
      canonical u = true ∧ canonical w = true)

/-- R239, R255, R276: a keep access outside the thread's regions takes KEEP_RANGE: no keep word and no register changes,
one slot counts, and the thread enters FAULTED with FCODE 4 and the address of the instruction. R255, R277: a ring the
ring map does not give the thread for the use made of it, a POST to a fixed ring and a pair based on w0 take RING: the
thread stops in FAULTED with FCODE 5, one slot counts, and no ring and no register changes. -/
def Obligations.RangeFaults : Prop :=
  (∀ (s : State) (l : LaneId) (t : ThreadId) (d a : Reg) (imm : BitVec 18), s.lanes.length = 3 →
      (s.lane l).threads.length = 128 →
      let th := s.thread l t
      let ea : Int := (th.cpu.get a).val.toNat + imm.toInt
      let faults (i : Instr) : Prop := ∃ u, exec i s = .next u ∧
        (u.thread l t).st = .faulted ∧ (u.thread l t).fcode = 4 ∧ (u.thread l t).lastPc = th.cpu.pc ∧
        (u.thread l t).used = th.used + 1 ∧ (u.thread l t).cpu = th.cpu ∧
        (∀ m n, sget TWord.zero (u.lane m).keep n = sget TWord.zero (s.lane m).keep n)
      (s.keepOk t ea 1 = false → laneRuns s l t 1 → faults (.ldk (.lane l t) d a imm) ∧ faults (.stk (.lane l t) d a imm)) ∧
      (s.keepOk t ea 2 = false → laneRuns s l t 2 → d.val % 2 = 0 → d ≠ 0 →
        faults (.ldk2 (.lane l t) d a imm) ∧ faults (.stk2 (.lane l t) d a imm))) ∧
  (∀ (s : State) (l : LaneId) (t : ThreadId) (d : Reg) (r : BitVec 7), s.lanes.length = 3 →
      (s.lane l).threads.length = 128 → laneRuns s l t 1 →
      let th := s.thread l t
      let faults (i : Instr) : Prop := ∃ u, exec i s = .next u ∧
        (u.thread l t).st = .faulted ∧ (u.thread l t).fcode = 5 ∧ (u.thread l t).lastPc = th.cpu.pc ∧
        (u.thread l t).used = th.used + 1 ∧ (u.thread l t).cpu = th.cpu ∧ (u.lane l).rings = (s.lane l).rings ∧
        (u.lane l).fixed = (s.lane l).fixed
      (d.val % 2 = 0 → d = 0 ∨ s.mayTake r t = false → faults (.take (.lane l t) d r) ∧ faults (.wait (.lane l t) d r)) ∧
      (d.val % 2 = 0 → d = 0 ∨ 96 ≤ r.toNat ∨ s.mayPost r t = false → faults (.post (.lane l t) d r)) ∧
      (s.mayCount r t = false → faults (.rcnt (.lane l t) d r)))

/-- R243, R248, R250, R277: TAKE, and WAIT at its end, move the oldest entry of a ring the thread may take from into the
pair and set N to whether it is a head or a general-ring entry; an empty ring leaves the pair and sets Z. POST stores an
entry behind the others of a general ring of fewer than 32. RCNT counts a ring. A thread that waited goes on with
WAIT_END. -/
def Obligations.RingTransfer : Prop :=
  ∀ (s : State) (l : LaneId) (t : ThreadId) (d x : Reg) (r : BitVec 7), s.lanes.length = 3 →
    (s.lane l).threads.length = 128 →
    let c := (s.thread l t).cpu
    let odd : Reg := d + 1
    let pairOk := d.val % 2 = 0 ∧ d ≠ 0
    let sets (c : Cpu) (z n : Bool) : Cpu := { c with z := z, n := n, l := false, ct := .good }
    let general := (s.lane l).rings.getD r.toNat []
    let source := (s.lane l).fixed.getD (r.toNat - 96) []
    let low (e : BitVec 64) : Word := BitVec.ofNat 32 e.toNat
    let high (e : BitVec 64) : Word := BitVec.ofNat 32 (e.toNat / 4294967296)
    let tagOf (e : BitVec 64) : Tag := Tag.ofCode (e.toNat / 1073741824)
    let head (e : BitVec 64) : Cpu := sets ((c.set d ⟨high e, tagOf e⟩).set odd ⟨low e, .good⟩) false true
    let plain (e : BitVec 64) : Cpu := sets ((c.set d ⟨low e, .good⟩).set odd ⟨high e, .good⟩) false false
    let without (es : List (BitVec 64)) : State := s.modLane l fun ln => { ln with rings := ln.rings.set r.toNat es }
    let entry : BitVec 64 := BitVec.ofNat 64 ((c.get d).val.toNat * 4294967296 + (c.get d).tag.code * 1073741824
      + (c.get odd).val.toNat % 1073741824)
    let waits := s.modLane l fun ln => ln.putThread t
      { (s.thread l t) with st := .wait, used := (s.thread l t).used + 1, waiting := some (d, r.toNat) }
    (pairOk → s.mayTake r t = true →
      (r.toNat < 96 →
        (∀ e es, general = e :: es →
          laneDoes s l t 1 (.take (.lane l t) d r) (without es) (head e) ∧
          laneDoes s l t 1 (.wait (.lane l t) d r) (without es) (head e)) ∧
        (general = [] →
          laneDoes s l t 1 (.take (.lane l t) d r) s (sets c true false) ∧
          (s.postersDone l r = true → laneDoes s l t 1 (.wait (.lane l t) d r) s (sets c true false)) ∧
          (s.postersDone l r = false → laneRuns s l t 1 → exec (.wait (.lane l t) d r) s = .next waits))) ∧
      (96 ≤ r.toNat →
        (∀ e es, source = e :: es →
          let s' := s.modLane l fun ln => { ln with fixed := ln.fixed.set (r.toNat - 96) es }
          let c' := if e.head then head e.bits else plain e.bits
          laneDoes s l t 1 (.take (.lane l t) d r) s' c' ∧ laneDoes s l t 1 (.wait (.lane l t) d r) s' c') ∧
        (source = [] → laneDoes s l t 1 (.take (.lane l t) d r) s (sets c true false) ∧
          laneDoes s l t 1 (.wait (.lane l t) d r) s (sets c true false)))) ∧
    (pairOk → s.mayPost r t = true → general.length < 32 →
      laneDoes s l t 1 (.post (.lane l t) d r) (without (general ++ [entry])) (sets c false false)) ∧
    (s.mayCount r t = true →
      let n := if r.toNat < 96 then general.length else source.length
      laneDoes s l t 1 (.rcnt (.lane l t) x r) s
        (sets (c.set x ⟨BitVec.ofNat 32 n, .good⟩) (decide (n = 0)) false)) ∧
    (∀ e es, pairOk → s.mayTake r t = true → r.toNat < 96 → general = e :: es → (s.lane l).executing = true →
      (s.thread l t).st = .wait → (s.thread l t).waiting = some (d, r.toNat) → (s.thread l t).used < s.budget t →
      1 ≤ s.isa → ((head e).advance 1).pc < s.codeWords →
      exec (.waitEnd l t) s = .next ((without es).finish l t 1 ((head e).advance 1)))

/-- R245, R255: a POST to a general ring of 32 entries stores nothing, sets Z and takes RING_FULL, which is reported and
does not stop the thread. -/
def Obligations.RingFull : Prop :=
  ∀ (s : State) (l : LaneId) (t : ThreadId) (d : Reg) (r : BitVec 7), s.lanes.length = 3 →
    (s.lane l).threads.length = 128 → canonical s = true →
    let th := s.thread l t
    d.val % 2 = 0 → d ≠ 0 → s.mayPost r t = true → 32 ≤ ((s.lane l).rings.getD r.toNat []).length →
    th.haltAt = none → laneRuns s l t 1 → (th.cpu.advance 1).pc < s.codeWords →
    ∃ u, exec (.post (.lane l t) d r) s = .next u ∧ (u.thread l t).st = .run ∧
      (u.thread l t).cpu = { th.cpu.advance 1 with z := true, n := false, l := false, ct := .good } ∧
      (u.thread l t).used = th.used + 1 ∧ (u.lane l).rings = (s.lane l).rings ∧
      (u.lane l).reports = (s.lane l).reports ++ [⟨t.val, 6, th.cpu.pc, th.used + 1⟩] ∧
      u.fld (A.lnStatus l.val) F.lnStatus_tfault = 1

/-- R278: the time instructions, with unsigned 64-bit sums and differences that saturate with tag BAD, and tags the
worse of the operands; FRM gives the frame's constants and TDUE compares with F(k) (R254). -/
def Obligations.TimeInstructions : Prop :=
  ∀ (s : State) (l : LaneId) (t : ThreadId) (d a b x y : Reg) (sel : BitVec 18),
    d.val % 2 = 0 → d ≠ 0 → a.val % 2 = 0 → a ≠ 0 → b.val % 2 = 0 → b ≠ 0 →
    let odd (r : Reg) : Reg := r + 1
    let ticks (c : Cpu) (r : Reg) : Int := ((c.get r).val.toNat + 4294967296 * (c.get (odd r)).val.toNat : Nat)
    let tag2 (c : Cpu) (r : Reg) : Tag := (c.get r).tag.worst (c.get (odd r)).tag
    let put (c : Cpu) (n : Int) (t : Tag) : Cpu :=
      (c.set d ⟨BitVec.ofInt 32 n, t⟩).set (odd d) ⟨BitVec.ofInt 32 (n / 4294967296), t⟩
    let sat (c : Cpu) (n : Int) (t : Tag) : Cpu :=
      if n < 0 then put c 0 .bad
      else if 18446744073709551615 < n then put c 18446744073709551615 .bad
      else put c n t
    let sat32 (n : Int) (t : Tag) : TWord :=
      if n < -2147483648 then ⟨0x80000000#32, .bad⟩
      else if 2147483647 < n then ⟨0x7FFFFFFF#32, .bad⟩
      else ⟨BitVec.ofInt 32 n, t⟩
    let near (n : Int) (m : Nat) : Int := if n < 0 then -((2 * -n + m) / (2 * m)) else (2 * n + m) / (2 * m)
    let both (c : Cpu) : Tag := (tag2 c a).worst (tag2 c b)
    let ln := s.lane l
    let c := (s.thread l t).cpu
    (sel.toNat < 4 →
      laneDoes s l t 1 (.frm (.lane l t) d sel) s
        (put c ([(ln.fCur.toNat : Int), ln.fPrev.toNat, ln.frame, ln.period].getD sel.toNat 0) .good)) ∧
    laneDoes s l t 1 (.tdue (.lane l t) a) s
      { c with z := decide (ticks c a = ln.fCur.toNat), n := decide (ticks c a < ln.fCur.toNat)
               l := decide (ticks c a < ln.fCur.toNat), ct := tag2 c a } ∧
    bothDo s 1 (.tadd · d a y) (fun c => sat c (ticks c a + (c.get y).val.toInt) ((tag2 c a).worst (c.get y).tag)) ∧
    bothDo s 1 (.taddp · d a b) (fun c => sat c (ticks c a + ticks c b) (both c)) ∧
    bothDo s 1 (.tsub · d a b) (fun c => sat c (ticks c a - ticks c b) (both c)) ∧
    bothDo s 1 (.tcmp · a b) (fun c =>
      { c with z := decide (ticks c a = ticks c b), n := decide (ticks c a < ticks c b)
               l := decide (ticks c a < ticks c b), ct := both c }) ∧
    bothDo s 1 (.tdiff · x a b) (fun c => c.set x (sat32 (ticks c a - ticks c b) (both c))) ∧
    bothDo s 2 (.ttos · x a b)
      (fun c => c.set x (sat32 (near ((ticks c a - ticks c b) * 65536) 100000000) (both c))) ∧
    bothDo s 2 (.tqs · d y) (fun c => sat c (near ((c.get y).val.toInt * 100000000) 65536) (c.get y).tag) ∧
    bothDo s 1 (.tms · d y) (fun c => put c (100000 * (c.get y).val.toNat : Nat) (c.get y).tag)

/-- R279, R280, R320: REGR and REGW post an access the image permits the thread, with the condition tag of their
operands; with a BAD operand, and in an outbox without room, Z is set and nothing is posted; an access the image does
not permit takes TXN. -/
def Obligations.RegisterAccess : Prop :=
  ∀ (s : State) (l : LaneId) (t : ThreadId) (a b : Reg) (req : BitVec 18), s.lanes.length = 3 →
    (s.lane l).threads.length = 128 → req.toNat < 65536 →
    let th := s.thread l t
    let c := th.cpu
    let x := c.get a
    let y := c.get b
    let tag := x.tag.worst y.tag
    let sets (z : Bool) (ct : Tag) : Cpu := { c with z := z, n := false, l := false, ct := ct }
    let sends (b : TxnBody) : State :=
      s.modLane l fun ln => { ln with outbox := ln.outbox ++ [⟨t.val, ln.fCur, b⟩] }
    let refuses (i : Instr) : Prop := laneRuns s l t 1 → ∃ u, exec i s = .next u ∧ (u.thread l t).st = .faulted ∧
      (u.thread l t).fcode = 7 ∧ (th.group = none → (u.lane l).outbox = (s.lane l).outbox)
    (x.tag ≠ .bad → s.mayAccess t false x.val.toNat = true →
      (roomFor s l 1 → laneDoes s l t 1 (.regr (.lane l t) a req) (sends (.regRead x.val req.toNat)) (sets false x.tag)) ∧
      (¬roomFor s l 1 → laneDoes s l t 1 (.regr (.lane l t) a req) (s.markFull l) (sets true x.tag))) ∧
    (x.tag = .bad → laneDoes s l t 1 (.regr (.lane l t) a req) s (sets true .bad)) ∧
    (x.tag ≠ .bad → s.mayAccess t false x.val.toNat = false → refuses (.regr (.lane l t) a req)) ∧
    (tag ≠ .bad → s.mayAccess t true x.val.toNat = true →
      (roomFor s l 1 → laneDoes s l t 1 (.regw (.lane l t) a b) (sends (.regWrite x.val y.val)) (sets false tag)) ∧
      (¬roomFor s l 1 → laneDoes s l t 1 (.regw (.lane l t) a b) (s.markFull l) (sets true tag))) ∧
    (tag = .bad → laneDoes s l t 1 (.regw (.lane l t) a b) s (sets true .bad)) ∧
    (tag ≠ .bad → s.mayAccess t true x.val.toNat = false → refuses (.regw (.lane l t) a b))

/-- R295: LIMH and LIML give the condition with hysteresis, with the worse tag of value and limits; a BAD value or limit
holds the condition with tag BAD. Z tells that the condition is unchanged. R297: one step of a delay timer, by the
states of the timer, for a condition `c` stamped `s` at the seam `f`; due ticks saturate at 2^64 − 1. R296, R297: DLYON,
DLYOFF and DLY apply the on-delay, the off-delay and both to a timer record the thread reaches: TSTATE with the tag of
the condition, TSTAMP where it changed, OUT in RD, TSTAMP in the stamp pair; a BAD condition holds IN. -/
def Obligations.LimitsTimersDelays : Prop :=
  (∀ (s : State) (l : LaneId) (t : ThreadId) (d a b : Reg), b.val % 2 = 0 → b ≠ 0 →
      let odd : Reg := b + 1
      let c := (s.thread l t).cpu
      let old := (c.get d).val.getLsbD 0
      let v : Int := (c.get a).val.toInt
      let lim : Int := (c.get b).val.toInt
      let hyst : Int := max 0 (c.get odd).val.toInt
      let limTag := (c.get b).tag.worst (c.get odd).tag
      let bad := (c.get a).tag = .bad ∨ limTag = .bad
      let sat (n : Int) : Int := max (-2147483648) (min n 2147483647)
      let out (r : Bool) (t : Tag) : Cpu :=
        { c.set d ⟨if r then 1 else 0, t⟩ with z := r == old, n := false, l := false, ct := (c.get d).tag }
      let good := (c.get a).tag.worst limTag
      (bad → laneDoes s l t 1 (.limh (.lane l t) d a b) s (out old .bad) ∧
        laneDoes s l t 1 (.liml (.lane l t) d a b) s (out old .bad)) ∧
      (¬bad →
        laneDoes s l t 1 (.limh (.lane l t) d a b) s
          (out (decide ((if old then sat (lim - hyst) else lim) < v)) good) ∧
        laneDoes s l t 1 (.liml (.lane l t) d a b) s
          (out (decide (v < (if old then sat (lim + hyst) else lim))) good))) ∧
  (∀ (m : Timer) (c : Bool) (s don doff f : Nat),
      let u := timerStep m c s don doff f
      let d := if c then don else doff
      let due := min (s + d) 18446744073709551615
      let changed (out run : Bool) (at_ : Nat) : Prop := u.out = out ∧ u.run = run ∧ u.stamp = at_
      u.inp = c ∧
      (m.run = false → c = m.out → changed m.out false m.stamp) ∧
      (m.run = false → c ≠ m.out → d = 0 → changed c false s) ∧
      (m.run = false → c ≠ m.out → d ≠ 0 → due < f → changed c false due) ∧
      (m.run = false → c ≠ m.out → d ≠ 0 → f ≤ due → changed m.out true due) ∧
      (m.run = true → c = m.out → s ≤ m.stamp → changed m.out false s) ∧
      (m.run = true → c ≠ m.out → m.stamp < f → changed c false m.stamp) ∧
      (m.run = true → c ≠ m.out → f ≤ m.stamp → changed m.out true m.stamp) ∧
      (m.run = true → c = m.out → m.stamp < s → d = 0 → changed c false s) ∧
      (m.run = true → c = m.out → m.stamp < s → d ≠ 0 → due < f → changed c false due) ∧
      (m.run = true → c = m.out → m.stamp < s → d ≠ 0 → f ≤ due → changed (!m.out) true due)) ∧
  (∀ (s : State) (l : LaneId) (t : ThreadId) (d a b : Reg), b.val % 2 = 0 → b ≠ 0 →
      let c := (s.thread l t).cpu
      let base := (c.get a).val.toNat
      let rd := c.get d
      let cfg := (s.kword l base).val.toNat
      let st := (s.kword l (base + 1)).val
      let m : Timer := ⟨st.getLsbD 2, st.getLsbD 1, st.getLsbD 0, s.kpair l (base + 2), false⟩
      let cond := if rd.tag = .bad then st.getLsbD 0 else rd.val.getLsbD 0
      let acts (on off : Bool) (i : Instr) : Prop :=
        let u := timerStep m cond (c.pair b) (if on then cfg / 65536 * 10000000 else 0)
          (if off then cfg % 65536 * 10000000 else 0) (s.lane l).fCur.toNat
        let st' : Word := (if u.run then 4 else 0) ||| (if u.out then 2 else 0) ||| (if u.inp then 1 else 0)
        laneDoes s l t 2 i
          (withEffects s l t ((base + 1, ⟨st', rd.tag⟩) :: if u.wrote then put64 (base + 2) u.stamp else []) [])
          { (c.set d ⟨if u.out then 1 else 0, rd.tag⟩).setPair b u.stamp .good with
            z := u.out == m.out, n := u.out, l := u.run, ct := rd.tag }
      s.keepOk t base 4 = true →
        acts true false (.dlyon (.lane l t) d a b) ∧ acts false true (.dlyoff (.lane l t) d a b) ∧
        acts true true (.dly (.lane l t) d a b))

/-- R299, R300: one step of an alarm point for condition `c`, `sup` telling that its group suppresses it: the change
mask and the new state. R298 to R300: ALM on an alarm the image declares to the thread. A BAD condition leaves ASTATE
with tag BAD and gives mask 0; else ASTATE takes the alarm step with the condition's tag, ASTAMP the later of the stamp
and the group's SUPTICK where ACTIVE changed, and one alarm record is posted where mask bits 3 to 0 are not 0. R301: ACK
of an unacknowledged alarm clears UNACK, stores origin and source, lets an alarm whose effective condition is gone fall
at the stamp, and posts one alarm record; with a BAD origin word or nothing to acknowledge it gives mask 0 and changes
nothing. -/
def Obligations.Alarms : Prop :=
  (∀ (x : AState) (c sup latch : Bool),
      let u := (alarmStep x c sup latch).1
      let mask := (alarmStep x c sup latch).2
      let before := x.cond && !x.supp
      let now := c && !sup
      let falls := !now && x.active && (!latch || !x.unack)
      let rises := now && !x.active
      mask = (if rises then 1 else 0) + (if falls then 2 else 0) + (if rises && !x.unack then 4 else 0)
        + (if now && !before then 16 else 0) + (if before && !now then 32 else 0) ∧
      u = { x with cond := c, supp := c && sup, active := rises || (x.active && !falls), unack := x.unack || rises }) ∧
  (∀ (s : State) (l : LaneId) (t : ThreadId) (d a b : Reg) (base : Nat), b.val % 2 = 0 → b ≠ 0 →
      let c := (s.thread l t).cpu
      let n := (c.get a).val.toNat
      let rd := c.get d
      let w := (s.kword l (base + 5)).val
      let cfg := (s.kword l (base + 4)).val
      let x := AState.of w
      let stamp : Stamp := BitVec.ofNat 64 (c.pair b)
      let acts (sup : Bool) (tick : Nat) : Prop :=
        let u := (alarmStep x (rd.val.getLsbD 0) sup (cfg.getLsbD 15)).1
        let mask := (alarmStep x (rd.val.getLsbD 0) sup (cfg.getLsbD 15)).2
        let ws := (base + 5, ⟨u.word, rd.tag⟩) :: if mask % 4 = 0 then [] else put64 (base + 6) tick
        let posts : List (Stamp × TxnBody) :=
          if mask % 16 = 0 then [] else [(stamp, .journal (s.alarmJrec l t ws n base stamp))]
        let out := { c.set d ⟨BitVec.ofNat 32 mask, rd.tag⟩ with
          z := decide (mask = 0), n := u.active, l := u.unack, ct := rd.tag }
        laneDoes s l t 3 (.alm (.lane l t) d a b) (withEffects s l t ws posts) out
      s.alarmRec t n = some base → (s.decl t).journal = true → roomFor s l 1 →
        (rd.tag = .bad → laneDoes s l t 3 (.alm (.lane l t) d a b) (withEffects s l t [(base + 5, ⟨w, .bad⟩)] [])
          { c.set d ⟨0, .bad⟩ with z := true, n := x.active, l := x.unack, ct := .bad }) ∧
        (rd.tag ≠ .bad → cfg.getLsbD 14 = false → acts false (c.pair b)) ∧
        (∀ g, rd.tag ≠ .bad → cfg.getLsbD 14 = true → s.groupRec t (cfg.toNat % 64) = some g →
          acts ((s.kword l (g + 1)).val.getLsbD 28) (max (c.pair b) (s.kpair l (g + 6))))) ∧
  (∀ (s : State) (l : LaneId) (t : ThreadId) (d a b : Reg) (base : Nat), b.val % 2 = 0 → b ≠ 0 →
      let c := (s.thread l t).cpu
      let n := (c.get a).val.toNat
      let rd := c.get d
      let w := s.kword l (base + 5)
      let x := AState.of w.val
      let stamp : Stamp := BitVec.ofNat 64 (c.pair b)
      let falls := x.active && !(x.cond && !x.supp)
      let org := rd.val.toNat % 16
      let u := { x with
        unack := false, ackOrg := if 6 ≤ org then 5 else org, ackSrc := rd.val.toNat / 256 % 256
        active := x.active && !falls }
      let ws := (base + 5, ⟨u.word, w.tag⟩) :: if falls then put64 (base + 6) (c.pair b) else []
      s.alarmRec t n = some base →
        (rd.tag = .bad ∨ x.unack = false →
          laneDoes s l t 2 (.ack (.lane l t) d a b) s
            { c.set d ⟨0, .good⟩ with z := true, n := x.active, l := x.unack, ct := rd.tag }) ∧
        (rd.tag ≠ .bad → x.unack = true → (s.decl t).journal = true → roomFor s l 1 →
          laneDoes s l t 2 (.ack (.lane l t) d a b)
            (withEffects s l t ws [(stamp, .journal (s.alarmJrec l t ws n base stamp))])
            { c.set d ⟨if falls then 10 else 8, .good⟩ with z := false, n := u.active, l := false, ct := rd.tag }))

/-- R303: one step of a group's suppression for inhibit `c` stamped `s` at seam `f`: the new GSTATE, the new SUPTICK and
the new RELDUE where they change. R302, R303: GSUP on a group the thread reaches stores GSTATE and the ticks that change
with tag GOOD, gives SUPP with the tag of the inhibit, and posts one group record stamped SUPTICK where SUPP changes; a
BAD inhibit holds INH. R302, R304: FUP on an alarm with INGRP 0 changes nothing; on a group's member it counts the
mask's bits, lets an alarm with an earlier activation displace the first-up alarm, clears the first-up when the group
clears, and posts one group record stamped with the alarm's ASTAMP where the event is not 0. R305, R306: RUNH credits
the running time up to the seam, or up to the stamp of a stop, keeps SINCE, REM and SECS, gives RUN with the tag of the
input, and posts one counter record where RUN changes, 360 s have been credited since the last one or the frame is a
power-fail frame; a BAD input holds RUN. R307: STRT counts a start on each rise of its input, saturating, with one
counter record; a BAD input holds SIN. -/
def Obligations.GroupsAndCounters : Prop :=
  (∀ (g : GState) (c : Bool) (s rel due f : Nat),
      let u := gsupStep g c s rel due f
      let starts := g.supp && !g.relrun && g.inh
      let due' := if starts then min (s + rel * 10000000) 18446744073709551615 else due
      let ends := (g.relrun || starts) && decide (due' < f)
      (c = true → u = ({ g with supp := true, relrun := false, inh := true }, if g.supp then none else some s, none)) ∧
      (c = false →
        u.1 = { g with supp := g.supp && !ends, relrun := (g.relrun || starts) && !ends, inh := false } ∧
        u.2.1 = (if ends then some due' else none) ∧ u.2.2 = if starts then some due' else none)) ∧
  (∀ (s : State) (l : LaneId) (t : ThreadId) (d a b : Reg) (base : Nat), b.val % 2 = 0 → b ≠ 0 →
      let c := (s.thread l t).cpu
      let n := (c.get a).val.toNat
      let rd := c.get d
      let g := GState.of (s.kword l (base + 1)).val
      let u := gsupStep g (if rd.tag = .bad then g.inh else rd.val.getLsbD 0) (c.pair b)
        ((s.kword l base).val.toNat / 65536) (s.kpair l (base + 8)) (s.lane l).fCur.toNat
      let tick : Option Nat → Nat → List (Nat × TWord) := fun o at_ => match o with
        | none => []
        | some v => put64 at_ v
      let ws := (base + 1, ⟨u.1.word, .good⟩) :: (tick u.2.1 (base + 6) ++ tick u.2.2 (base + 8))
      let stamp : Stamp := BitVec.ofNat 64 (u.2.1.getD 0)
      s.groupRec t n = some base → (s.decl t).journal = true → roomFor s l 1 →
        laneDoes s l t 2 (.gsup (.lane l t) d a b)
          (withEffects s l t ws (if u.1.supp = g.supp then [] else [(stamp, .journal (s.groupJrec l t ws n base stamp))]))
          { c.set d ⟨if u.1.supp then 1 else 0, rd.tag⟩ with
            z := u.1.supp == g.supp, n := u.1.supp, l := false, ct := rd.tag }) ∧
  (∀ (s : State) (l : LaneId) (t : ThreadId) (d a : Reg) (ab gb : Nat) (o e : Nat),
      let c := (s.thread l t).cpu
      let n := (c.get a).val.toNat
      let rd := c.get d
      let m (i : Nat) : Bool := rd.val.getLsbD i
      let cfg := (s.kword l (ab + 4)).val
      let g := cfg.toNat % 64
      let gs := GState.of (s.kword l (gb + 1)).val
      let first := (s.kword l (gb + 2)).val.toNat % 1024
      let astamp := s.kpair l (ab + 6)
      let fstamp := s.kpair l (gb + 4)
      let clear := decide (gs.nact = 0 ∧ gs.nunack = 0)
      let count (k : Nat) (up down : Bool) : Nat := min (k + (if up then 1 else 0) - (if down then 1 else 0)) 1024
      let nact := count gs.nact (m 0) (m 1)
      let nunack := count gs.nunack (m 2) (m 3)
      let takes := m 0 && (clear || !gs.fvalid || decide (astamp < fstamp ∨ astamp = fstamp ∧ n < first))
      let ends := !clear && decide (nact = 0 ∧ nunack = 0)
      let ev : Nat := (if m 0 && clear then 1 else 0) + (if ends then 2 else 0) + (if takes then 4 else 0)
      let mark (base : Nat) (b : Bool) : Nat × TWord := s.putFirst l base b
      let ws :=
        (if takes && gs.fvalid then [mark o false] else []) ++ (if takes then [mark ab true] else []) ++
        (if ends then [mark e false] else []) ++
        [(gb + 1, ⟨({ gs with nact := nact, nunack := nunack, fvalid := (takes || gs.fvalid) && !ends }).word, .good⟩)] ++
        (if takes then (gb + 2, ⟨BitVec.ofNat 32 n, .good⟩) :: put64 (gb + 4) astamp else [])
      let stamp : Stamp := BitVec.ofNat 64 astamp
      let out (ev : Nat) : Cpu :=
        { c.set d ⟨BitVec.ofNat 32 ev, .good⟩ with z := decide (ev = 0), n := false, l := false, ct := rd.tag }
      s.alarmRec t n = some ab →
        (cfg.getLsbD 14 = false → laneDoes s l t 3 (.fup (.lane l t) d a) s (out 0)) ∧
        (cfg.getLsbD 14 = true → s.groupRec t g = some gb → (s.decl t).journal = true → roomFor s l 1 →
          (takes && gs.fvalid → s.alarmRec t first = some o) →
          (ends → s.alarmRec t (if takes then n else first) = some e) →
          laneDoes s l t 3 (.fup (.lane l t) d a)
            (withEffects s l t ws (if ev = 0 then [] else [(stamp, .journal (s.groupJrec l t ws g gb stamp))])) (out ev))) ∧
  (∀ (s : State) (l : LaneId) (t : ThreadId) (d a b : Reg), b.val % 2 = 0 → b ≠ 0 →
      let c := (s.thread l t).cpu
      let base := (c.get a).val.toNat
      let rd := c.get d
      let st := (s.kword l base).val
      let was := st.getLsbD 0
      let run := if rd.tag = .bad then was else rd.val.getLsbD 0
      let rem := (s.kword l (base + 1)).val.toNat
      let since := s.kpair l (base + 2)
      let secs := s.kpair l (base + 4) % 281474976710656
      let jsecs := (s.kword l (base + 7)).val.toNat
      let f := (s.lane l).fCur.toNat
      let start := if was then since else c.pair b
      let stop := if was && !run then c.pair b else f
      let ticks := if was || run then stop - start else 0
      let rem' := if ticks = 0 then rem else (rem + ticks) % 100000000
      let secs' := if ticks = 0 then secs else min (secs + (rem + ticks) / 100000000) 281474976710655
      let since' := if 0 < ticks then stop else if !was && run then start else since
      let posts := run != was || decide (360 ≤ (secs' % 4294967296 + 4294967296 - jsecs) % 4294967296) ||
        (s.lane l).powerFail
      let ws := [(base, ⟨(if st.getLsbD 1 then 2 else 0) ||| (if run then 1 else 0), .good⟩),
          (base + 1, ⟨BitVec.ofNat 32 rem', .good⟩)] ++ put64 (base + 2) since' ++ put64 (base + 4) secs' ++
        (if posts then [(base + 7, ⟨BitVec.ofNat 32 secs', .good⟩)] else [])
      let stamp : Stamp := BitVec.ofNat 64 (c.pair b)
      s.keepOk t base 8 = true → (s.decl t).journal = true → roomFor s l 1 →
        laneDoes s l t 3 (.runh (.lane l t) d a b)
          (withEffects s l t ws (if posts then [(stamp, .journal (s.counterJrec l t ws base stamp))] else []))
          { c.set d ⟨if run then 1 else 0, rd.tag⟩ with z := run == was, n := run, l := false, ct := rd.tag }) ∧
  (∀ (s : State) (l : LaneId) (t : ThreadId) (d a b : Reg), b.val % 2 = 0 → b ≠ 0 →
      let c := (s.thread l t).cpu
      let base := (c.get a).val.toNat
      let rd := c.get d
      let st := (s.kword l base).val
      let on := if rd.tag = .bad then st.getLsbD 1 else rd.val.getLsbD 0
      let counts := on && !st.getLsbD 1
      let starts := min ((s.kword l (base + 6)).val.toNat + 1) 4294967295
      let ws := (base, ⟨(if on then 2 else 0) ||| (if st.getLsbD 0 then 1 else 0), .good⟩) ::
        if counts then [(base + 6, ⟨BitVec.ofNat 32 starts, .good⟩)] else []
      let stamp : Stamp := BitVec.ofNat 64 (c.pair b)
      s.keepOk t base 8 = true → (s.decl t).journal = true → roomFor s l 1 →
        laneDoes s l t 2 (.strt (.lane l t) d a b)
          (withEffects s l t ws (if counts then [(stamp, .journal (s.counterJrec l t ws base stamp))] else []))
          { c.set d ⟨if on then 1 else 0, rd.tag⟩ with z := !counts, n := false, l := false, ct := rd.tag })

/-- R310: the engineers of a stage: the duty engineer, the next occupied position after it, every occupied position, as
the stage's WHO byte asks. R311 to R313: CALL opens a call in a zone the thread declares, posting the call message of
stage 0 and then the zone record; on a zone that is calling it does nothing. ESC takes at most one step that fell due
before F(k): to the next stage with message and record, or a repetition in the last stage. CANS and CEND end an open
call. A zone the thread does not declare takes TXN (R319). -/
def Obligations.Calls : Prop :=
  (∀ (roster : Word) (who duty e : Nat), who < 16 → duty < 8 → e < 8 →
      let at_ (p : Nat) : Nat := roster.toNat / 16 ^ (p % 8) % 16
      (engineers roster who duty).testBit e = true ↔
        (who.testBit 0 = true ∧ at_ duty = e) ∨
        (who.testBit 1 = true ∧ ∃ i, 1 ≤ i ∧ i < 8 ∧ at_ (duty + i) = e ∧ ∀ j, 1 ≤ j → j < i → 8 ≤ at_ (duty + j)) ∨
        (who.testBit 2 = true ∧ ∃ p < 8, at_ p = e)) ∧
  (∀ (s : State) (l : LaneId) (t : ThreadId) (d a b : Reg) (base : Nat), d.val % 2 = 0 → d ≠ 0 →
      let c := (s.thread l t).cpu
      let n := (c.get a).val.toNat
      let z := s.zone l base
      let stamp : Stamp := BitVec.ofNat 64 (c.pair d)
      let worst := (c.get a).tag.worst (c.get b).tag
      let sets (c : Cpu) (zf : Bool) (ct : Tag) : Cpu := { c with z := zf, n := false, l := false, ct := ct }
      let seconds (k : Nat) : Nat := max ((z.time.toNat / 256 ^ k) % 256) 1 * 1000000000
      let plus (x y : Nat) : Nat := min (x + y) 18446744073709551615
      let pub (k : Nat) : Bool := (z.who.toNat / 256 ^ k).testBit 3
      let msg (z : Zone) (stage eng : Nat) (mark : CallMark) : TxnBody :=
        .call n (z.serial % 256) stage eng (pub stage) mark z.cause
      let record (ws : List (Nat × TWord)) (at_ : Stamp) : Stamp × TxnBody := (at_, .journal (s.zoneJrec l t ws n base at_))
      let opened : Zone := { z with
        calling := true, stage := 0, serial := z.serial + 1, ansEng := 0, ansOrg := 0, cause := c.get b
        called := z.stageEngineers 0 }
      let wsCall := [(base + 4, ⟨opened.word, .good⟩), (base + 5, c.get b)] ++ put64 (base + 6) (plus (c.pair d) (seconds 0))
        ++ put64 (base + 8) (c.pair d)
      let due : Stamp := BitVec.ofNat 64 z.due
      let up : Zone := { z with stage := z.stage + 1, called := z.called ||| z.stageEngineers (z.stage + 1) }
      let wsUp := (base + 4, ⟨up.word, .good⟩) :: put64 (base + 6) (plus z.due (seconds (z.stage + 1)))
      let steps := z.calling && decide (z.due < (s.lane l).fCur.toNat)
      let org := (c.get b).val.toNat % 16
      let ended (org eng : Nat) : Zone := { z with calling := false, ansOrg := org, ansEng := eng }
      let wsEnd (org eng : Nat) : List (Nat × TWord) := [(base + 4, ⟨(ended org eng).word, .good⟩)]
      let ends (i : Instr) (org eng : Nat) (ct : Tag) : Prop :=
        laneDoes s l t 2 i (withEffects s l t (wsEnd org eng)
          [(stamp, msg z z.stage z.called (.ended eng org)), record (wsEnd org eng) stamp]) (sets c false ct)
      s.zoneRec t n = some base → (s.decl t).zones.getLsbD n = true → (s.decl t).journal = true → roomFor s l 2 →
        (z.calling = false → laneDoes s l t 3 (.call (.lane l t) d a b)
          (withEffects s l t wsCall [(stamp, msg opened 0 (z.stageEngineers 0) .opened), record wsCall stamp])
          (sets c false worst)) ∧
        (z.calling = true → laneDoes s l t 3 (.call (.lane l t) d a b) s (sets c true worst)) ∧
        (∀ r : Reg,
          let rd (k : Nat) : Cpu := c.set r ⟨BitVec.ofNat 32 k, .good⟩
          let ct := (c.get a).tag
          (steps = true → z.stage < z.last → laneDoes s l t 3 (.esc (.lane l t) r a)
            (withEffects s l t wsUp
              [(due, msg up (z.stage + 1) (z.stageEngineers (z.stage + 1)) .opened), record wsUp due])
            (sets (rd (z.stage + 1)) false ct)) ∧
          (steps = true → z.last ≤ z.stage → laneDoes s l t 3 (.esc (.lane l t) r a)
            (withEffects s l t (put64 (base + 6) (plus z.due (seconds z.stage)))
              [(due, msg z z.stage (z.stageEngineers z.stage) .repeated)])
            (sets (rd z.stage) false ct)) ∧
          (steps = false → laneDoes s l t 3 (.esc (.lane l t) r a) s (sets (rd z.stage) true ct))) ∧
        (z.calling = true →
          ends (.cans (.lane l t) d a b) (if 6 ≤ org then 5 else org) ((c.get b).val.toNat / 16 % 8) worst ∧
          ends (.cend (.lane l t) d a) 0 0 (c.get a).tag) ∧
        (z.calling = false → laneDoes s l t 2 (.cans (.lane l t) d a b) s (sets c true worst) ∧
          laneDoes s l t 2 (.cend (.lane l t) d a) s (sets c true (c.get a).tag)))

/-- R314 to R316, R319: OUTC, PNLT, SNXPT, SNXAE and SNXM post one transaction stamped with the RD pair, within what the
image declares for the thread; OUTC with a BAD state posts nothing; PNLT takes levels 1 and 2 of segments 0 to 7 as 0
and 3. R317: KOPEN opens the thread's commit group and KCLOSE ends it, each posting a marker; where a group is open
already, or none is, they only set Z. A group one of whose records exceeded a limit is marked discarded. R317, R318:
KREC posts a user record of its keep words with their tags, stamped with the RD pair; a record that would exceed a limit
of the thread's open group is not posted. R293, R319, R320: what bars an instruction with transactions: a record number
at or above its declared count takes KEEP_RANGE, a subject outside the thread's declaration TXN, and an outbox with too
little room leaves everything but the flags and the mark of the full outbox unchanged. -/
def Obligations.LaneTransactions : Prop :=
  (∀ (s : State) (l : LaneId) (t : ThreadId) (d a b : Reg), d.val % 2 = 0 → d ≠ 0 →
      let c := (s.thread l t).cpu
      let n := (c.get a).val.toNat
      let v := c.get b
      let worst := (c.get a).tag.worst v.tag
      let sets (zf : Bool) : Cpu := { c with z := zf, n := false, l := false, ct := worst }
      let sends (slots : Nat) (i : Instr) (body : TxnBody) : Prop :=
        laneDoes s l t slots i
          (s.modLane l fun ln => { ln with outbox := ln.outbox ++ [⟨t.val, BitVec.ofNat 64 (c.pair d), body⟩] }) (sets false)
      let level := v.val.toNat % 4
      let words := v.val.toNat % 16 + 1
      roomFor s l 1 →
        (n < 48 → (s.decl t).outputs.getLsbD n = true →
          (v.tag ≠ .bad → sends 1 (.outc (.lane l t) d a b) (.output n (v.val.getLsbD 0) v.tag)) ∧
          (v.tag = .bad → laneDoes s l t 1 (.outc (.lane l t) d a b) s (sets true))) ∧
        (n < 55 → (s.decl t).segments.getLsbD n = true →
          sends 1 (.pnlt (.lane l t) d a b)
            (.panel n (if n < 8 ∧ level = 1 then 0 else if n < 8 ∧ level = 2 then 3 else level) v.tag)) ∧
        ((s.decl t).snx = true →
          sends 2 (.snxpt (.lane l t) d a b) (.snxPoint (n % 4096) v) ∧
          (∀ base, s.alarmRec t n = some base → sends 2 (.snxae (.lane l t) d a b)
            (.snxAlarm n (v.val.toNat % 64) (s.kword l (base + 5)) (BitVec.ofNat 64 (s.kpair l (base + 6))))) ∧
          (s.keepOk t n words = true → sends (1 + (words + 3) / 4) (.snxm (.lane l t) d a b)
            (.snxMsg (v.val.toNat / 256 % 256) (v.val.toNat / 65536 % 256)
              ((List.range words).map fun i => s.kword l (n + i)))))) ∧
  (∀ (s : State) (l : LaneId) (t : ThreadId), (s.decl t).journal = true → roomFor s l 1 →
      (s.lane l).threads.length = 128 → s.lanes.length = 3 →
      let c := (s.thread l t).cpu
      let g := (s.thread l t).group
      let sets (z : Bool) : Cpu := { c with z := z, n := false, l := false, ct := .good }
      let marks (g : Option OpenGroup) (b : TxnBody) : State := s.modLane l fun ln =>
        { ln with
          outbox := ln.outbox ++ [⟨t.val, ln.fCur, b⟩]
          threads := ln.threads.set t.val { ln.threads.getD t.val Thread.idle with group := g } }
      (g = none → laneDoes s l t 1 (.kopen (.lane l t)) (marks (some ⟨0, 0, false⟩) .groupBegin) (sets false)) ∧
      (g ≠ none → laneDoes s l t 1 (.kopen (.lane l t)) s (sets true)) ∧
      (∀ o, g = some o → laneDoes s l t 1 (.kclose (.lane l t)) (marks none (.groupEnd o.exceeded)) (sets false)) ∧
      (g = none → laneDoes s l t 1 (.kclose (.lane l t)) s (sets true))) ∧
  (∀ (s : State) (l : LaneId) (t : ThreadId) (d a b : Reg), d.val % 2 = 0 → d ≠ 0 → (s.decl t).journal = true →
      roomFor s l 1 →
      let c := (s.thread l t).cpu
      let n := (c.get a).val.toNat
      let v := (c.get b).val.toNat
      let k := v % 16 + 1
      let ws := (List.range k).map fun i => s.kword l (n + i)
      let stamp : Stamp := BitVec.ofNat 64 (c.pair d)
      let r : JRec := ⟨0x10, 1, v / 256 % 256, n, t.val, stamp,
        BitVec.ofNat 32 (s.lineage + k * 65536) :: tagsWord ws :: ws.map (·.val)⟩
      let fits := match (s.thread l t).group with
        | none => true
        | some g => decide (g.count + 1 ≤ 32 ∧ g.bytes + r.len ≤ 4096)
      s.keepOk t n k = true →
        laneDoes s l t (1 + (k + 3) / 4) (.krec (.lane l t) d a b) (withEffects s l t [] [(stamp, .journal r)])
          { c with z := !fits, n := false, l := false, ct := (c.get a).tag.worst (c.get b).tag }) ∧
  (∀ (s : State) (l : LaneId) (t : ThreadId) (d a b : Reg), d.val % 2 = 0 → d ≠ 0 → b.val % 2 = 0 → b ≠ 0 →
      s.lanes.length = 3 → (s.lane l).threads.length = 128 →
      let th := s.thread l t
      let c := th.cpu
      let n := (c.get a).val.toNat
      let stops (i : Instr) (code : Nat) : Prop := ∃ u, exec i s = .next u ∧ (u.thread l t).st = .faulted ∧
        (u.thread l t).fcode = code ∧ (u.thread l t).cpu = c ∧ (u.thread l t).used = th.used + 1 ∧
        (∀ m k, sget TWord.zero (u.lane m).keep k = sget TWord.zero (s.lane m).keep k)
      (s.alarmRec t n = none → laneRuns s l t 3 → stops (.alm (.lane l t) d a b) 4 ∧ stops (.fup (.lane l t) d a) 4) ∧
      (s.groupRec t n = none → laneRuns s l t 2 → stops (.gsup (.lane l t) d a b) 4) ∧
      (s.zoneRec t n = none → laneRuns s l t 3 → stops (.call (.lane l t) d a b) 4 ∧ stops (.esc (.lane l t) d a) 4) ∧
      (∀ base, s.zoneRec t n = some base → (s.decl t).zones.getLsbD n = false → laneRuns s l t 3 →
        stops (.call (.lane l t) d a b) 7 ∧ stops (.esc (.lane l t) d a) 7) ∧
      (48 ≤ n ∨ (s.decl t).outputs.getLsbD n = false → laneRuns s l t 1 → stops (.outc (.lane l t) d a b) 7) ∧
      (55 ≤ n ∨ (s.decl t).segments.getLsbD n = false → laneRuns s l t 1 → stops (.pnlt (.lane l t) d a b) 7) ∧
      ((s.decl t).snx = false → laneRuns s l t 2 → stops (.snxpt (.lane l t) d a b) 7) ∧
      ((s.decl t).journal = false → laneRuns s l t 1 → stops (.kopen (.lane l t)) 7 ∧ stops (.kclose (.lane l t)) 7) ∧
      (∀ base, s.alarmRec t n = some base → (c.get d).tag ≠ .bad → (s.decl t).journal = true → ¬roomFor s l 1 →
        let x := AState.of (s.kword l (base + 5)).val
        x.unack = true → laneDoes s l t 2 (.ack (.lane l t) d a b) (s.markFull l)
          { c with z := true, n := x.active, l := true, ct := (c.get d).tag }))

/-- R285, R286: loads and stores of the core in its SRAM and boot ROM, and accesses of the management bus as master 4: a
load gives the little-endian word or the byte with tag GOOD and Z 0; where the access raises a bus error a load gives 0
BAD, and Z is 1. A store changes the bytes it stores and no others. R286, R287: STM in the SRAM stores the word's four
bytes, low byte at the lowest address, and is a completed write of the lamp room; CSRR reads and CSRW writes a control
register, reserved bits of which stay 0; TMR is written by its high word with the low word staged before. -/
def Obligations.CoreAccesses : Prop :=
  (∀ (s : State) (d a : Reg) (imm : BitVec 18),
      let c := s.core.cpu
      let ea : Int := (c.get a).val.toNat + imm.toInt
      let sram := 0x80000000 ≤ ea ∧ ea < 0x80040000
      let rom := 0xFFFF0000 ≤ ea ∧ ea < 0x100000000
      let mem (k : Int) : Byte :=
        if 0x80000000 ≤ k ∧ k < 0x80040000 then sget 0 s.core.sram (k - 0x80000000).toNat
        else sget 0 s.core.rom (k - 0xFFFF0000).toNat
      let gives (v : TWord) (err : Bool) : Cpu := { c.set d v with z := err, n := false, l := false, ct := .good }
      let flags (err : Bool) : Cpu := { c with z := err, n := false, l := false, ct := .good }
      let word : Word := BitVec.ofNat 32 ((mem ea).toNat + 256 * (mem (ea + 1)).toNat + 65536 * (mem (ea + 2)).toNat
        + 16777216 * (mem (ea + 3)).toNat)
      let v := (c.get d).val.toNat
      let stored (bs : List Nat) : State := s.modCore fun k =>
        { k with sram := sputs 0 k.sram (ea - 0x80000000).toNat (bs.map (BitVec.ofNat 8)) }
      let bus : Word := BitVec.ofInt 32 ea
      mstatS.get s.core.mstat = 1 ∨ sram →
        (sram ∨ rom →
          (ea % 4 = 0 → coreDoes s 1 (.ldm .core d a imm) s (gives ⟨word, .good⟩ false)) ∧
          (ea % 4 ≠ 0 → coreDoes s 1 (.ldm .core d a imm) (s.busError 4 1 bus) (gives ⟨0, .bad⟩ true)) ∧
          coreDoes s 1 (.ldb .core d a imm) s (gives ⟨BitVec.ofNat 32 (mem ea).toNat, .good⟩ false)) ∧
        (sram → coreDoes s 1 (.stb .core d a imm) (stored [v % 256]) (flags false)) ∧
        (¬sram → coreDoes s 1 (.stb .core d a imm) (s.busError 4 2 bus) (flags true)) ∧
        (¬sram → ¬rom → coreDoes s 1 (.ldb .core d a imm) (s.busError 4 1 bus) (gives ⟨0, .bad⟩ true)) ∧
        (¬sram → ¬rom → 0 ≤ ea → ea < 0x100000000 →
          (s.readable 4 ea.toNat = true → coreDoes s 1 (.ldm .core d a imm) (s.readEffect 4 ea.toNat)
            (gives ⟨s.readBack 4 ea.toNat, .good⟩ false)) ∧
          (s.readable 4 ea.toNat = false →
            coreDoes s 1 (.ldm .core d a imm) (s.busError 4 1 bus) (gives ⟨0, .bad⟩ true)))) ∧
  (∀ (s : State) (d a : Reg) (imm csr : BitVec 18), coreRuns s → codeOk (s.core.cpu.advance 4).pc = true →
      let c := s.core.cpu
      let k := s.core
      let ea : Int := (c.get a).val.toNat + imm.toInt
      let v := (c.get d).val
      let task := mstatS.get k.mstat ≠ 1
      let low : Word := match k.tmrStaged with
        | none => BitVec.ofNat 32 k.tmr.toNat
        | some w => w
      let reads (n : Nat) (w : Word) : Prop := csr.toNat = n →
        exec (.csrr .core d csr) s = .next (coreAfter s 1 ((c.set d ⟨w, .good⟩).advance 4))
      let writes (n : Nat) (k' : Core) : Prop := csr.toNat = n → ¬task →
        exec (.csrw .core d csr) s = .next (coreAfter { s with core := k' } 1 (c.advance 4))
      (0x80000000 ≤ ea → ea < 0x80040000 → ea % 4 = 0 →
        ∃ t, exec (.stm .core d a imm) s = .next t ∧
          t.core.sram = sputs 0 k.sram (ea - 0x80000000).toNat [BitVec.ofNat 8 v.toNat, BitVec.ofNat 8 (v.toNat / 256),
            BitVec.ofNat 8 (v.toNat / 65536), BitVec.ofNat 8 (v.toNat / 16777216)] ∧
          t.core.cpu = { c.advance 4 with z := false, n := false, l := false, ct := .good } ∧
          t.core.keep = k.keep ∧ t.lanes = s.lanes) ∧
      (¬task →
        reads 0 k.mstat ∧ reads 1 k.epc ∧ reads 2 k.ecause ∧ reads 3 k.eaddr ∧ reads 4 k.eflags ∧ reads 5 k.vbase ∧
        reads 6 k.imask ∧ reads 8 (BitVec.ofNat 32 k.tmr.toNat) ∧ reads 9 (BitVec.ofNat 32 (k.tmr.toNat / 4294967296)) ∧
        reads 12 k.scratch) ∧
      writes 1 { k with epc := v } ∧ writes 4 { k with eflags := v &&& 31 } ∧
      writes 5 { k with vbase := v &&& 0xFFFFFF00 } ∧ writes 6 { k with imask := v } ∧
      writes 8 { k with tmrStaged := some v } ∧ writes 12 { k with scratch := v } ∧
      (let t : Stamp := BitVec.ofNat 64 (v.toNat * 4294967296 + low.toNat)
       writes 9 { k with
        tmr := t, tmrStaged := none
        ipend := (k.ipend &&& 0xFFFFFFFE) ||| (if t.toNat ≤ s.tbc.toNat then 1 else 0) }) ∧
      (mstatX.get v = mstatX.get k.mstat → writes 0 { k with mstat := v &&& 0x3F }))

/-- R285, R288, R290: exception entry. The instruction has no effect: EPC holds its address (SYS: the next one), ECAUSE
the code and the SYS immediate, EFLAGS the flags and CT; MSTAT saves S, IE and X and becomes supervisor with interrupts
off and X 1; loop bank 1 is cleared and the PC is the vector. Nothing but the core changes. R286, R290: ERET restores
the flags from EFLAGS, S, IE and X from what the entry saved, and goes on at EPC; WFI goes on at once where an interrupt
is pending and enabled, and waits where none is. R287 to R290: an interrupt is taken where one is pending, enabled in
IMASK and IE is 1, the lowest number first: EPC holds the next instruction, ECAUSE has INT 1 and the number, the vector
is VBASE + 0x40 + 4 × n. Interrupt 0 follows the comparison of TBC with TMR. -/
def Obligations.CoreExceptions : Prop :=
  (∀ (s : State) (d a : Reg) (imm : BitVec 18) (r : BitVec 7), coreRuns s →
      let k := s.core
      let c := k.cpu
      let ea : Int := (c.get a).val.toNat + imm.toInt
      let bits := (if c.z then 1 else 0) + (if c.n then 2 else 0) + (if c.l then 4 else 0) + 8 * c.ct.code
      let takes (i : Instr) (code arg epc : Nat) (eaddr : Word) : Prop := ∃ t, exec i s = .next t ∧
        t.core.epc = BitVec.ofNat 32 epc ∧ t.core.ecause = BitVec.ofNat 32 (arg * 256 + code) ∧
        t.core.eaddr = eaddr ∧ t.core.eflags = BitVec.ofNat 32 bits ∧
        mstatS.get t.core.mstat = 1 ∧ mstatIe.get t.core.mstat = 0 ∧ mstatX.get t.core.mstat = 1 ∧
        mstatPs.get t.core.mstat = mstatS.get k.mstat ∧ mstatPie.get t.core.mstat = mstatIe.get k.mstat ∧
        mstatPx.get t.core.mstat = mstatX.get k.mstat ∧ t.core.cpu.pc = (k.vbase.toNat + 4 * code) % 4294967296 ∧
        t.core.cpu.loops = List.replicate 4 LoopLvl.off ∧ t.core.cpu.regs = c.regs ∧ t.core.keep = k.keep ∧
        t.core.sram = k.sram ∧ t = { s with core := t.core }
      let task := mstatS.get k.mstat ≠ 1
      takes (.take .core d r) 1 0 c.pc k.eaddr ∧ takes (.frm .core d imm) 1 0 c.pc k.eaddr ∧
      takes (.fend .core) 1 0 c.pc k.eaddr ∧ takes (.regr .core d imm) 1 0 c.pc k.eaddr ∧
      takes (.alm .core d a a) 1 0 c.pc k.eaddr ∧ takes (.outc .core d a a) 1 0 c.pc k.eaddr ∧
      takes (.kopen .core) 1 0 c.pc k.eaddr ∧
      (imm.toNat < 65536 → takes (.sys .core imm) 5 imm.toNat (c.pc + 4) k.eaddr) ∧
      (task → takes (.eret .core) 2 0 c.pc k.eaddr ∧ takes (.wfi .core) 2 0 c.pc k.eaddr) ∧
      (task → imm.toNat < 10 → takes (.csrr .core d imm) 2 0 c.pc (BitVec.ofNat 32 imm.toNat)) ∧
      (task → ea < 0x80000000 ∨ 0x80040000 ≤ ea → takes (.ldm .core d a imm) 2 0 c.pc (BitVec.ofInt 32 ea)) ∧
      (ea < 0 ∨ 8192 ≤ ea → takes (.ldk .core d a imm) 4 0 c.pc (BitVec.ofInt 32 ea)) ∧
      (codeOk (c.get a).val.toNat = false → takes (.jr .core a) 3 0 c.pc (c.get a).val)) ∧
  (∀ (s : State), coreRuns s → mstatS.get s.core.mstat = 1 →
      let k := s.core
      let e := k.eflags
      (codeOk k.epc.toNat = true → ∃ t, exec (.eret .core) s = .next t ∧
        t.core.cpu.pc = k.epc.toNat ∧ t.core.cpu.z = e.getLsbD 0 ∧ t.core.cpu.n = e.getLsbD 1 ∧
        t.core.cpu.l = e.getLsbD 2 ∧ t.core.cpu.ct = Tag.ofCode (e.toNat / 8) ∧ t.core.cpu.regs = k.cpu.regs ∧
        mstatS.get t.core.mstat = mstatPs.get k.mstat ∧ mstatIe.get t.core.mstat = mstatPie.get k.mstat ∧
        mstatX.get t.core.mstat = mstatPx.get k.mstat ∧
        t.core.cpu.loops = (if mstatPx.get k.mstat = mstatX.get k.mstat then k.cpu.loops else k.bank) ∧
        t = { s with core := t.core }) ∧
      (codeOk (k.cpu.advance 4).pc = true → exec (.wfi .core) s = .next { s with core := { k with
        cycles := k.cycles + 1, waiting := s.dueInterrupt.isNone, cpu := k.cpu.advance 4 } })) ∧
  (∀ (s : State) (n : Nat),
      let k := s.core
      let enabled (m : Nat) : Prop := k.imask.getLsbD m = true ∧ s.pendingAt m = true
      (n < 25 → enabled n → (∀ m < n, ¬enabled m) → mstatIe.get k.mstat = 1 → ∃ t, exec .interruptEntry s = .next t ∧
        t.core.epc = BitVec.ofNat 32 k.cpu.pc ∧ t.core.ecause = BitVec.ofNat 32 (2147483648 + n) ∧
        t.core.cpu.pc = (k.vbase.toNat + 64 + 4 * n) % 4294967296 ∧ mstatS.get t.core.mstat = 1 ∧
        mstatIe.get t.core.mstat = 0 ∧ mstatPie.get t.core.mstat = 1 ∧ t.core.waiting = false ∧
        t.core.eaddr = k.eaddr ∧ t.core.cpu.regs = k.cpu.regs ∧ t = { s with core := t.core }) ∧
      ((∀ m < 25, ¬enabled m) ∨ mstatIe.get k.mstat ≠ 1 → exec .interruptEntry s = .next s) ∧
      exec .timerCompare s = .next { s with core := { k with
        ipend := (k.ipend &&& 0xFFFFFFFE) ||| (if k.tmr.toNat ≤ s.tbc.toNat then 1 else 0) } })

/-- R234, R255, R266: a thread that lacks the slots takes OVERRUN; a reserved encoding, an instruction of the core and a
level above the image's take ILLEGAL; a transfer outside the loaded code takes CODE_RANGE: no effect but the fault,
which counts one slot and stops the thread in FAULTED with the code and the address recorded and reported. -/
def Obligations.ThreadFaults : Prop :=
  ∀ (s : State) (l : LaneId) (t : ThreadId) (d a b : Reg) (imm : BitVec 18) (target : BitVec 16), s.lanes.length = 3 →
    (s.lane l).threads.length = 128 →
    let th := s.thread l t
    let stops (i : Instr) (code : Nat) : Prop := ∃ u, exec i s = .next u ∧ (u.thread l t).st = .faulted ∧
      (u.thread l t).fcode = code ∧ (u.thread l t).lastPc = th.cpu.pc ∧ (u.thread l t).cpu = th.cpu ∧
      (u.thread l t).used = th.used + 1 ∧
      (u.lane l).reports = (s.lane l).reports ++ [⟨t.val, code, th.cpu.pc, th.used + 1⟩] ∧
      (∀ m k, sget TWord.zero (u.lane m).keep k = sget TWord.zero (s.lane m).keep k) ∧ u.core = s.core
    (s.lane l).executing = true → th.st = .run →
      (s.budget t < th.used + 1 → stops (.add (.lane l t) d a b) 1 ∧ stops (.ldk (.lane l t) d a imm) 1 ∧
        stops (.halt (.lane l t)) 1) ∧
      (s.budget t < th.used + 4 → stops (.div (.lane l t) d a b) 1) ∧
      (th.used + 1 ≤ s.budget t →
        (s.isa = 0 → stops (.add (.lane l t) d a b) 2) ∧
        stops (.ldm (.lane l t) d a imm) 2 ∧ stops (.stm (.lane l t) d a imm) 2 ∧ stops (.csrw (.lane l t) d imm) 2 ∧
        stops (.eret (.lane l t)) 2 ∧ stops (.sys (.lane l t) imm) 2 ∧
        (32 ≤ imm.toNat → stops (.shli (.lane l t) d a imm) 2) ∧
        (1 ≤ s.isa → s.codeWords ≤ target.toNat → stops (.jal (.lane l t) d target) 3))

/-! ## The management bus and the host SPI -/

/-- R45, R46, R585: a write the bus accepts completes with the effect of its register and is seen by the write watch;
one it refuses changes nothing and is reported as an error of source 0 with access type 2, the master and the address,
and a restore write of the lamp room is counted besides (R538); while the node is held in reset a write does nothing.
R48: a write of a register without an effect beyond storing keeps what the register's other bits held, and changes no
other register and nothing else of the node: OUT_CFG, TRM_DI, MGS_TLIM, MUX_CMW and SUP_CTRL; a restore write in stage 3
of the start-up shows stage 4 in SUP_STATE besides (R587, log entry 163). -/
def Obligations.BusWrites : Prop :=
  (∀ (s : State) (m : Master) (addr data : Word),
      let a := addr.toNat
      let acts (c : Instr) : Prop :=
        (s.heldReset = true → exec c s = .next s) ∧
        writeDoes s m c a data (s.regWritten m.id a data false) ∧
        (s.heldReset = false → s.writeOk m.id a data = false →
          (s.restoring m.id = false → exec c s = .next (s.raise 0 0 2 m.id addr s.tbc)) ∧
          (s.restoring m.id = true → ∃ t, exec c s = .next t ∧ t.flt.crossing = (s.raise 0 0 2 m.id addr s.tbc).flt.crossing ∧
            t.lanes = s.lanes ∧ t.core = s.core ∧ t.jnl = s.jnl))
      acts (.registerWrite m addr data) ∧ acts (.sqClearWrite m addr data) ∧ acts (.lkFieldWrite m addr data) ∧
      acts (.stageLowWord m addr data) ∧ acts (.commitHighWord m addr data)) ∧
  (∀ (s : State) (m : Master) (n : Nat) (b : Nat) (w : Word), canonical s = true → n < 48 →
      let stores (a : Nat) : Prop := s.heldReset = false → s.writeOk m.id a w = true → s.watched a = false →
        ∃ t r, rowOf a = some r ∧ exec (.registerWrite m (BitVec.ofNat 32 a) w) s = .next t ∧
          t.reg a = (s.reg a &&& ~~~BitVec.ofNat 32 r.stored) ||| (w &&& BitVec.ofNat 32 r.stored) ∧
          (b ≠ a → b ≠ A.supState ∨ s.restoring m.id = false ∨ s.stage' ≠ 3 → t.reg b = s.reg b) ∧
          t = { s with regs := t.regs }
      stores (A.outCfg n) ∧ stores (A.trmDi n) ∧ stores A.mgsTlim ∧ (n < 4 → stores (A.muxCmw n)) ∧ stores A.supCtrl)

/-- R50: an event of a status register advances SEQ, which passes from 255 to 1, and sets its flag; the other flags and
every other register keep their values, and nothing else of the node changes. R49: the first accepted write of a locking
register locks it, and a later write by any master is refused. R55: a write of a low word is staged for its master and
changes no register; the write of the high word commits both together, and a master that has staged nothing commits the
high word alone. -/
def Obligations.RegisterTypes : Prop :=
  (∀ (s : State) (a i j : Nat), canonical s = true → i < 24 → j < 24 →
      let flag (i : Nat) : Fld := ⟨i, i⟩
      let seq (w : Word) : Nat := w.toNat / 16777216
      let t := s.event a (flag i)
      t.fld a (flag i) = 1 ∧ (j ≠ i → t.fld a (flag j) = s.fld a (flag j)) ∧
      seq (t.reg a) = (if seq (s.reg a) = 255 then 1 else seq (s.reg a) + 1) ∧
      (∀ b, b ≠ a → t.reg b = s.reg b) ∧ t = { s with regs := t.regs }) ∧
  (∀ (s : State) (m q : Master) (w v : Word), s.heldReset = false → s.writeOk m.id A.trpLock w = true →
      canonical s = true → s.watched A.trpLock = false →
      ∃ t, exec (.lkFieldWrite m (BitVec.ofNat 32 A.trpLock) w) s = .next t ∧ t.fld A.trpLock F.trpLock_lock = w.toNat % 2 ∧
        t.writeOk q.id A.trpLock v = false) ∧
  (∀ (s : State) (m : Master) (lo hi : Word), canonical s = true → s.heldReset = false →
      s.watched A.jnlWstampLo = false → s.watched A.jnlWstampHi = false →
      let k (a : Nat) : Nat := a + 4294967296 * m.id
      (s.writeOk m.id A.jnlWstampLo lo = true → ∃ t,
        exec (.stageLowWord m (BitVec.ofNat 32 A.jnlWstampLo) lo) s = .next t ∧ t.regs = s.regs ∧
        (t.writeOk m.id A.jnlWstampHi hi = true → ∃ u,
          exec (.commitHighWord m (BitVec.ofNat 32 A.jnlWstampHi) hi) t = .next u ∧
          u.reg (k A.jnlWstampLo) = lo ∧ u.reg (k A.jnlWstampHi) = hi ∧
          ∀ b, b ≠ k A.jnlWstampLo → b ≠ k A.jnlWstampHi → u.reg b = s.reg b)) ∧
      ((s.staged.all fun x => x.1 != k A.jnlWstampLo) → s.writeOk m.id A.jnlWstampHi hi = true → ∃ u,
        exec (.commitHighWord m (BitVec.ofNat 32 A.jnlWstampHi) hi) s = .next u ∧
        u.reg (k A.jnlWstampLo) = s.reg (k A.jnlWstampLo) ∧ u.reg (k A.jnlWstampHi) = hi))

/-- R51: a write to a status register, whichever it is. Where its SEQ equals the register's, every flag it writes as 1
is cleared and the others keep their values; where it differs the register is unchanged; SEQ is unchanged, and neither
is a bus error. No other register changes, but that FLT_STATUS ends DEGRADED besides (R607). -/
def Obligations.ClearingWrites : Prop :=
  ∀ (s : State) (a b j : Nat) (r : RegRow) (m : Master) (w : Word), canonical s = true → j < 24 → a < 2 ^ 32 →
    rowOf a = some r → r.kind = .sq →
    let k := canon a
    let seq (w : Word) : Nat := w.toNat / 16777216
    let flag : Fld := ⟨j, j⟩
    let u := s.clearFlags a w
    writeDoes s m (.sqClearWrite m (BitVec.ofNat 32 a) w) a w u ∧ u.flt.crossing = s.flt.crossing ∧
    seq (u.reg k) = seq (s.reg k) ∧
    (seq w = seq (s.reg k) → u.fld k flag = if w.getLsbD j then 0 else s.fld k flag) ∧
    (seq w ≠ seq (s.reg k) → u.reg k = s.reg k) ∧
    (b ≠ k → b ≠ A.fltState → u.reg b = s.reg b)

/-- R46: every bus error is reported with its address, the master's ID, whether a read or a write raised it, and TBC's
value; a read that raises one returns 0 and has no other effect; its class is NOTE after reset. -/
def Obligations.BusErrors : Prop :=
  ∀ (s : State) (m : Master) (addr data : Word) (q : HspAccess),
    let told (u : State) (access master : Nat) (addr : Word) : Prop :=
      ∃ e, u.flt.crossing = s.flt.crossing ++ [e] ∧ e.src = 0 ∧ e.access = access ∧ e.master = master ∧ e.addr = addr ∧
        e.stamp = s.tbc ∧ e.cls = s.fld (A.fltSrc 0) F.fltSrc_class
    (s.readable m.id addr.toNat = false →
      (s.busRead m.id addr).1 = 0 ∧ told (s.busRead m.id addr).2.2 1 m.id addr ∧
      (s.busRead m.id addr).2.2 = { s with flt := (s.busRead m.id addr).2.2.flt }) ∧
    (s.writeOk m.id addr.toNat data = false → told (s.busWrite m.id addr data).1 2 m.id addr) ∧
    (s.hsp.access = some q → q.write = false → s.readable 5 q.addr.toNat = false →
      ∃ t, exec .hspAccessDone s = .next t ∧ told t 1 5 q.addr ∧ t.hsp.next.data = 0) ∧
    State.reset.fld (A.fltSrc 0) F.fltSrc_class = 0

/-- R39: the lamp room's SRAM and boot ROM. An access to them by any master but the lamp room raises a bus error and has
no effect; the lamp room's core loads their words. -/
def Obligations.LampRoomMemories : Prop :=
  ∀ (s : State) (m : Master) (addr data : Word) (d a : Reg) (imm : BitVec 18),
    let c := s.core.cpu
    let ea : Int := (c.get a).val.toNat + imm.toInt
    let inside (k : Int) : Prop := (0x80000000 ≤ k ∧ k < 0x80040000) ∨ (0xFFFF0000 ≤ k ∧ k < 0x100000000)
    (inside addr.toNat → m ≠ .lampRoom →
      s.readable m.id addr.toNat = false ∧
      (s.heldReset = false → exec (.registerWrite m addr data) s = .next (s.busError m.id 2 addr))) ∧
    (inside ea → ea % 4 = 0 → mstatS.get s.core.mstat = 1 →
      ∃ w, coreDoes s 1 (.ldm .core d a imm) s { c.set d ⟨w, .good⟩ with z := false, n := false, l := false, ct := .good })

/-- R65 to R70, R608: a frame sends out the response of the last request, PENDING while its access is not done, and
discards what it carries then; else it is checked: 80 edges, the CRC, the command, its fields that must be 0,
HSP_CTRL.ACCESS, in this order, and the first check that fails gives the response. A NOP answers OK, a READ or WRITE
starts its access. R67 to R69, R525, R526: a frame while an access is in progress answers PENDING, flags it and is
discarded; the access, made as master 5, then sets the next response: the word read, or what a write left, with OK, or a
bus error. An access of an SNX peer is made as master 6 and answered on its association. -/
def Obligations.HostSpi : Prop :=
  (∀ (s : State) (edges : Nat) (cmd : Byte) (addr data : Word) (crc : Byte), s.heldReset = false →
      s.hsp.access = none →
      let sent : HspResp := if s.hsp.first then ⟨0xC0, 0, 0⟩ else s.hsp.next
      let s1 : State := { s with hsp := { s.hsp with miso := sent, first := false } }
      let answers (t : State) (r : HspResp) : State := { t with hsp := { t.hsp with next := r } }
      let access := s.fld A.hspCtrl F.hspCtrl_access
      let good (c : Nat) : Prop := edges = 80 ∧ frameCrc c addr data = crc
      let acts (c : Instr) (n : Nat) : Prop :=
        (edges ≠ 80 → exec c s =
          .next (answers ((s1.satInc A.hspErrcnt F.hspErrcnt_frames).event A.hspStatus F.hspStatus_frameerr) ⟨0xA1, 0, 0⟩)) ∧
        (edges = 80 → frameCrc n addr data ≠ crc → exec c s =
          .next (answers ((s1.satInc A.hspErrcnt F.hspErrcnt_crcs).event A.hspStatus F.hspStatus_crcerr) ⟨0xA0, 0, 0⟩))
      acts (.hspNop edges addr data crc) 0 ∧ acts (.hspRead edges addr data crc) 0x3C ∧
      acts (.hspWrite edges addr data crc) 0xC3 ∧ acts (.hspBadFrame edges cmd addr data crc) cmd.toNat ∧
      (good 0 → addr = 0 → data = 0 → exec (.hspNop edges addr data crc) s = .next (answers s1 ⟨0x80, 0, 0⟩)) ∧
      (good 0 → addr ≠ 0 ∨ data ≠ 0 → exec (.hspNop edges addr data crc) s =
        .next (answers (s1.event A.hspStatus F.hspStatus_badcmd) ⟨0xA2, 0, 0⟩)) ∧
      (good 0x3C → data = 0 → access ≠ 2 → exec (.hspRead edges addr data crc) s =
        .next { s1 with hsp := { s1.hsp with access := some ⟨false, addr, data⟩ } }) ∧
      (good 0x3C → data ≠ 0 → exec (.hspRead edges addr data crc) s =
        .next (answers (s1.event A.hspStatus F.hspStatus_badcmd) ⟨0xA2, addr, 0⟩)) ∧
      (good 0x3C → data = 0 → access = 2 → exec (.hspRead edges addr data crc) s =
        .next (answers (s1.event A.hspStatus F.hspStatus_denied) ⟨0x92, addr, 0⟩)) ∧
      (good 0xC3 → access ≠ 1 → access ≠ 2 → exec (.hspWrite edges addr data crc) s =
        .next { s1 with hsp := { s1.hsp with access := some ⟨true, addr, data⟩ } }) ∧
      (good 0xC3 → access = 1 ∨ access = 2 → exec (.hspWrite edges addr data crc) s =
        .next (answers (s1.event A.hspStatus F.hspStatus_denied) ⟨0x92, addr, 0⟩)) ∧
      (good cmd.toNat → cmd ≠ 0 → cmd ≠ 0x3C → cmd ≠ 0xC3 → exec (.hspBadFrame edges cmd addr data crc) s =
        .next (answers (s1.event A.hspStatus F.hspStatus_badcmd) ⟨0xA2, 0, 0⟩))) ∧
  (∀ (s : State) (q : HspAccess) (addr data : Word) (crc : Byte),
      let s1 : State := { s with hsp := { s.hsp with access := none } }
      let answers (t : State) (r : HspResp) : State := { t with hsp := { t.hsp with next := r } }
      (s.hsp.access = some q → s.heldReset = false → s.hsp.first = false → frameCrc 0 addr data = crc →
        exec (.hspNop 80 addr data crc) s =
          .next (({ s with hsp := { s.hsp with miso := ⟨0xB0, 0, 0⟩ } } : State).event A.hspStatus F.hspStatus_pending)) ∧
      (s.hsp.access = some q → q.write = false →
        (s.readable 5 q.addr.toNat = true → ∃ t, exec .hspAccessDone s = .next t ∧ t.hsp.access = none ∧
          t.hsp.next = ⟨0x80, q.addr, s.readBack 5 q.addr.toNat⟩ ∧ t.lanes = s.lanes ∧ t.core = s.core) ∧
        (s.readable 5 q.addr.toNat = false → exec .hspAccessDone s =
          .next (answers ((s1.busError 5 1 q.addr).event A.hspStatus F.hspStatus_buserr) ⟨0x90, q.addr, 0⟩))) ∧
      (s.hsp.access = some q → q.write = true → s.writeOk 5 q.addr.toNat q.data = false → ∃ t,
        exec .hspAccessDone s = .next t ∧ t.hsp.next = ⟨0x90, q.addr, 0⟩ ∧ t.hsp.access = none ∧
        t.flt.crossing = (s.busError 5 2 q.addr).flt.crossing) ∧
      (∀ r rest, canonical s = true → s.net.remote = r :: rest → r.write = false → s.readable 6 r.addr.toNat = true → ∃ t,
        exec .remoteAccessDone s = .next t ∧ t.net.remote = rest ∧
        t.fld A.netRcnt F.netRcnt_done = Nat.min (s.fld A.netRcnt F.netRcnt_done + 1) F.netRcnt_done.max))

/-- R101, R108, R113, R117, R125, R126, R145, R175, R177, R198, R199, R201, R206, R212: the commands of the terminals,
the routing, the converters, the modems and the sequencer are writes of their register, with the effect it has. R258,
R357, R363, R369, R391: requests to retire and to return a lane, thread commands behind those that wait, the reset of
trip terms, and host commands, which are sent to ring 113 with their argument and counted in MGS_HCMD_STATE. -/
def Obligations.FieldAndLaneRegisters : Prop :=
  (∀ (s : State) (m : Master) (t : Term) (i : Source) (c : Conv) (h : Modem) (w : Word) (p : BitVec 16),
      let st := s.storeReg m.id
      let asy (f : Fld) (n : Nat) : Word := f.set (s.reg (A.asyCtrl c)) n
      writeDoes s m (.trmModeWrite m t w) (A.trmMode t) w ((st (A.trmMode t) w).modeWritten t) ∧
      writeDoes s m (.parWrite m t w) (A.trmDo t) w (s.doWritten t w) ∧
      (s.leader t = true → F.trmDo_par.get w = s.fld (A.trmDo t) F.trmDo_par →
        writeDoes s m (.parWrite m t w) (A.trmDo t) w (s.setReg (A.trmDo t) w)) ∧
      writeDoes s m (.excSrcWrite m i w) (A.excSrc i) w (s.excWritten i w) ∧
      writeDoes s m (.muxToptWrite m t false w) (A.muxTopt t) w (s.toptWritten t w) ∧
      writeDoes s m (.muxToptWrite m t true w) (A.muxRlead t) w (st (A.muxRlead t) w) ∧
      (let v : Word := BitVec.ofNat 32 (65536 + p.toNat)
       writeDoes s m (.calNow m p) A.excCtrl v
        { st A.excCtrl v with field := { (st A.excCtrl v).field with calLeft := List.range 16 } }) ∧
      writeDoes s m (.selftest m c) (A.asyCtrl c) (asy F.asyCtrl_selftest 1)
        (s.asyWritten c (asy F.asyCtrl_selftest 1)) ∧
      writeDoes s m (.asyEnable m c) (A.asyCtrl c) (asy F.asyCtrl_en 1) (s.asyWritten c (asy F.asyCtrl_en 1)) ∧
      writeDoes s m (.asyDisable m c) (A.asyCtrl c) (asy F.asyCtrl_en 0) (s.asyWritten c (asy F.asyCtrl_en 0)) ∧
      writeDoes s m (.modemConnect m h w) (A.hrtMcfg h) w (st (A.hrtMcfg h) w) ∧
      writeDoes s m (.send m h) (A.hrtMcmd h) 1 (s.sendWritten h) ∧
      writeDoes s m (.abort m h) (A.hrtMcmd h) 2 (s.abortModem h) ∧
      writeDoes s m (.rxClr m h) (A.hrtMcmd h) 4 (s.rxclrWritten h) ∧
      (let u := s.setFld A.seqCommit F.seqCommit_busy 1
       writeDoes s m (.seqCommit m) A.seqCtrl 1 { u with field := { u.field with
        checking := some (s.regs.filter fun x => isStaging x.1) } }) ∧
      writeDoes s m (.seqCopy m) A.seqCtrl 2
        ((s.regs.filter fun x => isActive x.1).foldl (fun s x => s.setReg (toStaging x.1) x.2)
          { s with regs := s.regs.filter fun x => !isStaging x.1 })) ∧
  (∀ (s : State) (m : Master) (l : LaneId) (t : ThreadId) (at_ : BitVec 22) (k : TripId) (w : Word) (subject : BitVec 16)
        (code : Byte),
      let arg := s.reg A.mgsHcmdArg
      let sends (c : Instr) (n : Nat) : Prop :=
        let r : InRec := ⟨113, 0x90, n, ⟨BitVec.ofNat 32 subject.toNat, .good⟩, 1, s.tbc,
          [BitVec.ofNat 64 (arg.toNat * 4294967296 + m.id)], 11, false, false⟩
        let u : State := { s with tly := { s.tly with crossing := s.tly.crossing ++ [r] } }
        writeDoes s m c A.mgsHcmd (BitVec.ofNat 32 (n * 16777216 + subject.toNat))
          (u.setFld A.mgsHcmdState F.mgsHcmdState_pending (s.fld A.mgsHcmdState F.mgsHcmdState_pending + 1))
      writeDoes s m (.retireLane m l) A.tlyCtrl (BitVec.ofNat 32 (2 ^ l.val))
        { s with tly := { s.tly with retireReq := some l } } ∧
      writeDoes s m (.returnLane m l) A.tlyCtrl (BitVec.ofNat 32 (16 * 2 ^ l.val))
        (({ s with tly := { s.tly with returnReq := some l, history := s.tly.history.set l.val [] } } : State).setFld
          (A.tlyLane l) F.tlyLane_win 0) ∧
      writeDoes s m (.threadHaltCommand m at_ t) 0x00200040 (BitVec.ofNat 32 (1073741824 + at_.toNat * 256 + t.val))
        { s with tcmds := s.tcmds ++ [⟨true, at_.toNat, t.val⟩] } ∧
      writeDoes s m (.threadRunCommand m t) 0x00200040 (BitVec.ofNat 32 (2147483648 + t.val))
        { s with tcmds := s.tcmds ++ [⟨false, 0, t.val⟩] } ∧
      writeDoes s m (.trpReset m w) 0x00300014 w (s.resetTerms w) ∧
      writeDoes s m (.trpCfgWrite m k w) (A.trpCfg k) w ((s.storeReg m.id (A.trpCfg k) w).trpCfgWritten k) ∧
      sends (.ackAlarm m subject) 1 ∧ sends (.ackGroup m subject) 2 ∧ sends (.answer m subject) 3 ∧
      sends (.duty m subject) 4 ∧ sends (.roster m subject) 5 ∧ sends (.user m code subject) code.toNat)

/-- R421, R424, R432, R435, R436, R446, R447: the commands of the journal's ports and of the event recorder. A raw
operation takes FADDR and FDATA with it and shows BUSY; an armed CLEAR is confirmed within 100,000 ticks, for the same
area, by the second key; a read of EVR_WEND moves the master's own cursor. R459, R461, R462, R464: the first read of a
time register freezes all seven for the reading master, and a read of the year releases them; a write of a time register
other than the year is staged for its master, and the year commits what the master has staged; OSF and LBV are cleared
only while their cause is gone. -/
def Obligations.RecordAndClockRegisters : Prop :=
  (∀ (s : State) (m : Master) (corr : Bool) (detail : BitVec 16) (area : BitVec 2),
      let ctrl := F.jnlCtrl_compactnow.set (s.reg A.jnlCtrl) 1
      let look (w : Word) : State := s.lookWritten w corr
      let fd (i : Nat) : Nat := (s.reg (A.jnlFdata i)).toNat * 4294967296 ^ i
      let raw (n : Nat) : State := ({ s with jnl := { s.jnl with raw := some ⟨n, s.fld A.jnlFaddr F.jnlFaddr_word,
        BitVec.ofNat 128 (fd 0 + fd 1 + fd 2 + fd 3), false⟩ } } : State).setFld A.jnlFstate F.jnlFstate_busy 1
      let cursor := A.evrCursor + 4294967296 * m.id
      let slots := if s.fld cursor F.evrCursor_area = 1 then 256 else 4096
      let slot := s.fld cursor F.evrCursor_slot
      writeDoes s m (.compactNow m) A.jnlCtrl ctrl
        { s.storeReg m.id A.jnlCtrl ctrl with jnl := { (s.storeReg m.id A.jnlCtrl ctrl).jnl with compAsked := true } } ∧
      (s.heldReset = false → s.writeOk m.id A.jnlLook 1 = true →
        exec (.lookExact m corr) s = .next ((look 1).writeSeen s m.id A.jnlLook)) ∧
      (s.heldReset = false → s.writeOk m.id A.jnlLook 2 = true →
        exec (.lookNext m corr) s = .next ((look 2).writeSeen s m.id A.jnlLook)) ∧
      writeDoes s m (.append m) A.jnlWcmd 1 (s.append m.id) ∧
      writeDoes s m (.gopen m) A.jnlWcmd 2 (s.groupOpen m.id) ∧
      writeDoes s m (.gclose m) A.jnlWcmd 4 (s.groupClose m.id) ∧
      writeDoes s m (.rawRead m) A.jnlFcmd 1 (raw 1) ∧ writeDoes s m (.rawProgram m) A.jnlFcmd 2 (raw 2) ∧
      writeDoes s m (.rawErase m) A.jnlFcmd 3 (raw 3) ∧
      writeDoes s m (.evrSwtrig m detail) A.evrSwtrig (BitVec.ofNat 32 detail.toNat) (s.evrEvent 7 detail.toNat 0 s.tbc) ∧
      writeDoes s m (.evrClearArm m area) A.evrClear (BitVec.ofNat 32 (0xA5A5 * 65536 + area.toNat))
        { s with evr := { s.evr with armed := some (area.toNat, s.tbc) } } ∧
      (∀ t : Stamp, s.evr.armed = some (area.toNat, t) → (s.tbc - t).toNat ≤ 100000 → s.evr.clearing = none →
        writeDoes s m (.evrClearConfirm m area) A.evrClear (BitVec.ofNat 32 (0x5A5A * 65536 + area.toNat))
          (s.clearConfirmed area.toNat)) ∧
      (s.evr.armed = none ∨ (∃ a t, s.evr.armed = some (a, t) ∧ (a ≠ area.toNat ∨ 100000 < (s.tbc - t).toNat)) →
        writeDoes s m (.evrClearConfirm m area) A.evrClear (BitVec.ofNat 32 (0x5A5A * 65536 + area.toNat))
          { s with evr := { s.evr with armed := none } }) ∧
      (s.fld cursor F.evrCursor_auto = 1 → s.fld cursor F.evrCursor_dir = 0 →
        readDoes s m (.evrWendRead m) A.evrWend (s.setFld cursor F.evrCursor_slot ((slot + 1) % slots))) ∧
      (s.fld cursor F.evrCursor_auto = 1 → s.fld cursor F.evrCursor_dir = 1 →
        readDoes s m (.evrWendRead m) A.evrWend (s.setFld cursor F.evrCursor_slot ((slot + slots - 1) % slots))) ∧
      (s.fld cursor F.evrCursor_auto = 0 → readDoes s m (.evrWendRead m) A.evrWend s)) ∧
  (∀ (s : State) (m : Master) (f : TimeField) (w : Word),
      let addr : TimeField → Nat := fun f => match f with
        | .subsec => A.rtcSubsec
        | .sec => A.rtcSec
        | .min => A.rtcMin
        | .hour => A.rtcHour
        | .date => A.rtcDate
        | .month => A.rtcMonth
        | .year => A.rtcYear
      (f ≠ .year → s.shadowOf m.id = none → readDoes s m (.rtcShadowFreeze m f) (addr f)
        { s with rtc := { s.rtc with shadows := s.rtc.shadows ++ [(m.id, s.rtcNow, s.tbc)] } }) ∧
      (f ≠ .year → s.shadowOf m.id ≠ none → readDoes s m (.rtcShadowFreeze m f) (addr f) s) ∧
      readDoes s m (.rtcYearRead m) A.rtcYear (s.releaseShadows m.id) ∧
      (f ≠ .year → f ≠ .subsec → writeDoes s m (.rtcFieldStage m f w) (addr f) w
        (s.stageTime m.id (addr f) w.toNat)) ∧
      writeDoes s m (.rtcCommit m w) A.rtcYear w
        (({ s with rtc := { s.rtc with
          loads := s.rtc.loads ++ [⟨s.rtcStagedOf m.id, w.toNat⟩]
          staged := s.rtc.staged.filter fun x => x.1 ≠ m.id } } : State).releaseShadows m.id) ∧
      (s.oscOk = true → writeDoes s m (.osfClear m) A.rtcFclr 1 (s.setFld A.rtcFlags F.rtcFlags_osf 0)) ∧
      (s.oscOk = false → writeDoes s m (.osfClear m) A.rtcFclr 1 s) ∧
      (2300 ≤ s.fld A.rtcVbat F.rtcVbat_mv → writeDoes s m (.lbvClear m) A.rtcFclr 2 (s.setFld A.rtcFlags F.rtcFlags_lbv 0)) ∧
      (s.fld A.rtcVbat F.rtcVbat_mv < 2300 → writeDoes s m (.lbvClear m) A.rtcFclr 2 s))

/-- R475, R488, R499, R528, R529, R532, R533, R535, R537: the commands of the panel, the network and the lamp room. A
waveform table that the checks reject raises WAVE_REJECT and leaves the table; a wrong watchdog key is counted; WQPOP
removes the oldest entry of the write queue; SAVE offers the register set to the journal. R543, R546, R547, R549, R557,
R561, R562, R585, R607: the commands of the update engine, the fault collector and the supply manager. UNHOLD, REARM and
SAFE_RELEASE clear or arm what they name; a write that clears DEGRADE also takes the node out of degraded; SOFT_RESET
resets the node with its cause. -/
def Obligations.PanelNetworkUpdateRegisters : Prop :=
  (∀ (s : State) (m : Master) (port : EthPort) (a : Assoc) (w : Word) (n : BitVec 6),
      let st := s.storeReg m.id
      let ready := F.mgsCtrl_ready.set (s.reg A.mgsCtrl) 1
      let off := F.netPcfg_en.set (s.reg (A.netPcfg port)) 0
      let words := (List.range 88).map fun i => s.reg (A.pnlWave (i / 4) (i % 4))
      (s.wavesOk = true → writeDoes s m (.waveCommit m) A.pnlWcmd 1
        { s with pnl := { s.pnl with table := some ⟨words, s.fld A.pnlWstg F.pnlWstg_wver⟩ } }) ∧
      (s.wavesOk = false → writeDoes s m (.waveCommit m) A.pnlWcmd 1 (s.event A.pnlStatus F.pnlStatus_wavereject)) ∧
      writeDoes s m (.panelModeWrite m w) A.pnlCtrl w
        ((st A.pnlCtrl w).panelCtrlWritten (s.fld A.pnlCtrl F.pnlCtrl_mode)) ∧
      writeDoes s m (.portDisable m port) (A.netPcfg port) off ((st (A.netPcfg port) off).pcfgWritten port) ∧
      writeDoes s m (.mdioAccess m w) A.netMdio w ((st A.netMdio w).mdioRuns w) ∧
      writeDoes s m (.associationConfig m a w) (A.netAcfg a) w (s.acfgWrite a w) ∧
      writeDoes s m (.ready m) A.mgsCtrl ready ((st A.mgsCtrl ready).readyWritten) ∧
      writeDoes s m (.watchdogKick m 0x00006C72) A.mgsWdog 0x00006C72
        { s with mgs := { s.mgs with wdogAt := s.tbc } } ∧
      (w ≠ 0x00006C72 → writeDoes s m (.watchdogKick m w) A.mgsWdog w (s.satInc A.mgsResets F.mgsResets_badkey)) ∧
      writeDoes s m (.wqpop m) A.mgsWqpop 1
        ({ s with mgs := { s.mgs with watch := s.mgs.watch.drop 1 } } : State).showWatch ∧
      writeDoes s m (.save m n) A.mgsCfgjCmd (BitVec.ofNat 32 (2147483648 + n.toNat))
        (s.saveWritten (BitVec.ofNat 32 (2147483648 + n.toNat)))) ∧
  (∀ (s : State) (m : Master) (kind : BitVec 2) (w : Word),
      let op (n : Nat) (k : Nat) : Word := BitVec.ofNat 32 (256 * k + n)
      let len := (s.reg A.updLen).toNat
      let staged := (List.range 8).map fun j => s.reg (A.updKeystg j)
      (∀ why, s.openCause kind.toNat len = some why → writeDoes s m (.openTransfer m kind) A.updCmd (op 1 kind.toNat)
        ((s.setXfer 7).setFld A.updState F.updState_reason why)) ∧
      (s.openCause kind.toNat len = none → writeDoes s m (.openTransfer m kind) A.updCmd (op 1 kind.toNat)
        (s.openXfer kind.toNat len m.id none 0)) ∧
      (∀ x, s.upd.xfer = some x →
        writeDoes s m (.updDataWrite m w) A.updData w (s.xferData x (wordBytes w)) ∧
        (x.assoc = none → writeDoes s m (.closeTransfer m) A.updCmd (op 2 1) (s.closeXfer x) ∧
          writeDoes s m (.updAbort m) A.updCmd (op 3 1) (s.endXfer x))) ∧
      writeDoes s m (.activate m kind) A.updCmd (op 4 kind.toNat) (s.activate kind.toNat false) ∧
      writeDoes s m (.rollback m kind) A.updCmd (op 5 kind.toNat) (s.activate kind.toNat true) ∧
      (s.upd.act = none → writeDoes s m (.confirm m) A.updCmd (op 6 2) s) ∧
      (∀ a, s.upd.act = some a → a.kind = 2 → 2 < a.step → a.posted = false →
        writeDoes s m (.confirm m) A.updCmd (op 6 2)
          ((s.offerAct a.slot (if a.rollback then 3 else 2)).setAct (some { a with posted := true }))) ∧
      writeDoes s m (.key m) A.updKeycmd 0xF05E { s with upd := { s.upd with key := some staged, keyBusy := true } } ∧
      writeDoes s m (.safeRelease m) A.fltSafe (BitVec.ofNat 32 (0x5AFE * 65536)) s.safeOff ∧
      (let u := s.setFld A.fltState F.fltState_firstvalid 0
       writeDoes s m (.rearmF m) A.fltCtrl 1 { u with flt := { u.flt with firstArmed := true } }) ∧
      (let u := s.setFld A.fltState F.fltState_gravevalid 0
       writeDoes s m (.rearmG m) A.fltCtrl 2 { u with flt := { u.flt with graveArmed := true } }) ∧
      writeDoes s m (.unhold m) A.fltCtrl 4 (s.setFld A.fltState F.fltState_resetheld 0) ∧
      (let u := s.setReg A.fltStatus (sqClear (s.reg A.fltStatus) w)
       let matches_ := w.toNat / 16777216 = (s.reg A.fltStatus).toNat / 16777216
       (matches_ → F.fltStatus_degrade.get w = 1 → writeDoes s m (.fltStatusClear m w) A.fltStatus w
         (u.setFld A.fltState F.fltState_degraded 0)) ∧
       (¬(matches_ ∧ F.fltStatus_degrade.get w = 1) → writeDoes s m (.fltStatusClear m w) A.fltStatus w u)) ∧
      writeDoes s m (.softReset m) A.supRst (BitVec.ofNat 32 (0x5253 * 65536)) (s.nodeReset 6))

/-! ## Events of the field side -/

/-- R75, R76, R100: a group measurement shows the group's voltage and current and each terminal's current, drops a group
whose voltage falls more than 1 V below its threshold and takes one back at the threshold; GRP_OVER is flagged, posted
and reported. R82 to R84: a miswired terminal opens what it drives, loses its loop and its measurements, and is flagged,
posted and reported; an overtemperature shuts a switch; each is undone when its cause goes, and neither is taken twice.
-/
def Obligations.TerminalProtection : Prop :=
  (∀ (s : State) (g : GroupId) (v i : BitVec 16) (iout : List (BitVec 16)),
      let meas := A.trmGmeas (8 * g.val)
      let state := A.trmGstate (8 * g.val)
      let s1 := (s.setFld meas F.trmGmeas_vfld v.toNat).setFld meas F.trmGmeas_ifld i.toNat
      let s2 := s1.setFld state F.trmGstate_overnow (if 3000 < i.toNat then 1 else 0)
      let u := (List.range 8).foldl (fun s k => s.measureOut (8 * g.val + k) (iout.getD k 0)) s2
      let uv := 12000 + 500 * u.fld (A.trmGcfg (8 * g.val)) F.trmGcfg_uv
      let there := u.fld state F.trmGstate_fldok = 1
      (there → v.toNat + 1000 < uv → exec (.groupMeasurement g v i iout) s = .next (u.supplyLost g)) ∧
      (there → uv ≤ v.toNat + 1000 → exec (.groupMeasurement g v i iout) s = .next u) ∧
      (¬there → uv ≤ v.toNat → exec (.groupMeasurement g v i iout) s = .next (u.supplyBack g)) ∧
      (¬there → v.toNat < uv → exec (.groupMeasurement g v i iout) s = .next u) ∧
      (∃ t, exec (.grpOver g) s = .next t ∧ t.tly.crossing = s.tly.crossing ++
          [⟨105, 0x21, g.val, ⟨(s.event (A.trmGstatus (8 * g.val)) F.trmGstatus_grpover).reg state, .good⟩, 0, s.tbc, [], 5,
            false, false⟩] ∧
        t.regs = (s.event (A.trmGstatus (8 * g.val)) F.trmGstatus_grpover).regs ∧
        ∃ e, t.flt.crossing = s.flt.crossing ++ [e] ∧ e.src = 26 ∧ e.inst = g.val ∧ e.stamp = s.tbc)) ∧
  (∀ (s : State) (t : Term),
      let n := t.val
      let state := A.trmState n
      let one (s : State) (f : Fld) : State := s.setFld state f 1
      let gone (s : State) (f : Fld) : State := s.setFld state f 0
      (s.fld state F.trmState_miswirenow ≠ 1 →
        let u := (((one s F.trmState_miswirenow).openDriven n).dropLoop n).leaveTerminal n .bad none
        exec (.miswireDetect t) s =
          .next ((s.noteDriver ((u.flagBoth n F.trmStatus_miswire).report 20 n) n).evalTrips) ∧
        exec (.miswireClear t) s = .next s) ∧
      (s.fld state F.trmState_miswirenow = 1 → exec (.miswireDetect t) s = .next s ∧
        exec (.miswireClear t) s =
          .next ((((gone s F.trmState_miswirenow).recloseDriven n).requestLoop n).evalTrips)) ∧
      (s.fld state F.trmState_overtempnow ≠ 1 →
        exec (.overtempShutdown t) s = .next (s.noteDriver
          ((((one s F.trmState_overtempnow).openDriven n).flagBoth n F.trmStatus_overtemp).report 21 n) n) ∧
        exec (.thermalRestart t) s = .next s) ∧
      (s.fld state F.trmState_overtempnow = 1 → exec (.overtempShutdown t) s = .next s ∧
        exec (.thermalRestart t) s = .next ((gone s F.trmState_overtempnow).recloseDriven n)))

/-- R87 to R91, R362: a digital input. A crossing is stamped; a change of the filtered level opens an episode with the
stamp of the crossing that produced it and the trip matrix sees it at once; when the debounce time ends with the level
changed the input changes, with one edge of that stamp, and with it restored a glitch is counted; the initial level is
taken without an edge. -/
def Obligations.DigitalInputs : Prop :=
  ∀ (s : State) (t : Term) (level : Bool) (e : Episode), canonical s = true → s.field.cells.length = 48 →
    let n := t.val
    let state := A.trmState n
    let c := s.cell n
    let put (s : State) (c : Cell) : State := { s with field := { s.field with cells := s.field.cells.set n c } }
    let num (b : Bool) : Nat := if b then 1 else 0
    let shown := s.fld state F.trmState_level
    let di := s.fld state F.trmState_di
    (s.inMode n 1 = true →
      exec (.diThresholdCrossing t true) s = .next (put s { c with raw := true, rise := s.tbc }) ∧
      exec (.diThresholdCrossing t false) s = .next (put s { c with raw := false, fall := s.tbc }) ∧
      (shown ≠ num level →
        let u := s.setFld state F.trmState_level (num level)
        let stamp := if level then c.rise else c.fall
        (c.initial = false → c.episode = none → di ≠ num level →
          exec (.filteredLevelChange t level) s =
            .next ((put u { c with episode := some ⟨stamp, s.fld (A.trmDeb n) F.trmDeb_deb⟩ }).evalTrips)) ∧
        (c.initial = true ∨ c.episode ≠ none ∨ di = num level →
          exec (.filteredLevelChange t level) s = .next u.evalTrips)) ∧
      (c.initial = true → exec (.diInitialLevel t) s =
        .next (put (s.setFld state F.trmState_di shown) { c with initial := false }))) ∧
    (c.episode = some e →
      let u := put s { c with episode := none }
      (shown = di → exec (.debounceExpiry t) s = .next (u.satInc (A.trmCnt n) F.trmCnt_glitches)) ∧
      (shown ≠ di → exec (.debounceExpiry t) s =
        .next (((u.setFld state F.trmState_di shown).releaseEdge n (decide (shown = 1)) e.stamp).termEvent n
          F.trmStatus_dichange)))

/-- R92: an edge that the terminal's selection passes becomes one entry of the FIFO, a record of ring 104 with its
stamp, with the LOST mark where an edge was discarded before it; with the FIFO full, 256 entries, it is discarded, LOST
is incremented and OVERFLOW set, the next entry is to carry the mark, and the entries waiting stay as they are. -/
def Obligations.EdgeRecords : Prop :=
  ∀ (s : State) (t : Term) (rising : Bool) (stamp : Stamp), canonical s = true →
    let n := t.val
    let sel := s.fld (A.trmDi n) F.trmDi_edge
    let wanted := if rising then sel % 2 = 1 else sel / 2 = 1
    let u := s.releaseEdge n rising stamp
    (¬wanted ∨ s.fld A.tsuCtrl F.tsuCtrl_en = 0 → u = s) ∧
    (wanted → s.fld A.tsuCtrl F.tsuCtrl_en = 1 → s.fld A.tsuLevel F.tsuLevel_level < 256 →
      u.tly.crossing = s.tly.crossing ++ [⟨104, 0x10, (if s.field.lostMark then 32768 else 0) +
        (if rising then 16384 else 0) + n, ⟨0, .good⟩, 0, stamp, [], 5, false, false⟩] ∧
      u.fld A.tsuLevel F.tsuLevel_level = s.fld A.tsuLevel F.tsuLevel_level + 1 ∧ u.field.lostMark = false) ∧
    (wanted → s.fld A.tsuCtrl F.tsuCtrl_en = 1 → 256 ≤ s.fld A.tsuLevel F.tsuLevel_level →
      u.tly.crossing = s.tly.crossing ∧ u.field.lostMark = true ∧ u.fld A.tsuStatus F.tsuStatus_overflow = 1 ∧
      u.fld A.tsuLevel F.tsuLevel_lost = Nat.min (s.fld A.tsuLevel F.tsuLevel_lost + 1) F.tsuLevel_lost.max ∧
      u.fld A.tsuLevel F.tsuLevel_level = s.fld A.tsuLevel F.tsuLevel_level)

/-- R94 to R108, R371: outputs and loops of a terminal: the end of a mode transition, the resolution of a gate's order,
the current limit, the demagnetization's end, overload with its retry, open load, share, and the short of a loop with
its retry. -/
def Obligations.SwitchEvents : Prop :=
  ∀ (s : State) (t : Term),
    let n := t.val
    let state := A.trmState n
    let flag (f : Fld) : Bool := decide (s.fld state f = 1)
    let mode := s.fld (A.trmMode n) F.trmMode_mode
    let done := ((((s.setFld state F.trmState_modeact mode).setFld state F.trmState_busy 0).setFld state
      F.trmState_level 0).setFld state F.trmState_di 0).setFld (A.trmIout n) F.trmIout_iout 0
    let open_ := (s.openDriven n).setFld state F.trmState_offlatched 1
    let marked := match s.driver n with
      | some l => open_.setFld (A.trmState l) F.trmState_offlatched 1
      | none => open_
    (flag F.trmState_busy = true → flag F.trmState_sw = false → flag F.trmState_demag = false → s.discharging n = false →
      exec (.modeTransitionEnd t) s = .next ((((done.termEvent n F.trmStatus_modedone).enterMode n)).evalTrips)) ∧
    (s.leader n = true → exec (.gateOrder t) s =
      .next (s.noteIf ((s.showOrder n (s.governing n)).driveGate n (s.governing n)) n)) ∧
    exec (.demagEnd t) s = .next (s.setFld state F.trmState_demag 0) ∧
    (flag F.trmState_sw = true → exec (.currentLimitEngage t) s = .next (s.setFld state F.trmState_limit 1)) ∧
    (flag F.trmState_sw = true → exec (.overload t) s = .next (s.noteDriver
      (((marked.satInc (A.trmCnt n) F.trmCnt_overloads).flagBoth n F.trmStatus_overload).report 22 n) n)) ∧
    (flag F.trmState_sw = false → exec (.overload t) s = .next s ∧ exec (.currentLimitEngage t) s = .next s) ∧
    (∀ l, s.driver n = some l →
      (s.fld (A.trmState l) F.trmState_offlatched = 1 → s.fld (A.trmState l) F.trmState_cmd = 1 →
        s.fld (A.trmDo l) F.trmDo_retry ≠ 0 → s.heldOpen l = false →
        exec (.overloadRetry t) s = .next (s.noteIf (s.requestPermit l false) l)) ∧
      (s.fld (A.trmDo l) (if flag F.trmState_sw then F.trmDo_olon else F.trmDo_oloff) = 1 →
        exec (.openLoad t) s = .next ((s.termEvent n F.trmStatus_openload).report 23 n)) ∧
      (s.fld (A.trmState l) F.trmState_sw = 1 →
        exec (.share t) s = .next ((s.flagBoth n F.trmStatus_share).report 24 n))) ∧
    (flag F.trmState_loopsw = true → exec (.loopShort t) s = .next
      ((((s.dropLoop n).modCell n fun c => { c with retrying := true }).termEvent n F.trmStatus_loopshort).report 25 n)) ∧
    ((s.cell n).retrying = true → s.loopOrdered n = true → s.miswired n = false → exec (.loopRetry t) s =
      .next ((s.modCell n fun c => { c with retrying := false }).requestPermit n true))

/-- R116, R120, R121, R124, R126, R127, R139, R142, R216: the steps of a stage's setup: the end of the discharge
connects the point, or refuses it where it may not run, or frees the stage; the end of the open test and of the steep
interval; the return limit; a source's loss of compliance reaches the stages that use it; the readings of the cold-
junction sensors. R125: the calibration of the sources: a due source that is free and under the sequencer's control is
driven with a code the spec leaves open, owned by the calibration; it ends with the error measured, applied up to 1 %
and failed beyond. -/
def Obligations.Routing : Prop :=
  (∀ (s : State) (c : Conv) (st : Stage) (i : Source) (t : Term) (mv : BitVec 16) (p : Nat) (rs : List (Option Word)),
      let x := s.stage c st
      let d := s.desc p
      let put (x : StageSt) : State := s.putStage c st x
      let bad := s.pointMiswired d = true ∨ s.modesOk d = false ∨ s.sourcesOurs d = false
      let ret := if t.val < 32 then (s.reg A.muxRetLo).getLsbD t else (s.reg A.muxRetHi).getLsbD (t.val - 32)
      let lost := (s.setFld A.excComplNow ⟨i, i⟩ 1).event A.excStatus ⟨i, i⟩
      (x.phase = .discharge →
        (x.slot = none → exec (.dischargeEnd c st) s = .next (s.freeStage c st)) ∧
        (x.slot = some p → bad → exec (.dischargeEnd c st) s = .next (s.refuse c st p)) ∧
        (x.slot = some p → ¬bad → s.sourcesFree c d = true → exec (.dischargeEnd c st) s = .next (s.connect c st p)) ∧
        (x.slot = some p → ¬bad → s.sourcesFree c d = false → exec (.dischargeEnd c st) s = .next s)) ∧
      (x.phase = .openTest → exec (.openTestEnd c st mv) s =
        .next (put { x with phase := .steep, otFail := x.otFail || decide (1000 < mv.toInt) })) ∧
      (x.phase = .steep → exec (.steepIntervalEnd c st) s = .next (put { x with phase := .ready })) ∧
      (ret = true → exec (.retLimit t) s = .next ((s.event A.muxStatus F.muxStatus_retlimit).report 29 t)) ∧
      (ret = false → exec (.retLimit t) s = .next s) ∧
      (s.fld (A.excState i) F.excState_on = 1 → exec (.complianceLost i) s = .next ((allStages.foldl
        (fun s k =>
          let y := s.stage k.1 k.2
          if s.stageHolds i k.1 k.2 && (y.phase == .steep || y.phase == .ready || y.phase == .window) then
            s.putStage k.1 k.2 { y with compl := true }
          else s) lost).report 31 i)) ∧
      (s.fld (A.excState i) F.excState_on ≠ 1 → exec (.complianceLost i) s = .next s) ∧
      exec (.complianceRegained i) s = .next (s.setFld A.excComplNow ⟨i, i⟩ 0) ∧
      (∃ u, exec (.cjsRead rs) s = .next u ∧ u.field.cjsRead = some s.tbc ∧ u.lanes = s.lanes)) ∧
  (∀ (s : State) (i : Source) (err : BitVec 16) (n : Nat),
      let left := s.field.calLeft.filter fun k => s.sourceMode k == 0
      let s1 : State := { s with field := { s.field with calLeft := left } }
      let s2 : State := { s1 with free := s.free + 1 }
      let on := s2.sourceOn n 0xC 0x3F (Config.freeWord s.free).toNat
      let off := s.sourceOff i
      let f := off.field
      let s3 : State := { off with field := { f with calBusy := none, calPending := f.calPending && !f.calLeft.isEmpty } }
      (s.field.calBusy = none → s.shed = false → s1.calDue = some n → s1.owner n = 0xF → s1.sourceMode n = 0 →
        s1.calSuspended (n / 2) = false → exec .calibrationSlot s = .next { on with field := { on.field with
          calBusy := some n, calLeft := on.field.calLeft.erase n
          calNext := if on.field.calLeft.isEmpty then (n + 1) % 16 else on.field.calNext } }) ∧
      (s.field.calBusy ≠ none ∨ s.shed = true → exec .calibrationSlot s = .next s) ∧
      (s.field.calBusy = some i.val →
        (10000 < err.toInt.natAbs → exec (.calibrationDone i err) s =
          .next (((s3.setFld A.excCalfailNow ⟨i, i⟩ 1).event A.excStatus F.excStatus_calfail).report 32 i)) ∧
        (err.toInt.natAbs ≤ 10000 → exec (.calibrationDone i err) s =
          .next ((s3.setFld A.excCalfailNow ⟨i, i⟩ 0).setFld (A.excCal i) F.excCal_err err.toNat))) ∧
      (s.field.calBusy ≠ some i.val → exec (.calibrationDone i err) s = .next s))

/-- R126, R135, R152, R160, R161, R165, R168: the windows of a scanned converter: a ready stage opens its window at the
tick, or its point is posted ABANDONED with tag BAD where its source was withdrawn; a window closes with its mean, shown
and kept for its check; the first window of a pair goes on to the second with the sources exchanged; a blanked window
ends BLANKED. R143, R156, R163, R178, R219, R220: the samples of a window, the check that posts its result, and the
dedicated seam, at which a window closes and another opens on the same stage, or the held value is posted. -/
def Obligations.Windows : Prop :=
  (∀ (s : State) (c : Conv) (st : Stage) (p : Nat) (code : BitVec 24) (ovl : Bool),
      let x := s.stage c st
      let d := s.desc p
      let empty := { StageSt.reset with slot := some p, freed := s.tbc }
      let k := clipCode code ovl
      let r := s.rawOf st p x k ovl
      let shown := (s.countOverload c ovl).showLast c st p (if ovl then stOverrange else stOk) x.range k s.tbc
      let u := shown.modConv c fun v => { v with checks := v.checks ++ [r], lastClose := shown.tbc }
      let openTo (y : StageSt) : State := (s.putStage c st y).setFld (A.asyState c) F.asyState_modstg st
      s.scanned c = true → x.slot = some p →
        (x.phase = .ready → (s.stage c (1 - st.val)).phase ≠ .window →
          (s.sourcesOurs d = true → exec (.windowOpen c st) s = .next (openTo { x with
            phase := .window, opened := s.tbc, blanked := 0, ovl := false, ranging := false
            compl := x.compl || s.complNow d, samples := [] })) ∧
          (s.sourcesOurs d = false → exec (.windowOpen c st) s =
            .next ((((s.postHeld p stAbandoned .bad s.tbc).freeSources c d).putStage c st empty).cycleCheck c))) ∧
        (x.phase = .window →
          (d.pair = true → x.second = false → exec (.windowClose c st code ovl) s =
            .next (((u.freeSources c d).connectSources c d true).putStage c st
              { x with phase := .steep, second := true, samples := [], compl := false })) ∧
          (d.pair = false ∨ x.second = true → exec (.windowClose c st code ovl) s =
            .next ((((u.decideRange c r).freeSources c d).putStage c st
              { StageSt.reset with slot := some p, range := x.range, freed := u.tbc }).cycleCheck c)) ∧
          exec (.blankedWindowEnd c st) s =
            .next ((((s.endWindow c st stBlanked .uncertain).freeSources c d).putStage c st
              { StageSt.reset with slot := some p, range := x.range, freed := s.tbc }).cycleCheck c))) ∧
  (∀ (s : State) (c : Conv) (st : Stage) (a b v i : BitVec 16) (r : RawResult) (code : BitVec 24) (ovl : Bool),
      let checked := s.modConv c fun v => { v with checks := v.checks.erase r }
      let status := checked.rawStatus r.desc r
      let oldest := (s.conv c).checks.find? fun r => r.stage == st.val
      (∃ t, exec (.windowBoundSample c st a b v i false) s = .next t ∧ t.regs = s.regs ∧ t.lanes = s.lanes ∧
        t.flt = s.flt ∧ (c.val < s.field.convs.length → (t.conv c).lastSample = some (s.tbc, ⟨a.toInt, b.toInt, v.toInt, i.toNat⟩))) ∧
      (∃ t e, exec (.windowBoundSample c st a b v i true) s = .next t ∧ t.flt.crossing = s.flt.crossing ++ [e] ∧ e.src = 35) ∧
      (oldest = none → exec (.cmCheckDone c st) s = .next s) ∧
      (oldest = some r → r.desc.pair = false → exec (.cmCheckDone c st) s =
        .next (checked.postResult r.desc r status r.code 1)) ∧
      (oldest = some r → r.desc.pair = true → r.second = false →
        (status = stCmFault ∨ status = stOpen → exec (.cmCheckDone c st) s =
          .next ((checked.postResult r.desc r status r.code 1).endPair c st r.slot)) ∧
        (¬(status = stCmFault ∨ status = stOpen) → exec (.cmCheckDone c st) s = .next (checked.modConv c fun v =>
          { v with stages := v.stages.modify st (keepFirst r.slot ⟨status, r.code, r.range⟩) }))) ∧
      (s.dedicated c = true → (s.desc (s.dedicSlot c)).en = true →
        (s.dedicAllowed c = false ∨ s.dedicReady c = false → exec (.resultSeam c code ovl) s = .next (s.dedicHeld c)) ∧
        (s.dedicAllowed c = true → s.dedicReady c = true →
          let p := s.dedicSlot c
          let k := (s.conv c).opened
          let u := if 2 ≤ k then s.closeDedicated c (k % 2) p code ovl else s.postHeld p stAbandoned .uncertain s.tbc
          exec (.resultSeam c code ovl) s = .next ((u.openDedicated c (k % 2) p
            ((u.desc p).auto && (u.point p).range != (s.point p).range)).modConv c fun v => { v with opened := k + 1 }))))

/-- R164 to R166, R172 to R177, R179: blanking of a converter; its failures, each flagged before the converter fails;
the reference check, which fails it only where two supervision converters in service find it beyond 500 ppm; a stage
that fails is taken out, and the converter with both; self-tests. R178, R179, R184: the supervision converters: one
found failed is flagged, taken out of service and reported, once; where no three agree CAL_DISAGREE; a sweep shows the
voltages of the present terminals and the currents of the loops. -/
def Obligations.Converters : Prop :=
  (∀ (s : State) (c : Conv) (st : Stage) (k : BitVec 2) (a b : BitVec 16),
      let flag : Fld := match k.toNat with
        | 0 => F.asyStatus_reffail
        | 1 => F.asyStatus_stuck
        | 2 => F.asyStatus_xchk
        | _ => F.asyStatus_parity
      let state := A.asyState c
      let x := s.stage c st
      let ppm := (s.setFld (A.svcRefchk c) F.svcRefchk_ppm a.toNat).setFld (A.asyReferr c) F.asyReferr_ppm a.toNat
      let beyond := 2 ≤ ppm.svcAlive ∧ 500 < a.toInt.natAbs ∧ 500 < b.toInt.natAbs
      let out := if s.dedicated c then s else (s.abandon c st .uncertain none).releaseStage c st none
      let out := out.setFld state (if st.val = 0 then F.asyState_stgaout else F.asyState_stgbout) 1
      let out := ((out.putStage c st (out.stage c st)).event (A.asyStatus c) F.asyStatus_stagefail).report 34 c
      let tested := (s.modConv c fun v => { v with selfTesting := false }).event (A.asyStatus c) F.asyStatus_selftestdone
      ((s.conv c).blankFrom = none → exec (.blankStart c) s = .next ((s.setFld state F.asyState_blanknow 1).modConv c
        fun v => { v with blankFrom := some s.tbc })) ∧
      (∃ t, exec (.blankEnd c) s = .next t ∧ t.regs = (s.setFld state F.asyState_blanknow 0).regs ∧
        (c.val < s.field.convs.length → (t.conv c).blankFrom = none)) ∧
      exec (.converterFail c k) s = .next ((s.event (A.asyStatus c) flag).failConverter c) ∧
      (0 < s.svcAlive → beyond → exec (.refnCheck c a b) s =
        .next ((ppm.event (A.asyStatus c) F.asyStatus_reffail).failConverter c)) ∧
      (0 < s.svcAlive → ¬beyond → exec (.refnCheck c a b) s = .next ppm) ∧
      (s.svcAlive = 0 → exec (.refnCheck c a b) s = .next s) ∧
      (s.stageOut c st = true → exec (.stageFail c st) s = .next s) ∧
      (s.stageOut c st = false →
        (out.stageOut c (1 - st.val) = true → exec (.stageFail c st) s = .next (out.failConverter c)) ∧
        (out.stageOut c (1 - st.val) = false → exec (.stageFail c st) s =
          .next ((out.recomputeLoad c).cycleCheck c))) ∧
      (x.free = true → s.scanned c = true → s.stageOut c st = false → s.carrying c = false →
        exec (.stageSelftest c st) s = .next (s.putStage c st { x with phase := .selfTest })) ∧
      ((s.conv c).selfTesting = true →
        exec (.selftestDone c false) s = .next tested ∧
        exec (.selftestDone c true) s = .next ((((tested.setFld state F.asyState_state 0).setFld (A.asyCtrl c)
          F.asyCtrl_en 0).setFld state F.asyState_stgaout 0).setFld state F.asyState_stgbout 0))) ∧
  (∀ (s : State) (k : Svc) (f : Option Svc) (vs is : List (BitVec 16)) (load : Byte), canonical s = true →
      s.terms ≤ 48 →
      let alive : Fld := ⟨F.svcState_alive.lo + k, F.svcState_alive.lo + k⟩
      let fail : Fld := ⟨F.svcStatus_scfail.lo + k, F.svcStatus_scfail.lo + k⟩
      exec (.svcMutualCheck f true) s = .next ((s.event A.svcStatus F.svcStatus_caldisagree).report 37 0) ∧
      exec (.svcMutualCheck none false) s = .next s ∧
      (s.fld A.svcState alive = 1 → exec (.svcMutualCheck (some k) false) s =
        .next (((s.event A.svcStatus fail).setFld A.svcState alive 0).report 36 k)) ∧
      (s.fld A.svcState alive = 0 → exec (.svcMutualCheck (some k) false) s = .next s) ∧
      (s.shed = true → exec (.svcSweep vs is load) s = .next s) ∧
      (s.shed = false → ∃ t, exec (.svcSweep vs is load) s = .next t ∧ t = { s with regs := t.regs } ∧
        ∀ n, n < s.terms → t.fld (A.svcTv n) F.svcTv_volt = (satMv (vs.getD n 0)) % 65536))

/-- R196, R198, R199, R202, R203: a modem's states: sent, reply begun, reply complete with its bytes, their number and
the first one in error, no reply, and a frame that nobody asked for; the ownership of the modems; a poll of the lamp
room; the end of a loop's warm-up. -/
def Obligations.ModemEvents : Prop :=
  ∀ (s : State) (h : Modem) (t : Term) (bytes req : List Byte) (e : Option Nat) (r : Option HartReply),
    let state := A.hrtMstate h
    let status := A.hrtMstatus h
    let errs := A.hrtMerr h
    let sup := s.fld (A.hrtLcfg t) F.hrtLcfg_sup
    let n := Nat.min bytes.length 128
    let first := match e with
      | none => 0xFF
      | some i => if i < n then i else 0xFF
    let got := ((((s.putBytes (A.hrtMrxbuf h 0) (bytes.take 128)).setModem h 4).setFld state F.hrtMstate_rxlen n).setFld
      state F.hrtMstate_cd 0).setFld state F.hrtMstate_erridx first
    let got := if first ≠ 0xFF ∨ 128 < bytes.length then (got.event status F.hrtMstatus_rxerr).satInc errs F.hrtMerr_rxerrs
      else got
    let got := got.event status F.hrtMstatus_rxdone
    (s.modem h = 1 → exec (.txDone h) s = .next ((s.setModem h 2).event status F.hrtMstatus_txdone)) ∧
    (s.modem h ≠ 1 → exec (.txDone h) s = .next s) ∧
    (s.modem h = 2 → exec (.noReply h) s = .next ((((s.setModem h 4).setFld state F.hrtMstate_rxlen 0).satInc errs
      F.hrtMerr_noreplies).event status F.hrtMstatus_noreply)) ∧
    ((s.setFld state F.hrtMstate_cd 1).modem h = 2 →
      exec (.carrierDetect h) s = .next ((s.setFld state F.hrtMstate_cd 1).setModem h 3)) ∧
    ((s.setFld state F.hrtMstate_cd 1).modem h ≠ 2 → exec (.carrierDetect h) s = .next (s.setFld state F.hrtMstate_cd 1)) ∧
    (s.modem h = 3 →
      (r = none → exec (.rxDone h bytes e r) s = .next got) ∧
      (∀ q, r = some q → exec (.rxDone h bytes e r) s = .next (if got.field.owner then got else got.pollReply q))) ∧
    (s.modem h ≠ 3 → exec (.rxDone h bytes e r) s = .next s) ∧
    (s.modemFree h = true → exec (.unsolicitedFrame h) s =
      .next ((s.setFld state F.hrtMstate_cd 0).satInc errs F.hrtMerr_rxerrs)) ∧
    ((∀ k < 4, s.modemFree k = true) → exec .ownerChange s = .next { s with field := { s.field with
      owner := decide (s.fld A.hrtCtrl F.hrtCtrl_owner = 1) } }) ∧
    ((∃ k < 4, s.modemFree k = false) → exec .ownerChange s = .next s) ∧
    (s.field.owner = false → s.modemFree h = true → s.fld (A.hrtLcfg t) F.hrtLcfg_hpoll ≠ 0 → sup < 48 →
      s.modemMay h sup = true → req ≠ [] → req.length ≤ 128 →
      exec (.hartPoll h t req) s = .next ((((s.setFld (A.hrtMcfg h) F.hrtMcfg_term sup).putBytes (A.hrtMtxbuf h 0) req).setFld
        (A.hrtMtxlen h) F.hrtMtxlen_len req.length).sendWritten h)) ∧
    (s.fld (A.hrtLstate t) F.hrtLstate_warmnow = 1 → exec (.warmUpEnd t) s =
      .next ((s.setFld (A.hrtLstate t) F.hrtLstate_warmnow 0).modLoop t fun x => { x with afterWarm := true }))

/-- R177, R212, R213, R222 to R224: the check of a commit gives its cause and place, or leaves the set waiting for the
next seam; at that seam it becomes the active set, the period with its slot ceiling and next seam are its own; points of
a converter that failed are relocated, and restored when it returns. R213, R214, R221, R222, R224: at the seam the
waiting set becomes the active one: the windows of the points it changes end, its words are the active registers, its
period with the slot ceilings and the next seam are in force, its plans carry the points of the converters that are
down; then every converter whose mode or list changed begins anew, and APPLIED is set. R215, R218, R224, R225: the cycle
seam of a converter starts its next cycle, or marks it late and reports it while points of the last one are left; a
point whose sources are ready takes the next stage, which starts to discharge. -/
def Obligations.Sequencer : Prop :=
  (∀ (s : State) (copy : List (Nat × Word)) (c : Conv) (why place : Nat),
      let idle := s.setFld A.seqCommit F.seqCommit_busy 0
      let s1 : State := { idle with field := { idle.field with checking := none } }
      let told := (s1.setFld A.seqCommit F.seqCommit_reason why).setFld A.seqCommit F.seqCommit_where place
      let plan := s.field.plans.getD c.val .none
      (s.field.checking = none → exec .commitCheckDone s = .next s) ∧
      (s.field.checking = some copy →
        (s1.commitCause (scanSet copy) = none → exec .commitCheckDone s =
          .next { s1 with field := { s1.field with waiting := some copy } }) ∧
        (s1.commitCause (scanSet copy) = some (why, place) → exec .commitCheckDone s =
          .next ((told.setFld A.seqCommitHi F.seqCommitHi_where8 (if why = 1 then place / 256 else 0)).event A.seqStatus
            F.seqStatus_rejected))) ∧
      (s.field.waiting = none → exec .commitApply s = .next s) ∧
      (s.converterDown c = true → s.field.carried = [] → plan.missing = false →
        let moved := (({ s with field := { s.field with carried := [c.val] } } : State).showRuns).carryPoints plan.moves
        ((∀ d r, plan ≠ .standIn d r) → exec (.converterRelocate c) s = .next (moved.event A.seqStatus F.seqStatus_relocated)) ∧
        (∀ d r, plan = .standIn d r → exec (.converterRelocate c) s =
          .next (((moved.endFlights d).takeMode d).event A.seqStatus F.seqStatus_relocated))) ∧
      ((s.conv c).enabling = true → s.fld (A.asyState c) F.asyState_state ≠ 3 → s.field.carried = [] →
        exec (.converterRestore c) s =
          .next (((s.modConv c fun v => { v with enabling := false }).takeMode c).beginCycle c))) ∧
  (∀ (s : State) (copy : List (Nat × Word)), s.field.waiting = some copy →
      let set := scanSet copy
      let new := copy.map fun x => (toActive x.1, x.2)
      let touched := (List.range 512).filter fun p => changedPoint s.regs new p
      let was := (List.range 8).map fun c => (s.modeOf c, s.dedicFor c)
      let ended : State := allStages.foldl
        (fun s k =>
          let x := s.stage k.1 k.2
          match x.slot with
          | none => s
          | some p =>
            if touched.contains p && x.inFlight then
              (if x.phase = .window then s.endWindow k.1 k.2 stAbandoned .uncertain else s).releaseStage k.1 k.2 none
            else s) s
      let cleared : State := { ended with regs := ended.regs.filter fun x => !isActive x.1 }
      let active := new.foldl (fun s x => s.setReg x.1 x.2) cleared
      let kept := touched.foldl (fun u p => u.keepPoint (s.desc p) p) active
      let longer := set.period != kept.frame.period
      let timed : State := { kept with frame := { kept.frame with period := set.period } }
      let ceiled := (List.range 3).foldl (fun s l => s.setFld (A.lnCeil l) F.lnCeil_s (slotCeiling set.period)) timed
      let next : Stamp := ceiled.frame.f + BitVec.ofNat 64 set.period
      let seamed := if ceiled.frame.running then
          (ceiled.setReg A.seqNextSeamLo (next.truncate 32)).setReg A.seqNextSeamHi ((next >>> 32).truncate 32)
        else ceiled
      let plans := (List.range 8).map fun c => seamed.planFor set c
      let down := (List.range 8).filter fun c =>
        seamed.converterDown c && !(set.list c).isEmpty && !(plans.getD c .none).missing
      let planned : State := { seamed with field := { seamed.field with waiting := none, plans := plans, carried := down } }
      let shown := ((List.range 8).foldl (fun s c => s.showPlan set c (plans.getD c .none)) planned).showRuns
      let moded := (List.range 8).foldl
        (fun s c =>
          let m := s.modeOf c
          let fresh := (m, s.dedicFor c) != was.getD c (0, none) || s.fld (A.asyState c) F.asyState_state != m
          if fresh then (s.endFlights c).takeMode c
          else if m = 2 && (longer || touched.contains (s.dedicSlot c)) then s.restartDedicated c
          else s) shown
      exec .commitApply s = .next (((List.range 8).foldl (fun s c => s.beginCycle c) moded).event A.seqStatus
        F.seqStatus_applied) ∧
      timed.frame.period = set.period ∧ planned.field.waiting = none ∧ planned.frame.period = set.period) ∧
  (∀ (s : State) (c : Conv) (p st : Nat),
      let x := s.conv c
      let may := s.scanned c = true ∧ s.field.calPending = false ∧ s.shed = false
      (may → x.running = true → s.cycleEnded c = false → exec (.cycleStart c) s =
        .next (((s.modConv c fun v => { v with late := true }).event A.seqStatus F.seqStatus_cyclelate).report 41 c)) ∧
      (may → x.running = true → s.cycleEnded c = true → exec (.cycleStart c) s = .next ((s.showLoad c).newCycle c)) ∧
      (may → x.running = false → exec (.cycleStart c) s = .next (s.newCycle c)) ∧
      (¬may → exec (.cycleStart c) s = .next s) ∧
      (s.scanned c = true → x.running = true → (x.todo.find? fun p => !s.loopWaits p) = some p → s.nextStage c = some st →
        ((s.desc p).sourceIds.all s.sourceReady = true → exec (.pointSetupStart c) s =
          .next ((s.putStage c st { StageSt.reset with
            phase := .discharge, slot := some p, freed := (s.stage c st).freed }).modConv c
              fun v => { v with todo := v.todo.erase p, opened := v.opened + 1 })) ∧
        ((s.desc p).sourceIds.all s.sourceReady = false → exec (.pointSetupStart c) s = .next s)) ∧
      (s.scanned c = true → x.running = true → (x.todo.find? fun p => !s.loopWaits p) = none →
        exec (.pointSetupStart c) s = .next s))

/-- R379, R380: a permit token. A group whose voltage lies within the margin, and every group while the field supply
limits, is deferred, shown and counted; the requests granted are a part of the queue in its order, which puts lower
priority numbers first; none of them is of a deferred group, and their cost is shown and is at most the units of a
token. R366, R380, R381: one copy of the trip matrix asserting a term alone counts, flags and reports it, and every gate
is resolved; each configuration cell rewritten by the scrub is flagged, counted and reported; a stagger slot lets the
next loop enter while the stagger runs; the request deferred for more than 1 s is marked, flagged and reported once. -/
def Obligations.OutputEvents : Prop :=
  (∀ s : State,
      let entered := (if s.field.staggerBegan || s.field.staggerDone then s else s.staggerNext).staggerCheck
      let groups := List.range (entered.terms / 8)
      let marked := groups.foldl (fun u g => u.setBit A.supPmtState ⟨16 + g, 16 + g⟩ (entered.groupDeferred g)) entered
      let counted := marked.satAdd A.supPmtCnt F.supPmtCnt_defers (groups.filter entered.groupDeferred).length
      let u : State := { counted with field := { counted.field with
        permits := counted.field.permits.map entered.deferMark } }
      let queue := u.field.permits.foldl (fun q r => u.permitInsert r q) []
      let units := u.fld A.supPmtCfg F.supPmtCfg_units
      let given := u.permitGrants queue units
      let cost := given.foldl (fun n r => n + u.permitCost r) 0
      exec .permitToken s = .next ((given.foldl State.grant u).setFld A.supPmtState F.supPmtState_granted cost) ∧
      cost ≤ units ∧ given.Sublist queue ∧ queue.Pairwise (fun a b => u.permitPrio a ≤ u.permitPrio b) ∧
      ∀ r ∈ given, u.groupDeferred (r.term / 8) = false) ∧
  (∀ (s : State) (n : TripId) (found : List TripId) (r : PermitReq),
      let k := n.val
      let held := if s.fld (A.trpCfg k) F.trpCfg_latch = 1 then s.setBitAt A.trpLatched k true else s
      let asserted := if (held.reg A.trpAssert).getLsbD k then held else held.assertTerm k
      let counted := (asserted.event A.trpStatus F.trpStatus_dupmismatch).satInc A.trpCnt F.trpCnt_mismatches
      let late : State := { s with field := { s.field with permits := s.field.permits.map fun q =>
        { q with long := q.long || (q.term == r.term && q.loop == r.loop) } } }
      exec (.dupMismatch n) s = .next ((List.range 48).foldl State.resolveGate (counted.report 61 k)) ∧
      exec (.latchScrub found) s = .next (found.foldl
        (fun s n => ((s.event A.trpStatus F.trpStatus_latchcorr).satInc A.trpCnt F.trpCnt_corrections).report 62 n.val) s) ∧
      (s.field.staggerBegan = true → s.field.staggerDone = false →
        exec .staggerSlot s = .next s.staggerNext.staggerCheck) ∧
      (s.field.staggerBegan = false ∨ s.field.staggerDone = true → exec .staggerSlot s = .next s) ∧
      ((s.field.permits.find? fun q => q.deferred.isSome && !q.long) = none → exec .deferLong s = .next s) ∧
      ((s.field.permits.find? fun q => q.deferred.isSome && !q.long) = some r → exec .deferLong s =
        .next ((late.event A.supPmtStatus F.supPmtStatus_deferlong).report 6 (r.term / 8))))

/-! ## The tally -/

/-- R28, R340, R341: a record at the tally's crossing enters its store, where that has room; at the cut of frame k the
records stamped before F(k) leave the store as the closed set, in the order of R26 and with the time record behind them,
and the others stay; a distributor whose CRC differs leaves its lane out, and with no two that agree the frame is a
split one. -/
def Obligations.InputSets : Prop :=
  ∀ (s : State) (r : InRec) (rest : List InRec) (a b c : Bool),
    let due (x : InRec) : Bool := decide (x.stamp.toNat < s.frame.f.toNat)
    let own := s.tly.store.filter due
    let u : State := s.noteLate own
    let cut := sortRecs own ++ [u.timeRecord]
    let bad := ((allLanes.zip [a, b, c]).filter fun x => x.2).map fun x => x.1
    let closed : State := { u with tly := { u.tly with
      store := u.tly.store.filter fun x => !due x, cutSet := cut, excluded := bad } }
    let shown := closed.lastPeak A.tlyInset F.tlyInset_last F.tlyInset_peak (entriesOf cut)
    let ended : State := { shown with frame := { shown.frame with phase := .cut } }
    let split := ((ended.abandonRepair s.frame.f).splitFrame false s.frame.f).carrySet
    (s.tly.crossing = [] → exec .inputArrival s = .next s) ∧
    (s.tly.crossing = r :: rest → 32768 < entriesOf s.tly.store + r.entries → exec .inputArrival s = .next s) ∧
    (s.tly.crossing = r :: rest → entriesOf s.tly.store + r.entries ≤ 32768 →
      let v : State := { s with tly := { s.tly with crossing := rest, store := s.tly.store ++ [r] } }
      exec .inputArrival s = .next ((if r.ring = 104 then
        v.setFld A.tsuLevel F.tsuLevel_level (v.fld A.tsuLevel F.tsuLevel_level - 1) else v).hcmdPosted r)) ∧
    (s.frame.running = true → s.frame.phase = .seam →
      (bad.length < 2 → exec (.inputCut a b c) s = .next ended) ∧
      (2 ≤ bad.length → exec (.inputCut a b c) s = .next { split with
        tly := { split.tly with excluded := [] }, frame := { split.frame with phase := .released } })) ∧
    (s.frame.running = false ∨ s.frame.phase ≠ .seam → exec (.inputCut a b c) s = .next s) ∧
    (sortRecs own).Perm own ∧ (sortRecs own).Pairwise (fun x y => recAfter y x = true)

/-- R27, R31, R346: at the seam of a running node the voters decide the frame that ends, the requests of modes and
windows and the output commands take effect, and the next frame, one period later, begins with its number and the seam
after it shown; the first frame is frame 0 at F0. While the frame before is not released, and before F0 is set, there is
no seam. R342, R532, R548: the release of a frame whose set is closed. Held by the lamp room or by an activation, the
set is carried on and no lane is released; else repair takes its step, every lane that takes part receives the delivery
set and the timed commands, the rest is carried, and the lanes released are those of the frame. -/
def Obligations.Frames : Prop :=
  (∀ (s : State) (k : Nat) (f fPrev : Stamp),
      let voted := !s.tly.inFrame.isEmpty
      let decided := if voted then s.decideFrame s.frame.k f else s
      let u := ((decided.retireAsked decided.frame.k f).showWindows k).showMode
      let u := u.modTly fun t => { t with
        inFrame := [], sent := [none, none, none], arrived := [none, none, none], drifted := [], retireReq := none }
      let u := u.flushOuts.outRecord f
      let u := if voted then u.modField fun x => { x with loading := false } else u
      let u : State := { u with
        frame := { u.frame with running := true, k := k, f := f, fPrev := fPrev, phase := .seam, held := u.actHolds }
        flt := { u.flt with notices := 0 } }
      let v := (u.setReg A.seqFrameCnt (BitVec.ofNat 32 k)).setPair A.seqNextSeamLo (f.toNat + u.frame.period)
      (s.frame.running = true → s.nextSeam =
        some (s.frame.k + 1, s.frame.f + BitVec.ofNat 64 s.frame.period, s.frame.f)) ∧
      (s.frame.running = false → s.frame.f0 = some f → s.nextSeam = some (0, f, BitVec.ofNat 64 (s.pair A.tmbStartLo))) ∧
      (s.nextSeam = some (k, f, fPrev) → s.heldReset = false → (s.frame.running = true → s.frame.phase = .released) →
        exec .frameSeam s = .next ((List.range 8).foldl State.dedicSeam v)) ∧
      v.frame.k = k ∧ v.frame.f = f ∧ v.frame.fPrev = fPrev ∧ v.frame.phase = .seam ∧
      (s.frame.running = true → s.frame.phase ≠ .released → exec .frameSeam s = .next s) ∧
      (s.frame.running = false → s.frame.f0 = none → exec .frameSeam s = .next s)) ∧
  (∀ (s : State) (retrim : Bool), s.frame.phase = .cut →
      let u : State := { s with frame := { s.frame with phase := .released } }
      let w := (u.inputOut.repairStep retrim)
      let w : State := { w with tly := { w.tly with returnReq := none } }
      let d := w.deliverySet
      let x : State := { w with tly := { w.tly with carried := d.2.map carriedRec, cutSet := [] }, tcmds := [] }
      let v := x.partLanes
      let fail := d.1.any fun r => r.ring == 116 && r.kind == 0xC0 && r.source == 5
      let sent := v.foldl (fun s l => s.releaseLane w.tcmds d.1 fail l) x
      let told := if d.2.isEmpty then sent else v.foldl State.noteCarry sent
      let done : State := { told with tly := { told.tly with inFrame := v } }
      let kept := u.carrySet
      let stays : State := { kept with tly := { kept.tly with excluded := [] } }
      (s.mgs.holding = true ∨ s.frame.held = true → exec (.frameRelease retrim) s = .next stays.showMode) ∧
      (s.mgs.holding = false → s.frame.held = false →
        exec (.frameRelease retrim) s = .next done.showMode.firstRelease.actReleased))

/-- R241, R345, R347 to R350, R352: a heartbeat reaches the voters, and the canary shows how far the lane's clock
departs and marks it as drifted beyond 2 %; the copy of a repair ends; a scrub's find is counted, or is the lane's
fault; the next transaction is judged by the voters' copies and handed on. -/
def Obligations.LaneEvents : Prop :=
  ∀ (s : State) (l : LaneId) (ticks : BitVec 32) (h : Heartbeat) (r : Repair) (x : HandOn) (a b c : Bool),
    let beat : State := { s with tly := { s.tly with
      sent := s.tly.sent.set l.val none, arrived := s.tly.arrived.set l.val (some h) } }
    let t := ticks.toNat
    let off : Int := h.cycles - 2 * t
    let shown := beat.setFld (A.tlyClk l.val) F.tlyClk_ppm (BitVec.ofInt 16 (roundDiv (off * 100000) (2 * t))).toNat
    let d := s.lane r.donor
    let copied := s.modLane l fun ln => { ln with
      keep := d.keep, code := if r.code then d.code else ln.code, fault := .none }
    let coded := if r.code then copied.setReg (A.lnCodedig l.val) (copied.reg (A.lnCodedig r.donor.val)) else copied
    let us := (s.tbc.toNat - (s.frame.f.toNat + 500)) / 100
    let timed := coded.setFld A.tlyRejoin F.tlyRejoin_copy (Nat.min us 65535)
    let lost := (s.satInc (A.lnEcc l.val) F.lnEcc_uncorr).event (A.lnStatus l.val) F.lnStatus_eccuncorr
    let fails (s : State) (f : LaneFault) : State := s.modLane l fun ln => { ln with fault := f }
    let taken : State := { s with tly := { s.tly with handOn := s.tly.handOn.erase x } }
    let good := taken.voters.filter fun v => [a, b, c].getD v false
    (s.tly.sent.getD l.val none = some h → (h.cycles < 20000 ∨ t = 0) → exec (.heartbeat l ticks) s = .next beat) ∧
    (s.tly.sent.getD l.val none = some h → 20000 ≤ h.cycles → 0 < t →
      (25 * off.natAbs ≤ t → exec (.heartbeat l ticks) s = .next shown) ∧
      (t < 25 * off.natAbs → exec (.heartbeat l ticks) s = .next { shown with
        tly := { shown.tly with drifted := l :: shown.tly.drifted } })) ∧
    (s.tly.sent.getD l.val none = none → exec (.heartbeat l ticks) s = .next s) ∧
    (s.tly.repair = some r → r.lane = l → r.released.isSome = true → r.copied = false →
      exec (.repairCopyEnd l) s = .next { timed with tly := { timed.tly with repair := some { r with copied := true } } }) ∧
    (s.tly.repair = none → exec (.repairCopyEnd l) s = .next s) ∧
    exec (.keepScrub l .clean) s = .next s ∧
    exec (.keepScrub l .corrected) s = .next (((s.satInc (A.lnEcc l.val) F.lnEcc_corr).event (A.lnStatus l.val)
      F.lnStatus_ecccorr).raise 49 l.val 0 l.val 0 s.tbc) ∧
    exec (.keepScrub l .keepLost) s = .next (fails lost .keepMemory) ∧
    exec (.keepScrub l .codeLost) s = .next (fails lost .codeMemory) ∧
    exec (.keepScrub l .parity) s = .next (fails s .parity) ∧
    (s.heldReset = false → s.nextHandOn = some x → exec (.transactionHandOn a b c) s =
      .next (((taken.judge good).deliverTxn x.txn good).timeHandOn x.beyond)) ∧
    (s.nextHandOn = none → exec (.transactionHandOn a b c) s = .next s)

/-! ## Records, clock and panel -/

/-- R411, R412, R414, R418, R420, R434: a group at the journal's crossing is refused where it is too long, past the
identities of the index or without a segment to go to; it waits while the caddy has no room, and else enters the caddy
with the next SEQ and its records; the front group of the caddy is programmed where it fits, indexed and told to its
writer, and a word whose program fails is an error of the flash. R402, R424, R425, R432, R434: a compaction begins with
its begin record where it is due; its copies end with the end record; an erasure ends a victim, is retried once, and
marks the segment bad when it fails again; a raw command of the journal port ends with its result: the word read,
programmed where it was erased, or the segment erased. R422, R423: recovery shows the segments' headers, notes a
corrected word, formats a journal whose partition is erased, and reads the records: it finds the next SEQ and the
highest stamp. -/
def Obligations.Journal : Prop :=
  (∀ (s : State) (g : JGroup) (rest : List JGroup) (ok : Bool) (q : Nat) (later : List (Nat × JGroup)),
      let taken := s.modJnl fun j => { j with offered := rest }
      let refused (v : Verdict) := (taken.countRefused v).tellRefusal g.origin
      let long := 32 < g.recs.length ∨ 4096 < g.len
      let crowded := 16384 < s.identsWith g
      let none_ := s.jnlPhase = 3 ∨ s.openable < s.opensFor g.len
      (s.jnl.offered = g :: rest → s.jnlPhase ≠ 0 →
        (long → exec .journalGroupAccept s = .next (refused .tooBig)) ∧
        (¬long → crowded → exec .journalGroupAccept s = .next (refused .indexFull)) ∧
        (¬long → ¬crowded → none_ → exec .journalGroupAccept s = .next (refused .full)) ∧
        (¬long → ¬crowded → ¬none_ → 32768 < s.caddyFill + g.len → exec .journalGroupAccept s = .next s) ∧
        (¬long → ¬crowded → ¬none_ → s.caddyFill + g.len ≤ 32768 →
          exec .journalGroupAccept s = .next (taken.enterCaddy g) ∧
          (taken.enterCaddy g).jnl.caddy = s.jnl.caddy ++ [(s.jnlSeq, g)] ∧ (taken.enterCaddy g).jnl.offered = rest)) ∧
      (s.jnl.offered = [] ∨ s.jnlPhase = 0 → exec .journalGroupAccept s = .next s) ∧
      (s.jnl.caddy = [] → exec (.groupCommit ok) s = .next s) ∧
      (s.jnl.caddy = (q, g) :: later →
        (s.placeGroup (wordUp g.len) q = none → exec (.groupCommit ok) s = .next s) ∧
        ∀ (t : State) (a : Nat), s.placeGroup (wordUp g.len) q = some (t, a) →
          let u := ((t.programGroup g q a).modJnl fun j => { j with caddy := later }).showCaddy
          exec (.groupCommit true) s = .next ((u.imageEvents g).tellCommit g.origin (q + g.recs.length - 1)) ∧
          exec (.groupCommit false) s = .next (t.programFailed a))) ∧
  (∀ (s : State) (ok : Bool) (k : Nat) (ks : List Nat) (r : RawOp),
      let num := (s.jnl.comp.num + 1) % 65536
      let begun := (s.modComp fun _ => ⟨.begun, num, s.victims.map fun x => x.1, s.tbc, [], true⟩).modJnl
        fun j => { j with compAsked := false }
      let erring := s.flashError (k * 65536)
      let seg := r.word / 4096
      let segErr := s.flashError (seg * 65536)
      let read := (List.range 4).foldl (fun t j => t.setReg (A.jnlFdata j) (s.flash32 r.word j)) s
      (s.jnlPhase = 1 ∨ s.jnlPhase = 3 → s.jnl.comp.step = .idle → s.compactionDue = true → s.victims ≠ [] →
        exec .compactionStart s =
          .next (begun.enterCaddy ⟨0x1F, .compBegin, [begun.internalRec 0xF1 (beginPayload num s.victims)]⟩)) ∧
      (s.jnl.comp.step ≠ .idle ∨ s.victims = [] → exec .compactionStart s = .next s) ∧
      (s.jnl.comp.step = .copying → s.jnlPhase ≠ 2 →
        let rs := s.toCopy s.jnl.comp.victims
        ∀ (t : State) (ps : List (Nat × Nat × Nat)), s.planCopies s.jnlSeq rs none = some (t, ps) →
          let new := (t.jnl.segs.map fun x => x.1).filter fun k => !(s.jnl.segs.any fun x => x.1 == k)
          let u := (State.programCopies s t new rs ps).modComp
            fun c => { c with step := .ended, copies := ps.map fun p => (p.1, p.2.2) }
          let bs := rs.flatMap fun r => s.storedAt r.2.1 r.2.2
          let p := bytesWords (le 2 u.jnl.comp.num ++ le 2 0 ++ le 4 rs.length ++ le 4 bs.length ++ wordBytes (crc32c bs))
          exec .compactionCopyEnd s = .next (u.enterCaddy ⟨0x1F, .compEnd, [u.internalRec 0xF2 p]⟩)) ∧
      (s.jnl.comp.step ≠ .copying → exec .compactionCopyEnd s = .next s) ∧
      (s.jnl.comp.victims = k :: ks → s.jnl.comp.step = .erasing → s.jnlPhase ≠ 0 → s.jnlPhase ≠ 2 →
        exec (.segmentEraseEnd true) s = .next ((s.eraseSegment k).victimDone k) ∧
        (s.jnl.retry = false → exec (.segmentEraseEnd false) s = .next (erring.modJnl fun j => { j with retry := true })) ∧
        (s.jnl.retry = true → exec (.segmentEraseEnd false) s = .next ((erring.showSeg k 6).victimDone k))) ∧
      (s.jnl.comp.victims = [] → exec (.segmentEraseEnd ok) s = .next s) ∧
      (s.jnl.raw = none → exec (.rawFlashDone ok) s = .next s) ∧
      (s.jnl.raw = some r →
        (r.cmd = 1 → exec (.rawFlashDone true) s = .next (read.rawEnds 0) ∧
          exec (.rawFlashDone false) s = .next (s.rawEnds 2)) ∧
        (r.cmd = 2 → s.flashWord r.word ≠ erasedWord → exec (.rawFlashDone ok) s = .next (s.rawEnds 1)) ∧
        (r.cmd = 2 → s.flashWord r.word = erasedWord →
          exec (.rawFlashDone true) s = .next ((s.setFlash r.word r.data).rawEnds 0) ∧
          exec (.rawFlashDone false) s = .next (((s.freeFlash r.word).flashError (r.word * 16)).rawEnds 1)) ∧
        (r.cmd ≠ 1 → r.cmd ≠ 2 →
          exec (.rawFlashDone true) s = .next (((s.eraseSegment seg).evrForget seg).rawEnds 0) ∧
          (r.retried = true → exec (.rawFlashDone false) s = .next ((segErr.showSeg seg 6).rawEnds 1)) ∧
          (r.retried = false → exec (.rawFlashDone false) s =
            .next (segErr.modJnl fun j => { j with raw := some { r with retried := true } }))))) ∧
  (∀ (s : State) (corr : Bool),
      let shown := s.showHeaders
      let noted := if corr then (shown.event A.jnlStatus F.jnlStatus_ecccorr).report 13 0 else shown
      let blank := (List.range 64).all fun k => noted.segState k == 0 || noted.segState k == 5
      (s.jnlPhase = 0 → exec (.journalRecovery corr) s =
        .next (if blank then noted.formatJournal else noted).recoverScan) ∧
      (s.jnlPhase ≠ 0 → exec (.journalRecovery corr) s = .next s))

/-- R437, R444, R446: the event recorder writes the front of its queue, but not before its scan nor during a clear; the
window of a clear's confirmation ends; a clear erases the segments of its area, counts and flags it; the scan takes the
records of both areas in their order, the next number above them all and the next place after the newest. -/
def Obligations.RecorderEvents : Prop :=
  ∀ (s : State) (e : EvrEntry) (es : List EvrEntry) (area : Nat) (at_ : Stamp),
    let ph := s.fld A.evrState F.evrState_phase
    let first := if areaFirst area then (s.eraseSegment 64).modEvr fun v => { v with first := [] } else s
    let both := if areaLast area then
        ((List.range 15).foldl (fun s i => s.eraseSegment (65 + i)) first).modEvr
          fun v => { v with last := [], nextPos := 0 }
      else first
    let cleared := (both.modEvr fun v => { v with clearing := none }).countFirst
    (s.evr.queue = [] → exec .eventRecordWrite s = .next s) ∧
    (s.evr.queue = e :: es → ph = 0 ∨ ph = 3 → exec .eventRecordWrite s = .next s) ∧
    (s.evr.queue = e :: es → ph ≠ 0 → ph ≠ 3 → exec .eventRecordWrite s =
      .next ((s.writeRecord e).modEvr fun v => { v with queue := es }).countQueued) ∧
    exec .evrClearDisarm s = .next { s with evr := { s.evr with armed := none } } ∧
    (s.evr.clearing = none → exec .evrClearDone s = .next s) ∧
    (s.evr.clearing = some (area, at_) → exec .evrClearDone s =
      .next ((cleared.setFld A.evrState F.evrState_phase 1).event A.evrStatus F.evrStatus_cleared)) ∧
    (s.evr.scanned = true → exec .evrScan s = .next s) ∧
    (s.evr.scanned = false → ∃ t, exec .evrScan s = .next t ∧ t.evr.scanned = true)

/-- R454: the second after a time of 2000 to 2099 is a time of the calendar again, one second later; after 2099-12-31
23:59:59 comes 2000-01-01 00:00:00. A prescaler overflow of a running oscillator sets the domain's time to it with
SUBSEC 0; a stopped oscillator gives none. R450 to R453, R455 to R459, R462, R463, R465: the clock's other events:
calibration at 32 s, the battery's reading with LBV, the oscillator's stop and restart, the domain's reset, the
switchover of its supply, the gate, shadows left frozen, and the load of a committed time, which a date that does not
exist ends. -/
def Obligations.RealTimeClock : Prop :=
  (∀ (s : State) (t : RtcTime),
      let valid (t : RtcTime) : Prop := t.sec < 60 ∧ t.min < 60 ∧ t.hour < 24 ∧ 1 ≤ t.month ∧ t.month ≤ 12 ∧ 1 ≤ t.date ∧
        t.date ≤ monthDays t.year t.month ∧ t.year < 100
      (valid t → valid t.next ∧
        (t.seconds + 1 < 36525 * 86400 → t.next.seconds = t.seconds + 1) ∧
        (t.seconds + 1 = 36525 * 86400 → t.next.seconds = 0)) ∧
      (s.fld A.rtcFlags F.rtcFlags_oscok = 1 → exec .rtcSecond s = .next (s.setTime s.rtcNow.next)) ∧
      (s.fld A.rtcFlags F.rtcFlags_oscok ≠ 1 → exec .rtcSecond s = .next s) ∧
      (canonical s = true → valid t → (s.setTime t).rtcNow = { t with subsec := 0 })) ∧
  (∀ (s : State) (mv : BitVec 12) (m : Master) (q : RtcLoadReq) (rest : List RtcLoadReq),
      let read := s.setFld A.rtcVbat F.rtcVbat_mv mv.toNat
      let stood := s.setFld A.rtcSubsec F.rtcSubsec_subsec s.subsecNow
      let back := s.fld A.rtcSubsec F.rtcSubsec_subsec * second / 256
      let zero := s.setTime ⟨0, 0, 0, 0, 1, 1, 0⟩
      let zeroed := (zero.setReg A.rtcCal 0).modRtc fun r => { r with loads := [], calInForce := 0 }
      let opened := s.setBit A.rtcGate F.rtcGate_open true
      let posted := if opened.bit A.rtcFlags F.rtcFlags_osf then opened.event A.rtcStatus F.rtcStatus_osfset else opened
      let loaded := s.modRtc fun r => { r with loads := rest }
      let t := q.time s.rtcNow
      let set := (loaded.setTime t).event A.rtcStatus F.rtcStatus_committed
      exec .rtcCalibration s =
        .next { s with rtc := { s.rtc with calInForce := s.fld A.rtcCal F.rtcCal_cal } } ∧
      (mv.toNat < 2300 → exec (.vbatReading mv) s = .next read.setLbv) ∧
      (2300 ≤ mv.toNat → exec (.vbatReading mv) s = .next read) ∧
      exec .oscillatorStop s = .next (stood.setBit A.rtcFlags F.rtcFlags_oscok false).setOsf ∧
      (s.fld A.rtcFlags F.rtcFlags_oscok = 1 → exec .oscillatorRestart s = .next s) ∧
      (s.fld A.rtcFlags F.rtcFlags_oscok ≠ 1 → exec .oscillatorRestart s =
        .next ((s.setBit A.rtcFlags F.rtcFlags_oscok true).modRtc fun r =>
          { r with secondAt := (s.setBit A.rtcFlags F.rtcFlags_oscok true).tbc - BitVec.ofNat 64 back })) ∧
      exec .domainReset s = .next zeroed.setOsf.setLbv ∧
      exec .vbatSwitchover s = .next { s with rtc := { s.rtc with onVbat := true } } ∧
      exec .vbatSwitchback s = .next { s with rtc := { s.rtc with onVbat := false } } ∧
      exec .gateClose s = .next ((s.setBit A.rtcGate F.rtcGate_open false).modRtc
        fun r => { r with shadows := [], staged := [] }) ∧
      exec .gateOpen s = .next (if posted.bit A.rtcFlags F.rtcFlags_lbv then
        posted.event A.rtcStatus F.rtcStatus_lbvset else posted) ∧
      ((s.shadowOf m.id).isSome = true → exec (.shadowTimeout m) s =
        .next ((s.releaseShadows m.id).event A.rtcStatus F.rtcStatus_shadowtimeout)) ∧
      (s.shadowOf m.id = none → exec (.shadowTimeout m) s = .next s) ∧
      (s.rtc.loads = [] → exec .rtcLoad s = .next s) ∧
      (s.rtc.loads = q :: rest →
        (monthDays t.year t.month < t.date → exec .rtcLoad s = .next (loaded.event A.rtcStatus F.rtcStatus_commiterr)) ∧
        (t.date ≤ monthDays t.year t.month → q.fields.length ≠ 5 → exec .rtcLoad s = .next set) ∧
        (t.date ≤ monthDays t.year t.month → q.fields.length = 5 →
          exec .rtcLoad s = .next (set.setBit A.rtcFlags F.rtcFlags_osf false))))

/-- R470 to R493: the panel's events. A refresh tick measures the rails; outside the driven phases it moves the phases
on, else it takes the tick's targets, table, recovery, cold and update, drives each segment and counts the tick, held
where a rail is out or the panel stops. A temperature is shown, an invalid sensor flagged and reported once. The
reassertion pass, the stress record, a rail and a segment fault; the end of the clear, with the believed table and the
ledgers' recovery; power-down. -/
def Obligations.PanelEvents : Prop :=
  ∀ (s : State) (vp vn temp : BitVec 16) (ok : Bool) (n : Segment),
    let inside (v : Nat) : Bool := decide (14550 ≤ v ∧ v ≤ 15450)
    let seen := s.modPanel fun p =>
      { p with vp := vp.toNat, vn := vn.toNat, tickAt := s.tbc, hold0 := p.hold1, hold1 := s.fld A.supHold F.supHold_hold
               railOut := p.railOut && !(inside vp.toNat && inside vn.toNat) }
    let u := seen.takeTargets.1
    let tabled := if u.anyRun then u else u.applyTable
    let passed := ((tabled.recoveryTick.coldTick).updateTick seen.takeTargets.2).passTick
    let driven := if passed.pnl.railOut || passed.pnl.stopping then passed
      else (List.range 56).foldl State.tickSegment passed
    let sensed := (s.setBit A.pnlTemp F.pnlTemp_tsok ok).modPanel fun p => { p with tsFault := !ok }
    let begun := if s.pnl.ramValid then s.setFld A.pnlRecov F.pnlRecov_source 1 else s.panelFromJournal
    let checked := begun.checkTable.restoreStress
    let recovering := checked.modPanel fun p =>
      { p with tick := 0, firstDriven := none, ramValid := true, covered := List.replicate 56 none, segs := p.segs.map fun g =>
        if g.ledger.natAbs < ledgerNear.toNat then g
        else { g with run := some ⟨none, g.level, 0, 0, 0, 0, false, true, true, .none⟩ } }
    let ledgers := (List.range 56).flatMap fun n => le 2 (BitVec.ofInt 16 (ledgerShown (s.pseg n).ledger)).toNat
    (u.panelPhase = 1 → exec (.refreshTick vp vn) s = .next (u.setPhase 2).showPanel) ∧
    (u.panelPhase = 7 → u.pnl.stopping = false → exec (.refreshTick vp vn) s = .next (u.setPhase 0).showPanel) ∧
    (u.panelPhase = 0 ∨ u.panelPhase = 2 ∨ (u.panelPhase = 7 ∧ u.pnl.stopping = true) →
      exec (.refreshTick vp vn) s = .next u.showPanel) ∧
    (u.panelPhase ≠ 0 → u.panelPhase ≠ 1 → u.panelPhase ≠ 2 → u.panelPhase ≠ 7 →
      exec (.refreshTick vp vn) s = .next (driven.modPanel fun p => { p with tick := p.tick + 1 }).showPanel) ∧
    exec (.panelTempRead temp true) s = .next (((s.setBit A.pnlTemp F.pnlTemp_tsok true).modPanel
      fun p => { p with tsFault := false }).setFld A.pnlTemp F.pnlTemp_temp temp.toNat) ∧
    (s.pnl.tsFault = true → ok = false → exec (.panelTempRead temp ok) s = .next sensed) ∧
    (s.pnl.tsFault = false → ok = false → exec (.panelTempRead temp ok) s =
      .next (sensed.panelFault F.pnlStatus_tempfault 67 0)) ∧
    (s.fld A.pnlCtrl F.pnlCtrl_reasserten = 1 → exec .reassertPass s = .next (s.modPanel fun p => { p with passDue := true })) ∧
    (s.fld A.pnlCtrl F.pnlCtrl_reasserten ≠ 1 → exec .reassertPass s = .next s) ∧
    (s.panelUp = true → exec .stressRecord s = .next s.postStress) ∧
    (s.panelUp = false → exec .stressRecord s = .next s) ∧
    exec .railFault s = .next ((s.modPanel fun p => { p with railOut := true }).panelFault F.pnlStatus_railfault 65 0) ∧
    exec (.segFault n) s = .next ((s.modSegment n.val fun g => { g with fault := true }).panelFault
      F.pnlStatus_segfault 66 n.val).showPanel ∧
    (s.panelPhase = 1 ∨ s.panelPhase = 2 → exec .panelClearEnd s = .next (recovering.setPhase 3).showPanel) ∧
    (s.panelPhase ≠ 1 → s.panelPhase ≠ 2 → exec .panelClearEnd s = .next s) ∧
    (s.panelPhase = 6 → s.pnl.stopping = true ∨ s.anyRun = false → exec .panelPowerDown s =
      .next (((((s.panelRecord 0x41 .ledger (bytesWords ledgers)).postStress).modPanel
        fun p => { p with stopping := true }).setPhase 7).showPanel)) ∧
    (s.panelPhase ≠ 6 → exec .panelPowerDown s = .next s)

/-! ## Network, lamp room, faults and power -/

/-- R515, R518, R520, R524, R525: the elements of the SNX exchange. A POINT, an ACK, an ANSWER and a MSG reach the lanes
as records of the association's ring where LANES is 1, and are else discarded and counted; a SUBSCRIBE replaces the
partner's ranges and flags; a HELLO settles the association's version and state; a register request is answered or
queued. R527: an image transfer of an association: IMG_OPEN is refused as DENIED where the association may not make it,
then for the causes of a transfer, and else opens it and says so; IMG_DATA at NEXT is written, every fourth one
answered, and any other is answered at once; IMG_CLOSE closes or ends it; 35 s without an element end it. The erasure of
its slot makes it ready; its verification shows the image in its slot, or rejects it with its reason and detail. -/
def Obligations.ReceivedElements : Prop :=
  (∀ (s : State) (a : Assoc) (e : RxElem),
      let told (t : State) (e : RxElem) (v : TWord) (aux : Nat) (pay : List (BitVec 64)) : State :=
        if t.fld (A.netAcfg e.assoc) F.netAcfg_lanes = 1 then
          t.send ⟨t.assocRing e.assoc, e.typ, e.assoc, v, aux, e.stamp, pay, 9, false, false⟩
        else t.satInc A.netCnt F.netCnt_skipped
      let good (n : Nat) : TWord := ⟨BitVec.ofNat 32 n, .good⟩
      let old (t : State) (e : RxElem) : Bool := decide (t.fld (A.netAstate e.assoc) F.netAstate_ver = 1)
      let ranges (e : RxElem) : List (Nat × Nat) :=
        (List.range (leAt e.body 1 1)).map fun i => (beAt e.body (4 + 4 * i) 2, beAt e.body (6 + 4 * i) 2)
      let word (e : RxElem) (i : Nat) : Nat := if i < leAt e.body 0 1 then beAt e.body (8 + 4 * i) 4 else 0
      let words (e : RxElem) : List (BitVec 64) :=
        BitVec.ofNat 64 (e.subj % 256 + leAt e.body 0 1 * 256 + beAt e.body 4 4 * 2 ^ 32) ::
          (List.range (leAt e.body 0 1 / 2)).map fun j =>
            BitVec.ofNat 64 (word e (2 * j + 1) + 2 ^ 32 * word e (2 * j + 2))
      elemDoes s a (.point a) 0x10 1 (fun t e => told t e (pointValue e.body (t.assocVer e.assoc)) 2
        [BitVec.ofNat 64 (e.subj % 4096 + (if e.isLocal then 2 ^ 16 else 0) + (if old t e then 2 ^ 17 else 0)),
          BitVec.ofNat 64 (beAt e.body 8 (if old t e then 4 else 8))]) ∧
      elemDoes s a (.ackElement a) 0x12 1 (fun t e => told t e (good (e.subj + leAt e.body 0 1 % 4 * 2 ^ 16)) 1
        [BitVec.ofNat 64 (beAt e.body 2 2)]) ∧
      elemDoes s a (.answerElement a) 0x15 1
        (fun t e => told t e (good (e.subj % 16 + leAt e.body 1 1 % 8 * 16 + leAt e.body 0 1 * 256)) 0 []) ∧
      elemDoes s a (.msg a) 0x16 2 (fun t e =>
        told t e ⟨BitVec.ofNat 32 (beAt e.body 8 4), Tag.ofCode (beAt e.body 4 4)⟩ (words e).length (words e)) ∧
      elemDoes s a (.subscribe a) 0x17 2 (fun t e => (t.modAssoc e.assoc fun x => { x with
        ranges := ranges e, alarms := decide (leAt e.body 0 1 % 2 = 1), hart := decide (leAt e.body 0 1 / 2 % 2 = 1) }).setFld
        (A.netAstate e.assoc) F.netAstate_ranges (leAt e.body 1 1)) ∧
      elemDoes s a (.regRd a) 0x30 1 (fun t e => t.regRequest e false) ∧
      elemDoes s a (.regWr a) 0x31 1 (fun t e => t.regRequest e true) ∧
      ((s.net.rx.find? fun e => e.assoc == a.val && e.typ == 1) = some e →
        let t : State := { s with net := { s.net with rx := s.net.rx.erase e } }
        (t.assocOn a = true → e.body.length = 8 → e.typ = 1 → exec (.hello a) s = .next (t.takeHello a e)) ∧
        (t.assocOn a = true → e.body.length ≠ 8 → e.typ = 1 → exec (.hello a) s = .next t.skip) ∧
        (t.assocOn a = false → exec (.hello a) s = .next t)) ∧
      ((s.net.rx.find? fun e => e.assoc == a.val && e.typ == 1) = none → exec (.hello a) s = .next s)) ∧
  (∀ (s : State) (a : Assoc) (x : Transfer) (why detail : Nat),
      let mine (t : State) (e : RxElem) : Option Transfer :=
        t.upd.xfer.bind fun x => if x.assoc = some e.assoc ∧ x.number = e.subj then some x else none
      let fits (x : Transfer) (e : RxElem) : Bool :=
        let d := (e.body.drop 4).length
        decide (x.phase = 2 ∧ beAt e.body 0 4 = x.next ∧ 0 < d ∧ (d = 768 ∨ x.next + d = x.length) ∧ x.next + d ≤ x.length)
      let bytes := s.slotBytes x.slot x.length
      let ended := s.modUpd fun u => { u with xfer := none }
      let bad := ((ended.setSlot x.slot 3).setXfer 5).setFld A.updState F.updState_reason why
      elemDoes s a (.imgOpen a) 0x40 3 (fun t e =>
        let kind := leAt e.body 0 1
        let len := beAt e.body 4 4
        match if t.ownCaps e.assoc / 4 % 2 = 0 then some 4 else t.openCause kind len with
        | some r => t.imgStat e.assoc e.subj 6 r 0
        | none =>
          let u := t.openXfer kind len 6 (some e.assoc) e.subj
          match u.upd.xfer with
          | none => u
          | some x => u.tellXfer x 1 0) ∧
      elemDoes s a (.imgData a) 0x41 3 (fun t e =>
        match mine t e with
        | none => t
        | some x =>
          let d := e.body.drop 4
          if fits x e then
            if x.written % 4 = 3 then (t.xferData x d).imgStat e.assoc e.subj 2 0 (x.next + d.length) else t.xferData x d
          else if x.phase = 3 then t
          else t.imgStat e.assoc e.subj x.phase 0 x.next) ∧
      elemDoes s a (.imgClose a) 0x43 3 (fun t e =>
        match mine t e with
        | none => t
        | some x => if leAt e.body 0 1 = 0 then t.closeXfer x else if leAt e.body 0 1 = 1 then t.endXfer x else t) ∧
      (s.upd.xfer = none → exec .imgTimeout s = .next s ∧ exec .slotEraseDone s = .next s ∧
        exec .verificationDone s = .next s) ∧
      (s.upd.xfer = some x →
        (x.assoc.isSome = true → exec .imgTimeout s = .next (s.endXfer x)) ∧
        (x.assoc = none → exec .imgTimeout s = .next s) ∧
        (x.phase = 1 → exec .slotEraseDone s = .next (((((slotSegs x.slot).foldl State.eraseSegment s).modUpd
          fun u => { u with xfer := some { x with phase := 2 } }).setXfer 2).tellXfer x 2 0)) ∧
        (x.phase ≠ 1 → exec .slotEraseDone s = .next s) ∧
        (x.phase = 3 → ended.verifyImage x.kind bytes = none → exec .verificationDone s =
          .next ((((ended.showImage x.slot bytes).setXfer 4).event A.updStatus F.updStatus_xferdone).tellXfer x 3 0)) ∧
        (x.phase = 3 → ended.verifyImage x.kind bytes = some (why, detail) → exec .verificationDone s =
          .next (((bad.setReg A.updDetail (BitVec.ofNat 32 detail)).event A.updStatus F.updStatus_rejected).tellXfer x 4 why)) ∧
        (x.phase ≠ 3 → exec .verificationDone s = .next s)))

/-- R462, R502 to R506, R519, R528: ship time. An Announce takes its master where the profile's comparison prefers it; a
delay response shows the path's delay; a Sync of that master shows θ, sets the rate and acquires, counts toward LOCKED
or holds it; a loss of Syncs changes the port or enters HOLDOVER, whose end leaves the clock FREE at its nominal rate;
the RTC is set from ship time, and the time element is sent, at whole UTC seconds. R498, R499, R501, R507, R508, R511,
R512, R514, R515, R521, R522: the ports. A frame on an enabled Ethernet port is received, or counted with its CRC in
error; a CAN frame for this node or for every node is counted and its element taken, others are left; links, paths, the
CAN's bus-off and its recovery, supervision, HELLO, an association's end, and the room a sent frame leaves. -/
def Obligations.NetworkTimeAndPorts : Prop :=
  (∀ (s : State) (p : EthPort) (d m : PtpData) (utcOk : Bool) (ofs : BitVec 16) (ns rate : BitVec 32)
        (ident theta : BitVec 64),
      let state := A.netPtpstate
      let same := match s.net.master with
        | none => false
        | some m => decide (m.ident = d.ident)
      let chosen := s.modNet fun n => { n with master := some d, fresh := n.fresh || !same }
      let moved := if same then chosen else chosen.setFld state F.netPtpstate_port p.val
      let shown := (moved.setReg A.netGmLo (d.ident.truncate 32)).setReg A.netGmHi ((d.ident >>> 32).truncate 32)
      let t := theta.toInt
      let synced := (s.setFld state F.netPtpstate_port p.val).setReg A.netTheta (thetaWord t)
      let u := (synced.setRate rate.toInt).setDisc true
      let used := ¬(m.ident ≠ ident ∨ (p.val = 1 ∧ s.fld state F.netPtpstate_port = 0))
      let held := (s.setFld state F.netPtpstate_state 3).setValid (decide (s.fld A.netPtpcfg F.netPtpcfg_hold ≠ 0))
      let free := ((s.setFld state F.netPtpstate_state 0).setValid false).setRate 0
      (s.choosesMaster d = true → exec (.ptpAnnounce p d utcOk ofs) s =
        .next ((shown.setBit state F.netPtpstate_utcv utcOk).setFld state F.netPtpstate_utcofs ofs.toNat)) ∧
      (s.choosesMaster d = false → exec (.ptpAnnounce p d utcOk ofs) s = .next s) ∧
      (s.net.master = none → exec (.ptpDelayResponse ns) s = .next s ∧ exec (.ptpSync p ident theta rate) s = .next s) ∧
      (s.net.master = some m →
        exec (.ptpDelayResponse ns) s = .next (s.setReg A.netPathdly ns) ∧
        (¬used → exec (.ptpSync p ident theta rate) s = .next s) ∧
        (used → u.net.fresh = true → exec (.ptpSync p ident theta rate) s = .next (u.acquire t)) ∧
        (used → u.net.fresh = false → u.ptpState = 2 → exec (.ptpSync p ident theta rate) s = .next (u.syncLocked t)) ∧
        (used → u.net.fresh = false → u.ptpState ≠ 2 → exec (.ptpSync p ident theta rate) s = .next (u.countGood t))) ∧
      exec (.syncLoss false) s = .next (s.setFld state F.netPtpstate_port 1) ∧
      (s.ptpState = 1 ∨ s.ptpState = 2 → exec (.syncLoss true) s = .next (held.modNet fun n => { n with good := 0, far := 0 })) ∧
      (s.ptpState ≠ 1 → s.ptpState ≠ 2 → exec (.syncLoss true) s = .next s) ∧
      (s.ptpState = 3 → exec .holdoverExpiry s = .next ((free.setDisc false).modNet
        fun n => { n with master := none, fresh := false, good := 0, far := 0 })) ∧
      (s.ptpState ≠ 3 → exec .holdoverExpiry s = .next s) ∧
      (∀ ms, s.utcMs s.tbc = some ms →
        let n := ms / 1000
        let day := dateOf (n / 86400)
        let staged := (((s.stageTime 4 A.rtcSec (n % 60)).stageTime 4 A.rtcMin (n / 60 % 60)).stageTime 4 A.rtcHour
          (n / 3600 % 24)).stageTime 4 A.rtcDate day.2.2
        let body := s.timeElem ms
        let partners := assocNos.filter fun a =>
          s.assocUp a && s.assocVer a == 1 && decide ((s.assoc a).pcaps / 16 % 2 = 1)
        let sent := partners.foldl (fun s a => s.sendTo a 0x20 body) s
        (s.fld A.netCtrl F.netCtrl_rtcset = 1 → s.ptpState = 2 → s.fld state F.netPtpstate_utcv = 1 → s.gateOpen = true →
          exec .rtcShipSet s = .next ((staged.stageTime 4 A.rtcMonth day.2.1).commitTime 4 day.1)) ∧
        (s.netOn = true → exec .timeElementTimer s = .next (if sent.fld A.netCtrl F.netCtrl_ctime = 1 then
          (sent.sendCanAll 0 0x20 body).sendCanAll 1 0x20 body else sent))) ∧
      (s.netOn = false → exec .timeElementTimer s = .next s) ∧
      (s.fld A.netCtrl F.netCtrl_rtcset ≠ 1 → exec .rtcShipSet s = .next s)) ∧
  (∀ (s : State) (q : EthPort) (c : CanPort) (a : Assoc) (src : BitVec 48) (et : BitVec 16) (tr : Option PrpTrailer)
        (body data : List Byte) (up low : Bool) (id : BitVec 29),
      let p := q.val
      let k := c.val
      let n := id.toNat
      let dst := n / 256 % 256
      let from_ := n % 256
      let ours := (dst = s.fld A.netNodeid F.netNodeid_canaddr ∨ dst = 0xFF) ∧ from_ ≠ 0 ∧ from_ ≠ 0xFF
      let rx := s.inc (A.netCcnt k) F.netCcnt_rx
      let amp := s.fld (A.netPcfg p) F.netPcfg_amp
      let linked := s.setBit (A.netPstate p) F.netPstate_link true
      let off := (s.setFld (A.netCstate k) F.netCstate_state 2).setFld (A.netCstate k) F.netCstate_tec 0xFF
      (s.fld (A.netPcfg p) F.netPcfg_en ≠ 1 → exec (.ethFrameReceive q up src et tr body) s = .next s) ∧
      (s.fld (A.netPcfg p) F.netPcfg_en = 1 →
        exec (.ethFrameReceive q true src et tr body) s = .next (s.validFrame p src.toNat et.toNat tr body) ∧
        exec (.ethFrameReceive q false src et tr body) s = .next (s.satInc (A.netPerr p) F.netPerr_crcerr) ∧
        exec (.linkChange q true low) s = .next (linked.setBit (A.netPstate p) F.netPstate_ampact
          (if amp = 1 then false else if amp = 2 then true else low))) ∧
      exec (.linkChange q false low) s = .next (s.setBit (A.netPstate p) F.netPstate_link false) ∧
      exec .prpSupervision s = .next (s.modNet fun n => { n with prpSeq := (n.prpSeq + 1) % 65536 }).showNodes ∧
      (s.fld (A.netPstate p) F.netPstate_lost = 1 → exec (.pathLost q) s = .next s) ∧
      (s.fld (A.netPstate p) F.netPstate_lost ≠ 1 → exec (.pathLost q) s =
        .next (((s.setBit (A.netPstate p) F.netPstate_lost true).event A.netStatus F.netStatus_pathlost).report 70 p)) ∧
      (s.canRuns k = false → exec (.canFrameReceive c up id data) s = .next s ∧ exec (.busOff c) s = .next s) ∧
      (s.canRuns k = true →
        exec (.canFrameReceive c false id data) s = .next (s.canDiscard k) ∧
        (¬ours → exec (.canFrameReceive c true id data) s = .next s) ∧
        (ours → rx.netOn = false → exec (.canFrameReceive c true id data) s = .next rx) ∧
        (ours → rx.netOn = true → n / 2 ^ 17 % 4 = 0 →
          exec (.canFrameReceive c true id data) s = .next (rx.canElem k from_ data)) ∧
        (ours → rx.netOn = true → n / 2 ^ 17 % 4 ≠ 0 → exec (.canFrameReceive c true id data) s =
          .next (rx.canSegment k from_ (n / 2 ^ 19 % 128) (n / 2 ^ 17 % 4) (n / 2 ^ 16 % 2) data)) ∧
        exec (.busOff c) s = .next (((off.event A.netStatus F.netStatus_busoff).report 72 k).dropCanQueue k)) ∧
      (s.fld (A.netCcfg k) F.netCcfg_en = 1 → s.fld (A.netCcfg k) F.netCcfg_auto = 1 →
        s.fld (A.netCstate k) F.netCstate_state = 2 → exec (.busOffRecovery c) s = .next (s.canActive k)) ∧
      (s.fld (A.netCstate k) F.netCstate_state ≠ 2 → exec (.busOffRecovery c) s = .next s) ∧
      exec (.transmissionComplete 0) s = .next s.ethSent ∧
      exec (.transmissionComplete 1) s = .next (if s.canRuns 0 then s.canSent 0 else s) ∧
      exec (.transmissionComplete 2) s = .next (if s.canRuns 1 then s.canSent 1 else s) ∧
      exec (.helloTimer a) s = .next (s.sendHello a) ∧ exec (.associationTimeout a) s = .next (s.assocDown a))

/-- R532, R533, R539, R540: READY missing one second after a reset is flagged and reported, and the releases resume; the
watchdog's expiry resets the lamp room; a sample shows every sensor, and the limits and rails it crosses; the node
record is posted each 0.1 h of operation, the first after a start loading both counts and adding a power cycle. R546,
R548, R549: the steps of an activation. The lanes that are not retired stop; the code of the next image is loaded where
the digests agree, else the image falls back; keep memory is written and the activation closes, else it falls back; the
trial of the lamp room's image that expires before its record is posted resets the lamp room; the key's programming
ends. -/
def Obligations.LampRoomAndActivation : Prop :=
  (∀ (s : State) (temps tsw vmon : List (BitVec 16)) (vfld ifld : BitVec 16),
      let due := s.mgs.wdogAt.toNat + s.fld A.mgsCtrl F.mgsCtrl_wdt * 1000000 ≤ s.tbc.toNat
      let late := s.mgs.holding = true ∧ s.fld A.mgsCtrl F.mgsCtrl_ready ≠ 1 ∧ s.fld A.tmbState F.tmbState_tbcrun = 1
      let died := (List.range 12).foldl
        (fun s k => (s.setFld (A.mgsTemp k) F.mgsTemp_temp (temps.getD k 0).toNat).checkTemp k (temps.getD k 0)) s
      let switched := (List.range died.terms).foldl
        (fun s n => (s.setFld (A.mgsTsw n) F.mgsTsw_temp (tsw.getD n 0).toNat).checkTemp (12 + n) (tsw.getD n 0)) died
      let railed := (List.range 7).foldl
        (fun s r =>
          let v := (vmon.getD r 0).toNat
          let s := s.setFld (A.mgsVmon r) F.mgsVmon_value v
          if r < 3 then s else s.checkRail r v) switched
      let shown := ((railed.setFld A.supVin F.supVin_vina (vmon.getD 0 0).toNat).setFld A.supVin F.supVin_vinb
        (vmon.getD 1 0).toNat).setFld A.supHold F.supHold_hold (vmon.getD 2 0).toNat
      let live := s.nodeLive
      let counted := (s.setPair A.mgsOpsecsLo (live.1 % 2 ^ 48)).setReg A.mgsCycles (BitVec.ofNat 32 (live.2 + 1))
      (late → exec .readyTimeout s = .next ((s.event A.mgsStatus F.mgsStatus_notready).report 15 0).releasesResume) ∧
      (¬late → exec .readyTimeout s = .next s) ∧
      (s.mgs.running = true → due →
        exec .watchdogExpiry s = .next (((s.event A.mgsStatus F.mgsStatus_wdog).report 14 0).lampRoomReset false)) ∧
      (s.mgs.running = false ∨ ¬due → exec .watchdogExpiry s = .next s) ∧
      exec .lampRoomReset s = .next (s.lampRoomReset false) ∧
      (shown.fld A.supState F.supState_fldext = 1 → exec (.sensorSample temps tsw vmon vfld ifld) s = .next shown) ∧
      (shown.fld A.supState F.supState_fldext ≠ 1 → exec (.sensorSample temps tsw vmon vfld ifld) s =
        .next ((shown.setFld A.supFld F.supFld_vfld vfld.toNat).setFld A.supFld F.supFld_ifld ifld.toNat)) ∧
      (s.mgs.running = false → exec .nodeRecord s = .next s) ∧
      (s.mgs.running = true → s.mgs.nodeLoaded = true →
        (s.mgs.nodeAt + 360 ≤ s.pair A.mgsOpsecsLo → exec .nodeRecord s = .next s.postNode) ∧
        (s.pair A.mgsOpsecsLo < s.mgs.nodeAt + 360 → exec .nodeRecord s = .next s)) ∧
      (s.mgs.running = true → s.mgs.nodeLoaded = false → exec .nodeRecord s =
        .next (counted.modMgs fun m => { m with nodeLoaded := true }).postNode)) ∧
  (∀ (s : State) (a : Activation) (k : Nat) (im : Image) (ok : Bool),
      let stopped := (List.range 3).foldl
        (fun s l => if s.fld (A.lnState l) F.lnState_lane = 3 then s else s.setLaneState l 0) s
      let dropped := s.modUpd fun u => { u with load := none }
      let lanes := a.kind = 1
      (s.upd.act = some a → lanes → a.step = 3 → s.lanesStopped = true →
        exec .activationLanesStopped s = .next (stopped.setAct (some { a with step := 4 }))) ∧
      (s.upd.act = none → exec .activationLanesStopped s = .next s ∧ exec .trialExpiry s = .next s) ∧
      (s.upd.act = some a → lanes → a.step = 4 → s.nextImage = some im →
        exec (.codeLoadDone true) s = .next ((s.loadCode im).lanesStage.setAct (some { a with step := 5 })) ∧
        exec (.codeLoadDone false) s = .next (s.fallBack a)) ∧
      (s.upd.act = none → s.upd.load = some k → s.nextImage = some im →
        exec (.codeLoadDone true) s = .next (s.loadCode im).lanesStage ∧
        exec (.codeLoadDone false) s = .next (dropped.fallBack ⟨1, k, false, 4, false, false, false⟩)) ∧
      (s.upd.act = none → s.upd.load = none → exec (.codeLoadDone ok) s = .next s) ∧
      (s.upd.act = some a → lanes → a.step = 5 →
        exec (.keepWriteDone true) s = .next (s.noteRestore.writeKeep.closeAct a) ∧
        exec (.keepWriteDone false) s = .next (s.fallBack a)) ∧
      (s.upd.act = none → s.frame.running = false → s.upd.load = none → exec (.keepWriteDone ok) s = .next s.noteRestore) ∧
      (s.upd.act = none → s.frame.running = false → s.upd.load = some k → s.image.isSome = true →
        exec (.keepWriteDone true) s = .next (s.noteRestore.writeKeep.modUpd fun u => { u with load := none }) ∧
        exec (.keepWriteDone false) s = .next (dropped.fallBack ⟨1, k, false, 5, false, false, false⟩)) ∧
      (s.upd.act = some a → a.kind = 2 → 2 < a.step → a.posted = false → exec .trialExpiry s = .next (s.lampRoomReset false)) ∧
      (s.upd.act = some a → a.kind ≠ 2 → exec .trialExpiry s = .next s) ∧
      (s.upd.keyBusy = true → exec .keyProgrammingDone s =
        .next ((s.modUpd fun u => { u with keyBusy := false }).event A.updStatus F.updStatus_keyprog)) ∧
      (s.upd.keyBusy = false → exec .keyProgrammingDone s = .next s))

/-- R553, R556, R557, R560, R565: an error that arrives is counted for its source; a masked one does no more, another
takes the reaction of its class and waits in the queue, or is lost from the log when 32 wait; the front of the queue
enters the log with the next number; the self-check drives SAFE where one copy asserts it alone, and reports what it
finds. -/
def Obligations.FaultEvents : Prop :=
  ∀ (s : State) (e : ErrRec) (rest : List ErrRec) (ok : Bool), canonical s = true →
    let taken : State := { s with flt := { s.flt with crossing := rest } }
    let counted := taken.satInc (A.fltSrc e.src) F.fltSrc_count
    let left : State := { s with flt := { s.flt with queue := rest } }
    (s.flt.crossing = [] → exec .errorArrival s = .next s) ∧
    (s.flt.crossing = e :: rest →
      (e.masked = true → exec .errorArrival s = .next counted) ∧
      (e.masked = false → exec .errorArrival s = .next (taken.faultArrives e)) ∧
      (e.src < 75 → e.masked = true → counted.fld (A.fltSrc e.src) F.fltSrc_count =
        Nat.min (s.fld (A.fltSrc e.src) F.fltSrc_count + 1) F.fltSrc_count.max)) ∧
    (s.flt.queue = [] → exec .faultEntry s = .next s) ∧
    (s.flt.queue = e :: rest → exec .faultEntry s = .next (left.faultEnters e)) ∧
    exec (.collectorSelfCheck true false) s = .next s ∧
    exec (.collectorSelfCheck false false) s = .next (s.report 9 0) ∧
    exec (.collectorSelfCheck ok true) s = .next (s.safeOn.report 9 0)

/-- R567, R568, R574, R575, R577 to R580: the inputs and HOLD. An input present again after it was lost is flagged and
posted, in power-fail it lets the node return, and with the rails down it resets the node; one lost while the other is
present is flagged, reported and posted; with neither present the node declares the loss, sheds its loads and writes its
records; the switch of HOLD closes in the ride and reopens with the lowest voltage; HOLD ready and low; the logic
failing; the return. R61, R569, R570, R572, R581, R582, R584, R585: power on and power good, a rail out, a brownout, the
field supply's limit, the end of fuse sensing, the PLL's lock, the crystal's failure and retry, the islands' clocks
measured, and the reset pin. -/
def Obligations.PowerAndReset : Prop :=
  (∀ (s : State) (x : SupplyInput) (v : BitVec 16),
      let ok (x : SupplyInput) : Fld := if x.val = 0 then F.supState_vinaok else F.supState_vinbok
      let vin := if x.val = 0 then F.supVin_vina else F.supVin_vinb
      let on (f : Fld) : Prop := s.fld A.supState f = 1
      let mark (s : State) : State := s.markPresent x v
      let back := (s.event A.supStatus (if x.val = 0 then F.supStatus_vinaret else F.supStatus_vinbret)).supplyEvent
        (3 + x.val) v.toNat
      let freed := s.modSup fun p => { p with held := none }
      let lost := (s.setBit A.supState (ok x) false).setFld A.supVin vin v.toNat
      let declared := (((s.setFld A.supState F.supState_phase 3).setBit A.supState F.supState_holdsw true).setFld
        A.supHold F.supHold_hold v.toNat).modSup fun p => { p with declared := some s.tbc, returned := false }
      let powered := (declared.shedLoads.supplyEvent 5 v.toNat).report 3 0
      let posted := powered.jnlPowerFail.evrPowerFail.outRecord powered.tbc
      let reopened := (s.setBit A.supState F.supState_holdsw false).setFld A.supState F.supState_phase
        (if s.stage' = 6 then 1 else 0)
      let rode := (reopened.satInc A.supRides F.supRides_count).setFld A.supHold F.supHold_low v.toNat
      let held (b : Bool) : State := (s.setBit A.supState F.supState_holdok b).setFld A.supHold F.supHold_hold v.toNat
      let failed := (s.closeGate.evrEvent 2 11 0 s.tbc).setFld A.supHold F.supHold_hold v.toNat
      (s.phase = 4 → exec (.inputPresent x v) s = .next (mark (s.nodeReset (if s.sup.railsStayed then 2 else 1)))) ∧
      (s.phase ≠ 4 → s.sup.held.isSome = true → exec (.inputPresent x v) s =
        .next (mark (freed.setStage (if on F.supState_railsok ∧ s.sup.pinLow = false then 1 else 0)))) ∧
      (s.phase ≠ 4 → s.sup.held = none →
        (s.sup.seen.contains x.val = true → ¬on (ok x) → exec (.inputPresent x v) s =
          .next (mark (if back.phase = 3 then back.modSup fun p => { p with returned := true } else back))) ∧
        (s.sup.seen.contains x.val = false ∨ on (ok x) → exec (.inputPresent x v) s =
          .next (mark (if s.phase = 3 then s.modSup fun p => { p with returned := true } else s)))) ∧
      (on (ok x) → lost.fld A.supState (ok (1 - x)) = 1 → exec (.inputLost x v) s =
        .next (((lost.event A.supStatus (if x.val = 0 then F.supStatus_vinalost else F.supStatus_vinblost)).report
          (1 + x.val) 0).supplyEvent (1 + x.val) v.toNat)) ∧
      (on (ok x) → lost.fld A.supState (ok (1 - x)) ≠ 1 → exec (.inputLost x v) s = .next lost) ∧
      (¬on (ok x) → exec (.inputLost x v) s = .next s) ∧
      exec .inputHandover s = .next (s.setBit A.supState F.supState_bcarries (!s.bit A.supState F.supState_bcarries)) ∧
      (on F.supState_vinaok ∨ on F.supState_vinbok ∨ 3 ≤ s.phase → exec (.inputLoss v) s = .next s) ∧
      (¬on F.supState_vinaok → ¬on F.supState_vinbok → s.phase < 3 → exec (.inputLoss v) s =
        .next (if posted.mgs.nodeLoaded then posted.postNode else posted).panelInputLoss) ∧
      (s.phase ≤ 1 → exec .holdSwitchClose s =
        .next ((s.setBit A.supState F.supState_holdsw true).setFld A.supState F.supState_phase 2)) ∧
      (2 ≤ s.phase → exec .holdSwitchClose s = .next s) ∧
      (s.phase = 2 → exec (.ride v) s = .next ((rode.event A.supStatus F.supStatus_ride).supplyEvent 6 v.toNat)) ∧
      (s.phase ≠ 2 → exec (.ride v) s = .next s) ∧
      (on F.supState_holdok → exec (.holdReady v) s = .next s) ∧
      (¬on F.supState_holdok → exec (.holdLow v) s = .next s ∧
        exec (.holdReady v) s = .next (((held true).event A.supStatus F.supStatus_holdready).supplyEvent 7 v.toNat)) ∧
      (on F.supState_holdok → s.shed = false → exec (.holdLow v) s =
        .next (((held false).event A.supStatus F.supStatus_holdlow).supplyEvent 8 v.toNat)) ∧
      (s.phase = 3 → exec (.logicFailing v) s =
        .next (((failed.keepFaults failed.holdReset).setFld A.supState F.supState_phase 4).setFld A.supState F.supState_stage 0)) ∧
      (s.phase ≠ 3 → exec (.logicFailing v) s = .next s) ∧
      (s.phase = 3 → s.sup.returned = true → exec .powerReturn s = .next (s.nodeReset 2)) ∧
      (s.phase ≠ 3 ∨ s.sup.returned = false → exec .powerReturn s = .next s)) ∧
  (∀ (s : State) (ext ok edge : Bool) (rail : Fin 4) (v err : BitVec 16) (i : Fin 16) (dcos : List (BitVec 16)),
      let on (f : Fld) : Prop := s.fld A.supState f = 1
      let out := s.setBit A.supState F.supState_railsok false
      let down := out.modSup fun p => { p with railsStayed := false }
      let limit (n : Nat) (s : State) : State :=
        (s.setFld A.supState F.supState_fldilimnow n).setFld A.supFld F.supFld_ifld v.toNat
      let sensed := (s.setBit A.idFuse F.idFuse_senseok ok).modSup fun p => { p with sensed := true }
      let keyed := sensed.showUnkeyed
      let locked := ((s.setBit A.tmbState F.tmbState_plllock true).setBit A.tmbState F.tmbState_xtalok true).setBit
        A.tmbState F.tmbState_xtalwait false
      let broken := (s.setBit A.tmbState F.tmbState_xtalok false).setBit A.tmbState F.tmbState_plllock false
      let shown := s.setFld (A.tmbIsl i) F.tmbIsl_err err.toNat
      let free := s.modSup fun p => { p with pinLow := false }
      (s.phase = 4 ∨ (s.stage' = 0 ∧ ¬on F.supState_railsok) → exec .powerOn s = .next (s.nodeReset 1)) ∧
      (s.stage' = 0 → s.sup.held = none → s.sup.pinLow = false → ¬on F.supState_railsok → exec (.powerGood ext) s =
        .next (((s.setBit A.supState F.supState_railsok true).setBit A.supState F.supState_fldext ext).setStage 1)) ∧
      (on F.supState_railsok → exec (.powerGood ext) s = .next s) ∧
      (down.phase = 4 → exec (.logicRailOut rail) s = .next down) ∧
      (down.phase ≠ 4 → exec (.logicRailOut rail) s = .next (down.report 5 (3 + rail.val))) ∧
      (s.phase = 4 → exec .brownout s = .next down) ∧ (s.phase ≠ 4 → exec .brownout s = .next (s.nodeReset 3)) ∧
      (¬on F.supState_fldext → s.fld A.supState F.supState_fldilimnow = 0 →
        exec (.fldIlimBegin v) s =
          .next (((((limit 1 s).event A.supStatus F.supStatus_fldilim).report 4 0).supplyEvent 9 v.toNat)) ∧
        exec (.fldIlimEnd v) s = .next s) ∧
      (¬on F.supState_fldext → on F.supState_fldilimnow → exec (.fldIlimBegin v) s = .next s ∧
        exec (.fldIlimEnd v) s = .next ((limit 0 s).supplyEvent 10 v.toNat)) ∧
      (on F.supState_fldext → exec (.fldIlimBegin v) s = .next s ∧ exec (.fldIlimEnd v) s = .next s) ∧
      (s.stage' = 1 → s.sup.sensed = false →
        (ok = false → exec (.fuseSensingEnd ok) s = .next sensed) ∧
        (ok = true → keyed.fld A.idFuse F.idFuse_keyset = 1 → exec (.fuseSensingEnd ok) s = .next keyed.clocksUp) ∧
        (ok = true → keyed.fld A.idFuse F.idFuse_keyset ≠ 1 → exec (.fuseSensingEnd ok) s =
          .next (keyed.report 73 0).clocksUp)) ∧
      (s.stage' ≠ 1 → exec (.fuseSensingEnd ok) s = .next s) ∧
      (on F.supState_railsok → s.fld A.tmbState F.tmbState_plllock ≠ 1 → exec .pllLock s = .next locked.clocksUp) ∧
      (¬on F.supState_railsok ∨ s.fld A.tmbState F.tmbState_plllock = 1 → exec .pllLock s = .next s) ∧
      (s.stage' ≤ 1 → exec .crystalFail s = .next (broken.setBit A.tmbState F.tmbState_xtalwait true)) ∧
      (1 < s.stage' → exec .crystalFail s = .next (broken.report 8 15)) ∧
      (s.fld A.tmbState F.tmbState_xtalwait = 1 → exec .xtalRetry s = .next (s.event A.tmbStatus F.tmbStatus_xtalretry)) ∧
      (s.fld A.tmbState F.tmbState_xtalwait ≠ 1 → exec .xtalRetry s = .next s) ∧
      (i = 6 → exec (.islandClockMeasure i edge err dcos) s = .next s) ∧
      (i ≤ 2 ∨ i = 15 → exec (.islandClockMeasure i edge err dcos) s = .next shown) ∧
      (i = 3 → exec (.islandClockMeasure i edge err dcos) s = .next (shown.measureTally fun k => dcos.getD k err)) ∧
      (i = 14 → err.toInt.natAbs ≤ 1000 → exec (.islandClockMeasure i edge err dcos) s = .next shown) ∧
      (i = 14 → 1000 < err.toInt.natAbs → exec (.islandClockMeasure i edge err dcos) s =
        .next ((shown.setFld (A.tmbIsl 14) F.tmbIsl_state 2).report 8 14)) ∧
      (i = 4 ∨ i = 5 ∨ (7 ≤ i ∧ i ≤ 13) → exec (.islandClockMeasure i edge err dcos) s =
        .next (s.measureIsland i edge err)) ∧
      exec .pinReset s = .next (((s.nodeReset 5).modSup fun p => { p with pinLow := true }).setStage 0) ∧
      (s.sup.pinLow = false → exec .resetRelease s = .next s) ∧
      (s.sup.pinLow = true →
        (s.sup.held = none → on F.supState_railsok → exec .resetRelease s = .next (free.setStage 1)) ∧
        (s.sup.held ≠ none ∨ ¬on F.supState_railsok → exec .resetRelease s = .next free)))
end

