-- ==== Sys2Proof/Laws/Fields.lean ====
section
/-! SUPPORT. The laws of register fields: a field reads what was set, and setting one leaves every field that shares no bit
with it. -/

set_option Elab.async false

namespace Sys2Proof.Laws

open Sys2Proof.Machine

variable {f g : Fld} {w : Word} {n : Nat}

/-- A field of a 32-bit word. -/
def Fits (f : Fld) : Prop := f.lo ≤ f.hi ∧ f.hi < 32

/-- Fields that share no bit. -/
def Apart (f g : Fld) : Prop := f.hi < g.lo ∨ g.hi < f.lo

theorem fld_set_toNat (h : Fits f) :
    (f.set w n).toNat = (w.toNat / 2 ^ (f.hi + 1) * 2 ^ (f.hi + 1 - f.lo) + n % 2 ^ (f.hi + 1 - f.lo)) * 2 ^ f.lo
      + w.toNat % 2 ^ f.lo := by
  obtain ⟨lo, hi, rfl⟩ : ∃ lo d, f = ⟨lo + d, lo⟩ := ⟨f.lo, f.hi - f.lo, by cases f; simp [Fits] at h ⊢; omega⟩
  obtain ⟨h1, h2⟩ := h
  simp only at h1 h2 ⊢
  have e : lo + hi + 1 - lo = hi + 1 := by omega
  rw [Fld.set, Fld.get]
  simp only [e]
  set x := w.toNat with hx
  have hx32 : x < 2 ^ 32 := w.isLt
  have hp : (2 : Nat) ^ (lo + hi + 1) = 2 ^ (hi + 1) * 2 ^ lo := by rw [← pow_add]; congr 1; omega
  have hd : x / 2 ^ (lo + hi + 1) = x / 2 ^ lo / 2 ^ (hi + 1) := by
    rw [Nat.div_div_eq_div_mul, ← pow_add]; congr 2
  have hsplit : x = (x / 2 ^ lo / 2 ^ (hi + 1) * 2 ^ (hi + 1) + x / 2 ^ lo % 2 ^ (hi + 1)) * 2 ^ lo + x % 2 ^ lo := by
    rw [Nat.div_add_mod', Nat.div_add_mod']
  rw [hd]
  have hn : n % 2 ^ (hi + 1) < 2 ^ (hi + 1) := Nat.mod_lt _ (by positivity)
  have hb : x % 2 ^ lo < 2 ^ lo := Nat.mod_lt _ (by positivity)
  have ha : x / 2 ^ lo / 2 ^ (hi + 1) < 2 ^ (31 - lo - hi) := by
    rw [Nat.div_div_eq_div_mul, Nat.div_lt_iff_lt_mul (by positivity), ← pow_add, ← pow_add]
    exact lt_of_lt_of_le hx32 (Nat.pow_le_pow_right (by norm_num) (by omega))
  generalize x / 2 ^ lo / 2 ^ (hi + 1) = a at *
  generalize x / 2 ^ lo % 2 ^ (hi + 1) = v at *
  generalize x % 2 ^ lo = c at *
  generalize hm : n % 2 ^ (hi + 1) = m at *
  have hval : x - v * 2 ^ lo + m * 2 ^ lo = (a * 2 ^ (hi + 1) + m) * 2 ^ lo + c := by
    rw [hsplit]; simp only [add_mul]; omega
  rw [hval, BitVec.toNat_ofNat, Nat.mod_eq_of_lt]
  have h3 : a * 2 ^ (hi + 1) + m < 2 ^ (31 - lo - hi) * 2 ^ (hi + 1) := by
    calc a * 2 ^ (hi + 1) + m < a * 2 ^ (hi + 1) + 2 ^ (hi + 1) := by omega
      _ = (a + 1) * 2 ^ (hi + 1) := by ring
      _ ≤ _ := Nat.mul_le_mul_right _ ha
  calc (a * 2 ^ (hi + 1) + m) * 2 ^ lo + c < (a * 2 ^ (hi + 1) + m) * 2 ^ lo + 2 ^ lo := by omega
    _ = (a * 2 ^ (hi + 1) + m + 1) * 2 ^ lo := by ring
    _ ≤ (2 ^ (31 - lo - hi) * 2 ^ (hi + 1)) * 2 ^ lo := Nat.mul_le_mul_right _ h3
    _ = 2 ^ 32 := by rw [← pow_add, ← pow_add]; congr 1; omega

/-- A field reads what was set. -/
theorem fld_get_set (h : Fits f) : f.get (f.set w n) = n % 2 ^ (f.hi + 1 - f.lo) := by
  have hb : w.toNat % 2 ^ f.lo < 2 ^ f.lo := Nat.mod_lt _ (by positivity)
  rw [Fld.get, fld_set_toNat h, mul_comm, Nat.mul_add_div (by positivity), Nat.div_eq_of_lt hb, add_zero,
    Nat.mul_add_mod', Nat.mod_mod]

/-- A field reads a value that fits it. -/
theorem fld_get_set_of_lt (h : Fits f) (hn : n < 2 ^ (f.hi + 1 - f.lo)) : f.get (f.set w n) = n := by
  rw [fld_get_set h, Nat.mod_eq_of_lt hn]

/-- Setting a field leaves a field that shares no bit with it. -/
theorem fld_get_set_apart (h : Fits f) (hg : g.lo ≤ g.hi) (ha : Apart f g) : g.get (f.set w n) = g.get w := by
  have hb : w.toNat % 2 ^ f.lo < 2 ^ f.lo := Nat.mod_lt _ (by positivity)
  have hm : n % 2 ^ (f.hi + 1 - f.lo) < 2 ^ (f.hi + 1 - f.lo) := Nat.mod_lt _ (by positivity)
  have hw : (2 : Nat) ^ (f.hi + 1) = 2 ^ f.lo * 2 ^ (f.hi + 1 - f.lo) := by
    rw [← pow_add]; congr 1; have := h.1; omega
  rcases ha with ha | ha
  · have hk : (2 : Nat) ^ g.lo = 2 ^ (f.hi + 1) * 2 ^ (g.lo - (f.hi + 1)) := by rw [← pow_add]; congr 1; omega
    have hq : (f.set w n).toNat / 2 ^ (f.hi + 1) = w.toNat / 2 ^ (f.hi + 1) := by
      rw [fld_set_toNat h]
      conv_lhs => rw [hw, ← Nat.div_div_eq_div_mul]
      rw [mul_comm _ (2 ^ f.lo), Nat.mul_add_div (by positivity), Nat.div_eq_of_lt hb, add_zero, mul_comm _ (2 ^ _),
        Nat.mul_add_div (by positivity), Nat.div_eq_of_lt hm, add_zero, ← hw]
    rw [Fld.get, Fld.get, hk, ← Nat.div_div_eq_div_mul, ← Nat.div_div_eq_div_mul, hq]
  · have hc : ∀ y : Nat, y / 2 ^ g.lo % 2 ^ (g.hi + 1 - g.lo) = y % 2 ^ f.lo / 2 ^ g.lo % 2 ^ (g.hi + 1 - g.lo) := by
      intro y
      obtain ⟨k, hk⟩ : ∃ k, f.lo = g.lo + (g.hi + 1 - g.lo) + k := ⟨f.lo - (g.hi + 1), by omega⟩
      rw [hk, pow_add, pow_add, Nat.mul_assoc, Nat.mod_mul_right_div_self, Nat.mod_mul_right_mod]
    have he : (f.set w n).toNat % 2 ^ f.lo = w.toNat % 2 ^ f.lo := by
      rw [fld_set_toNat h, mul_comm, Nat.mul_add_mod, Nat.mod_mod]
    rw [Fld.get, Fld.get, hc, he, ← hc]

end Sys2Proof.Laws
end

