-- ==== Sys2Proof/Laws/Store.lean ====
section
/-! SUPPORT. The laws of the sparse store: a read after a write, other numbers untouched, and the canonical form kept by
every operation on it. -/

set_option Elab.async false

namespace Sys2Proof.Laws

open Sys2Proof.Machine

variable {α : Type} [DecidableEq α] {d : Nat → α} {m : List (Nat × α)} {lo : Option Nat} {k j : Nat} {v : α}

/-- `b` is below k, for every bound there is. -/
def Below (lo : Option Nat) (k : Nat) : Prop := ∀ b, lo = some b → b < k

theorem swfFrom_cons (x : Nat × α) (t : List (Nat × α)) :
    swfFrom d lo (x :: t) = true ↔ Below lo x.1 ∧ x.2 ≠ d x.1 ∧ swfFrom d (some x.1) t = true := by
  obtain ⟨k, v⟩ := x
  cases lo <;> simp [swfFrom, Below, and_assoc]

theorem swfFrom_lower {a b : Option Nat} (h : swfFrom d a m = true) (hb : ∀ k, Below a k → Below b k) :
    swfFrom d b m = true := by
  cases m with
  | nil => rfl
  | cons x t => rw [swfFrom_cons] at h ⊢; exact ⟨hb _ h.1, h.2⟩

theorem below_some {n k : Nat} : Below (some n) k ↔ n < k := by simp [Below]

theorem below_trans {n k : Nat} (h : Below lo n) (hk : Below (some n) k) : Below lo k :=
  fun b hb => Nat.lt_trans (h b hb) (below_some.1 hk)

/-- A write keeps the canonical form. -/
theorem swfFrom_sput (h : swfFrom d lo m = true) (hk : Below lo k) : swfFrom d lo (sput (d k) m k v) = true := by
  induction m generalizing lo with
  | nil =>
    by_cases hv : v = d k
    · simp [sput, hv, swfFrom]
    · rw [sput, if_neg hv, swfFrom_cons]; exact ⟨hk, hv, rfl⟩
  | cons x t ih =>
    obtain ⟨k', v'⟩ := x
    rw [swfFrom_cons] at h
    obtain ⟨h1, h2, h3⟩ := h
    rw [sput]
    split
    · rw [swfFrom_cons]; exact ⟨h1, h2, ih h3 (below_some.2 ‹_›)⟩
    · split
      · subst k'
        split
        · exact swfFrom_lower h3 fun k hk' => below_trans h1 hk'
        · rw [swfFrom_cons]; exact ⟨h1, ‹_›, h3⟩
      · split
        · rw [swfFrom_cons]; exact ⟨h1, h2, h3⟩
        · rw [swfFrom_cons]
          refine ⟨hk, ‹_›, ?_⟩
          rw [swfFrom_cons]
          exact ⟨below_some.2 (by simp only; omega), h2, h3⟩

theorem swf_sput (h : swf d m = true) : swf d (sput (d k) m k v) = true :=
  swfFrom_sput h fun _ hb => by simp at hb

/-- Writes at successive numbers keep the canonical form. -/
theorem swf_sputs {c : α} (vs : List α) (h : swf (fun _ => c) m = true) :
    swf (fun _ => c) (sputs c m k vs) = true := by
  induction vs generalizing m k with
  | nil => exact h
  | cons v vs ih => exact ih (swf_sput (d := fun _ => c) h)

theorem swfFrom_sfrom {c : α} (vs : List α) (k : Nat) (lo : Option Nat) (h : Below lo k) :
    swfFrom (fun _ => c) lo (sfrom c k vs) = true := by
  induction vs generalizing k lo with
  | nil => rfl
  | cons v vs ih =>
    unfold sfrom
    split
    · exact ih _ _ fun b hb => Nat.lt_succ_of_lt (h b hb)
    · rw [swfFrom_cons]
      exact ⟨h, ‹_›, ih _ _ (below_some.2 (Nat.lt_succ_self k))⟩

/-- The store of a list of values is canonical. -/
theorem swf_sfrom {c : α} (vs : List α) (k : Nat) : swf (fun _ => c) (sfrom c k vs) = true :=
  swfFrom_sfrom vs k none fun _ hb => by simp at hb

theorem swfFrom_filter (p : Nat × α → Bool) (h : swfFrom d lo m = true) : swfFrom d lo (m.filter p) = true := by
  induction m generalizing lo with
  | nil => exact h
  | cons x t ih =>
    rw [swfFrom_cons] at h
    rw [List.filter_cons]
    split
    · rw [swfFrom_cons]; exact ⟨h.1, h.2.1, ih h.2.2⟩
    · exact swfFrom_lower (ih h.2.2) fun k hk => below_trans h.1 hk

/-- Taking entries away keeps the canonical form. -/
theorem swf_filter (p : Nat × α → Bool) (h : swf d m = true) : swf d (m.filter p) = true := swfFrom_filter p h

/-- A write leaves every other number as it reads. -/
theorem sget_sput_other {c e : α} (h : j ≠ k) : sget c (sput e m k v) j = sget c m j := by
  induction m with
  | nil => unfold sput; split <;> simp [sget, h.symm]
  | cons x t ih =>
    obtain ⟨k', v'⟩ := x
    rw [sput]
    split
    · simp [sget, ih]
    · split
      · subst k'; split <;> simp [sget, h.symm]
      · split
        · rfl
        · simp [sget, h.symm]

theorem sget_below (h : swfFrom d (some k) m = true) : sget (d k) m k = d k := by
  suffices ∀ n, k ≤ n → swfFrom d (some n) m = true → sget (d k) m k = d k from this k (Nat.le_refl k) h
  clear h
  intro n hn h
  induction m generalizing n with
  | nil => rfl
  | cons x t ih =>
    obtain ⟨k', v'⟩ := x
    rw [swfFrom_cons] at h
    have := below_some.1 h.1
    have hne : k' ≠ k := by simp only at this; omega
    rw [sget, if_neg hne]
    exact ih k' (by simp only at this; omega) h.2.2

/-- A number reads what was written to it last. -/
theorem sget_sput_same (h : swf d m = true) : sget (d k) (sput (d k) m k v) k = v := by
  suffices ∀ lo, swfFrom d lo m = true → sget (d k) (sput (d k) m k v) k = v from this none h
  clear h
  intro lo h
  induction m generalizing lo with
  | nil => unfold sput; split <;> simp_all [sget]
  | cons x t ih =>
    obtain ⟨k', v'⟩ := x
    rw [swfFrom_cons] at h
    rw [sput]
    split
    · rename_i hlt
      rw [sget, if_neg (by omega)]
      exact ih _ h.2.2
    · split
      · subst k'
        split
        · rename_i hv; rw [hv]; exact sget_below h.2.2
        · simp [sget]
      · split
        · rename_i h1 h2 hv
          rw [sget, if_neg h2, hv]
          exact sget_below (swfFrom_lower h.2.2 fun n hn => below_some.2 (by
            have := below_some.1 hn; simp only at this; omega))
        · simp [sget]

end Sys2Proof.Laws
end

