-- ==== Sys2Proof/Laws/Steady.lean ====
section
/-! SUPPORT. Steadiness: what every operation on the state keeps. The state stays canonical, the queue stays as it is, and
the timebase stays at its value unless a node reset sets it to 0. One lemma per way a state is updated; the lemmas of the
operations stand in the files after this one. -/

set_option Elab.async false

namespace Sys2Proof.Laws

open Sys2Proof.Machine

/-- The state is canonical, its queue is `q`, and its timebase shows `b`, or 0 after a node reset. -/
structure Steady (b : Stamp) (q : List Instr) (s : State) : Prop where
  canon : canonical s = true
  pending : s.pending = q
  tbc : s.tbc = b ∨ s.tbc = 0

/-- The lanes are three, each with its keep memory in canonical form. -/
def LanesOk (ls : List LaneSt) : Prop :=
  ls.length = 3 ∧ ∀ ln ∈ ls, swf (fun _ => TWord.zero) ln.keep = true

/-- The core's keep memory and SRAM are in canonical form. -/
def CoreOk (k : Core) : Prop :=
  swf (fun _ => TWord.zero) k.keep = true ∧ swf (fun _ => (0 : Byte)) k.sram = true

theorem canonical_iff (s : State) :
    canonical s = true ↔
      swf resetWord s.regs = true ∧ swf factoryWord s.flash = true ∧ CoreOk s.core ∧ LanesOk s.lanes := by
  simp [canonical, CoreOk, LanesOk, and_assoc]

variable {b : Stamp} {q : List Instr} {s t : State}

theorem Steady.regs (h : Steady b q s) : swf resetWord s.regs = true := ((canonical_iff s).1 h.canon).1
theorem Steady.flash (h : Steady b q s) : swf factoryWord s.flash = true := ((canonical_iff s).1 h.canon).2.1
theorem Steady.core (h : Steady b q s) : CoreOk s.core := ((canonical_iff s).1 h.canon).2.2.1
theorem Steady.lanes (h : Steady b q s) : LanesOk s.lanes := ((canonical_iff s).1 h.canon).2.2.2

theorem Steady.of (hr : swf resetWord s.regs = true) (hf : swf factoryWord s.flash = true) (hc : CoreOk s.core)
    (hl : LanesOk s.lanes) (hp : s.pending = q) (ht : s.tbc = b ∨ s.tbc = 0) : Steady b q s :=
  ⟨(canonical_iff s).2 ⟨hr, hf, hc, hl⟩, hp, ht⟩

/-- An update of the fields that steadiness does not speak of. -/
theorem steady_mk {st lk tc im ni fr ty fl fd jn ev rt pn up mg su hs ne fe} :
    Steady b q ⟨s.regs, s.tbc, st, lk, s.lanes, tc, im, ni, fr, ty, s.core, fl, fd, s.flash, jn, ev, rt, pn, up, mg, su,
      hs, ne, fe, s.pending⟩ ↔ Steady b q s := ⟨fun h => ⟨h.1, h.2, h.3⟩, fun h => ⟨h.1, h.2, h.3⟩⟩

theorem steady_regs (h : Steady b q s) {rs} (hr : swf resetWord rs = true)
    {st lk tc im ni fr ty fl fd jn ev rt pn up mg su hs ne fe} :
    Steady b q ⟨rs, s.tbc, st, lk, s.lanes, tc, im, ni, fr, ty, s.core, fl, fd, s.flash, jn, ev, rt, pn, up, mg, su,
      hs, ne, fe, s.pending⟩ := Steady.of hr h.flash h.core h.lanes h.pending h.tbc

/-- Registers put back to their reset values. -/
theorem steady_filter (h : Steady b q s) {p : Nat × Word → Bool}
    {st lk tc im ni fr ty fl fd jn ev rt pn up mg su hs ne fe} :
    Steady b q ⟨s.regs.filter p, s.tbc, st, lk, s.lanes, tc, im, ni, fr, ty, s.core, fl, fd, s.flash, jn, ev, rt, pn, up,
      mg, su, hs, ne, fe, s.pending⟩ := steady_regs h (swf_filter _ h.regs)

theorem steady_flash (h : Steady b q s) {fs} (hf : swf factoryWord fs = true) : Steady b q { s with flash := fs } :=
  Steady.of h.regs hf h.core h.lanes h.pending h.tbc

theorem steady_core (h : Steady b q s) {k} (hc : CoreOk k) : Steady b q { s with core := k } :=
  Steady.of h.regs h.flash hc h.lanes h.pending h.tbc

theorem steady_lanes (h : Steady b q s) {ls} (hl : LanesOk ls) : Steady b q { s with lanes := ls } :=
  Steady.of h.regs h.flash h.core hl h.pending h.tbc

theorem steady_ite {c : Prop} [Decidable c] (hs : Steady b q s) (ht : Steady b q t) :
    Steady b q (if c then s else t) := by split <;> assumption

theorem steady_foldl {β : Type} {f : State → β → State} (l : List β) (h : Steady b q s)
    (hf : ∀ s x, Steady b q s → Steady b q (f s x)) : Steady b q (l.foldl f s) := by
  induction l generalizing s with
  | nil => exact h
  | cons x l ih => exact ih (hf s x h)

section Tuples

variable {α β γ : Type} {c : Prop} [Decidable c]

theorem steady_ite_1 {x y : State × α} (hx : Steady b q x.1) (hy : Steady b q y.1) :
    Steady b q (if c then x else y).1 := by split <;> assumption

theorem steady_ite_2 {x y : α × State} (hx : Steady b q x.2) (hy : Steady b q y.2) :
    Steady b q (if c then x else y).2 := by split <;> assumption

theorem steady_ite_22 {x y : α × β × State} (hx : Steady b q x.2.2) (hy : Steady b q y.2.2) :
    Steady b q (if c then x else y).2.2 := by split <;> assumption

theorem steady_ite_222 {x y : α × β × γ × State} (hx : Steady b q x.2.2.2) (hy : Steady b q y.2.2.2) :
    Steady b q (if c then x else y).2.2.2 := by split <;> assumption

end Tuples

/-- A changed lane whose keep memory stays. -/
theorem lanesOk_modify {ls : List LaneSt} {g : LaneSt → LaneSt} (n : Nat) (h : LanesOk ls)
    (hg : ∀ ln, swf (fun _ => TWord.zero) ln.keep = true → swf (fun _ => TWord.zero) (g ln).keep = true) :
    LanesOk (ls.modify n g) := by
  refine ⟨by simp [h.1], fun ln hln => ?_⟩
  obtain ⟨i, hi, rfl⟩ := List.mem_iff_getElem.1 hln
  rw [List.getElem_modify]
  have hi' : i < ls.length := by simpa using hi
  split
  · exact hg _ (h.2 _ (List.getElem_mem hi'))
  · exact h.2 _ (List.getElem_mem hi')

theorem lanesOk_map {ls : List LaneSt} {g : LaneSt → LaneSt} (h : LanesOk ls)
    (hg : ∀ ln, swf (fun _ => TWord.zero) ln.keep = true → swf (fun _ => TWord.zero) (g ln).keep = true) :
    LanesOk (ls.map g) := by
  refine ⟨by simp [h.1], fun ln hln => ?_⟩
  obtain ⟨x, hx, rfl⟩ := List.mem_map.1 hln
  exact hg _ (h.2 _ hx)

/-- Each lane changed by a function that leaves its keep memory. -/
theorem steady_lanesMap (h : Steady b q s) {g : LaneSt → LaneSt}
    (hg : ∀ ln, swf (fun _ => TWord.zero) ln.keep = true → swf (fun _ => TWord.zero) (g ln).keep = true)
    {st lk tc im ni fr ty fl fd jn ev rt pn up mg su hs ne fe} :
    Steady b q ⟨s.regs, s.tbc, st, lk, s.lanes.map g, tc, im, ni, fr, ty, s.core, fl, fd, s.flash, jn, ev, rt, pn, up,
      mg, su, hs, ne, fe, s.pending⟩ := steady_mk.2 (steady_lanes h (lanesOk_map h.lanes hg))

theorem modLane_steady (l : LaneId) {g : LaneSt → LaneSt} (h : Steady b q s)
    (hg : ∀ ln, swf (fun _ => TWord.zero) ln.keep = true → swf (fun _ => TWord.zero) (g ln).keep = true) :
    Steady b q (s.modLane l g) := steady_lanes h (lanesOk_modify _ h.lanes hg)

/-- The same, of the core's registers too. -/
theorem steady_mkCore {cp bk ro ms ep ec ea ef vb im ip tm ts cy sc wa}
    {st lk tc img ni fr ty fl fd jn ev rt pn up mg su hs ne fe} :
    Steady b q ⟨s.regs, s.tbc, st, lk, s.lanes, tc, img, ni, fr, ty,
      ⟨cp, bk, s.core.keep, s.core.sram, ro, ms, ep, ec, ea, ef, vb, im, ip, tm, ts, cy, sc, wa⟩, fl, fd, s.flash, jn, ev,
      rt, pn, up, mg, su, hs, ne, fe, s.pending⟩ ↔ Steady b q s :=
  ⟨fun h => ⟨h.1, h.2, h.3⟩, fun h => ⟨h.1, h.2, h.3⟩⟩

theorem modCore_steady {g : Core → Core} (h : Steady b q s) (hg : CoreOk s.core → CoreOk (g s.core)) :
    Steady b q (s.modCore g) := steady_core h (hg h.core)

theorem setReg_steady (a : Nat) (w : Word) (h : Steady b q s) : Steady b q (s.setReg a w) :=
  steady_regs h (swf_sput h.regs)

end Sys2Proof.Laws
end

