-- ==== Sys2Proof/Laws/SteadyLanes.lean ====
section
/-! SUPPORT. Steadiness of the operations over registers, the Vupore machine, keep memory and the alarm instructions: one lemma for each operation and each
meaning. -/

set_option Elab.async false

namespace Sys2Proof.Laws

open Sys2Proof.Machine

set_option linter.unusedSimpArgs false
set_option linter.unusedVariables false

variable {tb : Stamp} {qu : List Instr}


/-- Every next state of the outcome is steady. -/
structure SteadyOut (tb : Stamp) (qu : List Instr) (o : Out) : Prop where
  steady : ∀ t, o = .next t → Steady tb qu t

theorem steadyOut_next {s : State} (h : Steady tb qu s) : SteadyOut tb qu (.next s) :=
  ⟨fun t ht => by cases ht; exact h⟩

theorem steadyOut_ite {c : Prop} [Decidable c] {x y : Out} (hx : SteadyOut tb qu x) (hy : SteadyOut tb qu y) :
    SteadyOut tb qu (if c then x else y) := by split <;> assumption

theorem Steady.keepOf {s : State} (h : Steady tb qu s) (l : LaneId) :
    swf (fun _ => TWord.zero) (s.lane l).keep = true := by
  unfold State.lane
  have hl : l.val < s.lanes.length := by rw [h.lanes.1]; exact l.isLt
  rw [List.getD_eq_getElem _ _ hl]
  exact h.lanes.2 _ (List.getElem_mem hl)

theorem pending_nextFree (s : State) : s.nextFree.2.pending = s.pending := rfl

theorem nextFree_steady {s : State} (hst : Steady tb qu s) : Steady tb qu s.nextFree.2 := steady_mk.2 hst

theorem setFld_steady (s : State) (a : Nat) (f : Fld) (n : Nat) (hst : Steady tb qu s) :
    Steady tb qu (State.setFld s a f n) := by
  unfold State.setFld
  repeat' first
    | with_reducible assumption | intro _ | with_reducible apply setReg_steady

theorem setBit_steady (s : State) (a : Nat) (f : Fld) (b : Bool) (hst : Steady tb qu s) :
    Steady tb qu (State.setBit s a f b) := by
  unfold State.setBit
  repeat' first
    | with_reducible assumption | intro _ | with_reducible apply setFld_steady

theorem satAdd_steady (s : State) (a : Nat) (f : Fld) (n : Nat) (hst : Steady tb qu s) :
    Steady tb qu (State.satAdd s a f n) := by
  unfold State.satAdd
  repeat' first
    | with_reducible assumption | intro _ | with_reducible apply setFld_steady

theorem satInc_steady (s : State) (a : Nat) (f : Fld) (hst : Steady tb qu s) :
    Steady tb qu (State.satInc s a f) := by
  unfold State.satInc
  repeat' first
    | with_reducible assumption | intro _ | with_reducible apply satAdd_steady

theorem inc_steady (s : State) (a : Nat) (f : Fld) (hst : Steady tb qu s) :
    Steady tb qu (State.inc s a f) := by
  unfold State.inc
  repeat' first
    | with_reducible assumption | intro _ | with_reducible apply setFld_steady

theorem lastPeak_steady (s : State) (a : Nat) (last peak : Fld) (n : Nat) (hst : Steady tb qu s) :
    Steady tb qu (State.lastPeak s a last peak n) := by
  unfold State.lastPeak
  repeat' first
    | with_reducible assumption | intro _ | with_reducible apply setFld_steady

theorem setPair_steady (s : State) (a n : Nat) (hst : Steady tb qu s) :
    Steady tb qu (State.setPair s a n) := by
  unfold State.setPair
  repeat' first
    | with_reducible assumption | intro _ | with_reducible apply setReg_steady

theorem event_steady (s : State) (a : Nat) (flag : Fld) (hst : Steady tb qu s) :
    Steady tb qu (State.event s a flag) := by
  unfold State.event
  repeat' first
    | with_reducible assumption | intro _ | with_reducible apply setFld_steady

theorem raise_steady (s : State) (k inst access master : Nat) (addr : Word) (stamp : Stamp) (hst : Steady tb qu s) :
    Steady tb qu (State.raise s k inst access master addr stamp) := by
  unfold State.raise
  repeat' first
    | with_reducible assumption | intro _ | with_reducible apply steady_ite | (simp only [steady_mk, steady_mkCore])

theorem report_steady (s : State) (k inst : Nat) (hst : Steady tb qu s) :
    Steady tb qu (State.report s k inst) := by
  unfold State.report
  repeat' first
    | with_reducible assumption | intro _ | with_reducible apply raise_steady

theorem busError_steady (s : State) (m : Nat) (access : Nat) (addr : Word) (hst : Steady tb qu s) :
    Steady tb qu (State.busError s m access addr) := by
  unfold State.busError
  repeat' first
    | with_reducible assumption | intro _ | with_reducible apply raise_steady

theorem send_steady (s : State) (r : InRec) (hst : Steady tb qu s) :
    Steady tb qu (State.send s r) := by
  unfold State.send
  repeat' first
    | with_reducible assumption | intro _ | with_reducible apply steady_ite | (simp only [steady_mk, steady_mkCore])

theorem completeFrame_steady (s : State) (l : LaneId) (hst : Steady tb qu s) :
    Steady tb qu (State.completeFrame s l) := by
  unfold State.completeFrame
  repeat' first
    | with_reducible assumption | intro _ | with_reducible apply modLane_steady | with_reducible apply setReg_steady
    | with_reducible apply setFld_steady | with_reducible apply steady_ite | (simp only [steady_mk, steady_mkCore])

theorem dropGroup_keep (ln : LaneSt) (t : ThreadId) (th : Thread) : (ln.dropGroup t th).keep = ln.keep := by
  unfold LaneSt.dropGroup; split <;> rfl

theorem stopThread_steady (s : State) (l : LaneId) (t : ThreadId) (th : Thread) (st : ThreadState)
    (hst : Steady tb qu s) : Steady tb qu (State.stopThread s l t th st) := by
  unfold State.stopThread
  exact completeFrame_steady _ _ (modLane_steady l hst fun ln h => by simpa [LaneSt.putThread, dropGroup_keep] using h)

theorem reportThread_steady (s : State) (l : LaneId) (t : ThreadId) (code : Nat) (th : Thread) (hst : Steady tb qu s) :
    Steady tb qu (State.reportThread s l t code th) := by
  unfold State.reportThread
  repeat' first
    | with_reducible assumption | intro _ | with_reducible apply modLane_steady
    | with_reducible apply event_steady

theorem threadFault_steady (s : State) (l : LaneId) (t : ThreadId) (code : Nat) (hst : Steady tb qu s) :
    Steady tb qu (State.threadFault s l t code) := by
  unfold State.threadFault
  repeat' first
    | with_reducible assumption | intro _ | with_reducible apply reportThread_steady
    | with_reducible apply stopThread_steady

theorem finish_steady (s : State) (l : LaneId) (t : ThreadId) (slots : Nat) (c : Cpu) (hst : Steady tb qu s) :
    Steady tb qu (State.finish s l t slots c) := by
  unfold State.finish
  repeat' first
    | with_reducible assumption | intro _ | with_reducible apply modLane_steady
    | with_reducible apply stopThread_steady | with_reducible apply steady_ite | with_reducible apply steadyOut_next
    | split | dsimp only | assumption

theorem complete_steady (s0 s : State) (l : LaneId) (t : ThreadId) (slots : Nat) (c : Cpu) (hst : Steady tb qu s0) (hst1 : Steady tb qu s) :
    Steady tb qu (State.complete s0 s l t slots c) := by
  unfold State.complete
  repeat' first
    | with_reducible assumption | intro _ | with_reducible apply finish_steady
    | with_reducible apply threadFault_steady | with_reducible apply steady_ite

/-- Every state an instruction's effect holds is steady. -/
inductive SteadyEff (tb : Stamp) (qu : List Instr) : Eff → Prop where
  | done {s c} (h : Steady tb qu s) : SteadyEff tb qu (.done s c)
  | jump {s c n} (h : Steady tb qu s) : SteadyEff tb qu (.jump s c n)
  | turn {s} (h : Steady tb qu s) : SteadyEff tb qu (.turn s)
  | warn {s c n} (h : Steady tb qu s) : SteadyEff tb qu (.warn s c n)
  | stop {st} : SteadyEff tb qu (.stop st)
  | fault {n a} : SteadyEff tb qu (.fault n a)
  | priv : SteadyEff tb qu .priv
  | sys {n} : SteadyEff tb qu (.sys n)

theorem steadyEff_ite {c : Prop} [Decidable c] {x y : Eff} (hx : SteadyEff tb qu x) (hy : SteadyEff tb qu y) :
    SteadyEff tb qu (if c then x else y) := by split <;> assumption

theorem settle_steady (s : State) (l : LaneId) (t : ThreadId) (slots : Nat) (e : Eff) (hst : Steady tb qu s)
    (he : SteadyEff tb qu e) : Steady tb qu (s.settle l t slots e) := by
  cases he with
  | done he => exact complete_steady _ _ _ _ _ _ hst he
  | jump he => exact steady_ite (finish_steady _ _ _ _ _ he) (threadFault_steady _ _ _ _ hst)
  | stop => exact stopThread_steady _ _ _ _ _ hst
  | turn he => exact he
  | warn he => exact reportThread_steady _ _ _ _ _ (complete_steady _ _ _ _ _ _ hst he)
  | fault => exact threadFault_steady _ _ _ _ hst
  | priv => exact threadFault_steady _ _ _ _ hst
  | sys => exact threadFault_steady _ _ _ _ hst

theorem issueLane_steady (s : State) (l : LaneId) (t : ThreadId) (slots : Nat) (free legal : Bool)
    (body : State → Cpu → Eff) (hst : Steady tb qu s)
    (hb : ∀ s c, Steady tb qu s → SteadyEff tb qu (body s c)) :
    Steady tb qu (s.issueLane l t slots free legal body) := by
  unfold State.issueLane
  exact steady_ite hst (steady_ite (threadFault_steady _ _ _ _ hst) (steady_ite (threadFault_steady _ _ _ _ hst)
    (settle_steady _ _ _ _ _ hst (hb _ _ hst))))

theorem setMstat_core (k : Core) (w : Word) : (k.setMstat w).keep = k.keep ∧ (k.setMstat w).sram = k.sram := by
  unfold Core.setMstat; split <;> exact ⟨rfl, rfl⟩

theorem enter_core (k : Core) (epc : Nat) (cause : Word) (a : Option Word) (vec : Nat) :
    (k.enter epc cause a vec).keep = k.keep ∧ (k.enter epc cause a vec).sram = k.sram := by
  unfold Core.enter
  simp only [setMstat_core, and_self]

theorem coreOk_enter {k : Core} (h : CoreOk k) (epc : Nat) (cause : Word) (a : Option Word) (vec : Nat) :
    CoreOk (k.enter epc cause a vec) := by
  unfold CoreOk; rw [(enter_core k epc cause a vec).1, (enter_core k epc cause a vec).2]; exact h

theorem coreOk_exception {k : Core} (h : CoreOk k) (code arg : Nat) (a : Option Word) (epc : Nat) :
    CoreOk (k.exception code arg a epc) := coreOk_enter h _ _ _ _

theorem coreException_steady {s : State} (hst : Steady tb qu s) (code arg : Nat) (a : Option Word) (epc : Nat) :
    Steady tb qu (s.modCore fun k => k.exception code arg a epc) := modCore_steady hst fun h => coreOk_exception h _ _ _ _

theorem settleCore_steady (s : State) (e : Eff) (hst : Steady tb qu s) (he : SteadyEff tb qu e) :
    Steady tb qu (s.settleCore e) := by
  cases he with
  | done he => exact steady_ite (modCore_steady he fun h => h) (coreException_steady hst _ _ _ _)
  | jump he => exact steady_ite (modCore_steady he fun h => h) (coreException_steady hst _ _ _ _)
  | stop => exact hst
  | turn he => exact he
  | warn he => exact he
  | fault => exact coreException_steady hst _ _ _ _
  | priv => exact coreException_steady hst _ _ _ _
  | sys => exact coreException_steady hst _ _ _ _

theorem issueCore_steady (s : State) (slots : Nat) (legal : Bool) (body : State → Cpu → Eff) (hst : Steady tb qu s)
    (hb : ∀ s c, Steady tb qu s → SteadyEff tb qu (body s c)) : Steady tb qu (s.issueCore slots legal body) := by
  unfold State.issueCore
  refine steady_ite hst ?_
  have h1 : Steady tb qu (s.modCore fun k =>
      { k with waiting := false, cycles := k.cycles + BitVec.ofNat 64 slots }) := modCore_steady hst fun h => h
  exact steady_ite (coreException_steady h1 _ _ _ _)
    (steady_ite (coreException_steady h1 _ _ _ _) (settleCore_steady _ _ h1 (hb _ _ h1)))

theorem issue_steady (s : State) (w : Who) (slots : Nat) (legal : Bool) (body : State → Cpu → Eff)
    (hst : Steady tb qu s) (hb : ∀ s c, Steady tb qu s → SteadyEff tb qu (body s c)) :
    Steady tb qu (s.issue w slots legal body) := by
  cases w with
  | lane l t => exact issueLane_steady _ _ _ _ _ _ _ hst hb
  | core => exact issueCore_steady _ _ _ _ hst hb

theorem issueLanes_steady (s : State) (w : Who) (slots : Nat) (free legal : Bool)
    (body : LaneId → ThreadId → State → Cpu → Eff) (hst : Steady tb qu s)
    (hb : ∀ l t s c, Steady tb qu s → SteadyEff tb qu (body l t s c)) :
    Steady tb qu (s.issueLanes w slots free legal body) := by
  cases w with
  | lane l t => exact issueLane_steady _ _ _ _ _ _ _ hst (hb l t)
  | core => exact issueCore_steady _ _ _ _ hst fun _ _ h => .done h

theorem issueM_steady (s : State) (w : Who) (legal : Bool) (body : State → Cpu → Eff)
    (hst : Steady tb qu s) (hb : ∀ s c, Steady tb qu s → SteadyEff tb qu (body s c)) :
    Steady tb qu (s.issueM w legal body) := by
  cases w with
  | lane l t => exact issueLane_steady _ _ _ _ _ _ _ hst fun _ _ h => .done h
  | core => exact issueCore_steady _ _ _ _ hst hb

theorem issueCpu_steady (s : State) (w : Who) (slots : Nat) (legal : Bool) (g : Cpu → Cpu) (hst : Steady tb qu s) :
    SteadyOut tb qu (State.issueCpu s w slots legal g) := by
  unfold State.issueCpu
  repeat' first
    | with_reducible assumption | intro _ | with_reducible apply issue_steady | with_reducible apply steady_ite
    | with_reducible apply steadyOut_next | with_reducible apply SteadyEff.done

theorem keepPut_steady (s : State) (w : Who) (a : Nat) (v : TWord) (hst : Steady tb qu s) :
    Steady tb qu (s.keepPut w a v) := by
  have hg : ∀ ln : LaneSt, swf (fun _ => TWord.zero) ln.keep = true →
      swf (fun _ => TWord.zero) (sput TWord.zero ln.keep a v) = true := fun ln h => swf_sput (d := fun _ => TWord.zero) h
  cases w with
  | lane l _ =>
    unfold State.keepPut
    dsimp only
    split
    · exact modLane_steady l hst hg
    · exact modLane_steady _ (modLane_steady l hst hg) hg
  | core =>
    unfold State.keepPut
    exact modCore_steady hst fun h => ⟨swf_sput (d := fun _ => TWord.zero) h.1, h.2⟩

theorem keepInstr_steady (w : Who) (a : Reg) (imm : BitVec 18) (n slots : Nat) (legal : Bool)
    (body : State → Cpu → Nat → Eff) (s : State) (hst : Steady tb qu s)
    (hb : ∀ s c ea, Steady tb qu s → SteadyEff tb qu (body s c ea)) :
    SteadyOut tb qu (keepInstr w a imm n slots legal body s) :=
  steadyOut_next (issue_steady _ _ _ _ _ hst fun _ _ h => steadyEff_ite (hb _ _ _ h) .fault)

theorem execLdk_steady (w : Who) (d a : Reg) (imm : BitVec 18) (s : State) (hst : Steady tb qu s) :
    SteadyOut tb qu (execLdk w d a imm s) := by
  unfold execLdk
  repeat' first
    | with_reducible assumption | intro _ | with_reducible apply keepInstr_steady | with_reducible apply steady_ite
    | with_reducible apply steadyOut_next | with_reducible apply SteadyEff.done

theorem execStk_steady (w : Who) (d a : Reg) (imm : BitVec 18) (s : State) (hst : Steady tb qu s) :
    SteadyOut tb qu (execStk w d a imm s) := by
  unfold execStk
  repeat' first
    | with_reducible assumption | intro _ | with_reducible apply keepInstr_steady
    | with_reducible apply keepPut_steady | with_reducible apply steady_ite | with_reducible apply steadyOut_next
    | with_reducible apply SteadyEff.done

theorem execLdk2_steady (w : Who) (d a : Reg) (imm : BitVec 18) (s : State) (hst : Steady tb qu s) :
    SteadyOut tb qu (execLdk2 w d a imm s) := by
  unfold execLdk2
  repeat' first
    | with_reducible assumption | intro _ | with_reducible apply keepInstr_steady | with_reducible apply steady_ite
    | with_reducible apply steadyOut_next | with_reducible apply SteadyEff.done

theorem execStk2_steady (w : Who) (d a : Reg) (imm : BitVec 18) (s : State) (hst : Steady tb qu s) :
    SteadyOut tb qu (execStk2 w d a imm s) := by
  unfold execStk2
  repeat' first
    | with_reducible assumption | intro _ | with_reducible apply keepInstr_steady
    | with_reducible apply keepPut_steady | with_reducible apply steady_ite | with_reducible apply steadyOut_next
    | with_reducible apply SteadyEff.done

theorem takeEntry_keep {ln x : LaneSt} {r : BitVec 7} {e : FixedEntry} (h : ln.takeEntry r = some (e, x)) :
    x.keep = ln.keep := by
  unfold LaneSt.takeEntry at h
  repeat' split at h
  all_goals simp only [reduceCtorEq, Option.some.injEq, Prod.mk.injEq] at h
  all_goals rw [← h.2]

theorem takeEff_steady (l : LaneId) (d : Reg) (r : BitVec 7) (s : State) (c : Cpu) (hst : Steady tb qu s) :
    SteadyEff tb qu (takeEff l d r s c) := by
  unfold takeEff
  split
  · exact .done hst
  · rename_i h
    refine .done (modLane_steady l hst ?_)
    exact fun _ _ => by rw [takeEntry_keep h]; exact hst.keepOf l

theorem execTake_steady (w : Who) (d : Reg) (ring : BitVec 7) (s : State) (hst : Steady tb qu s) :
    SteadyOut tb qu (execTake w d ring s) := by
  unfold execTake
  repeat' first
    | with_reducible assumption | intro _ | with_reducible apply issueLanes_steady
    | with_reducible apply takeEff_steady | with_reducible apply steady_ite | with_reducible apply steadyOut_next
    | with_reducible apply SteadyEff.done | with_reducible apply SteadyEff.jump | with_reducible apply SteadyEff.turn
    | with_reducible apply SteadyEff.warn | with_reducible exact SteadyEff.stop | with_reducible exact SteadyEff.fault
    | with_reducible exact SteadyEff.priv | with_reducible exact SteadyEff.sys | with_reducible apply steadyEff_ite

theorem waitEff_steady (d : Reg) (r : BitVec 7) (l : LaneId) (t : ThreadId) (s : State) (c : Cpu) (hst : Steady tb qu s) :
    SteadyEff tb qu (waitEff d r l t s c) := by
  unfold waitEff
  repeat' first
    | with_reducible assumption | intro _ | with_reducible apply takeEff_steady | with_reducible apply modLane_steady
    | with_reducible apply steady_ite | with_reducible apply steadyOut_next | with_reducible apply SteadyEff.done
    | with_reducible apply SteadyEff.jump | with_reducible apply SteadyEff.turn | with_reducible apply SteadyEff.warn
    | with_reducible exact SteadyEff.stop | with_reducible exact SteadyEff.fault | with_reducible exact SteadyEff.priv
    | with_reducible exact SteadyEff.sys | with_reducible apply steadyEff_ite
    | (simp only [LaneSt.putThread, dropGroup_keep]; assumption)

theorem resume_steady (s : State) (l : LaneId) (t : ThreadId) (d : Reg) (r : BitVec 7) (hst : Steady tb qu s) :
    Steady tb qu (State.resume s l t d r) := by
  unfold State.resume
  repeat' first
    | with_reducible assumption | intro _ | with_reducible apply modLane_steady | with_reducible apply steady_ite
    | with_reducible apply steadyOut_next | (simp only [LaneSt.putThread, dropGroup_keep]; assumption)

theorem execWait_steady (w : Who) (d : Reg) (ring : BitVec 7) (s : State) (hst : Steady tb qu s) :
    SteadyOut tb qu (execWait w d ring s) := by
  unfold execWait
  repeat' first
    | with_reducible assumption | intro _ | with_reducible apply resume_steady | with_reducible apply issueLane_steady
    | with_reducible apply waitEff_steady | with_reducible apply issueLanes_steady | with_reducible apply steady_ite
    | with_reducible apply steadyOut_next | with_reducible apply SteadyEff.done | with_reducible apply SteadyEff.jump
    | with_reducible apply SteadyEff.turn | with_reducible apply SteadyEff.warn | with_reducible exact SteadyEff.stop
    | with_reducible exact SteadyEff.fault | with_reducible exact SteadyEff.priv | with_reducible exact SteadyEff.sys
    | with_reducible apply steadyEff_ite | split

theorem execWaitEnd_steady (l : LaneId) (t : ThreadId) (s : State) (hst : Steady tb qu s) :
    SteadyOut tb qu (execWaitEnd l t s) := by
  unfold execWaitEnd
  repeat' first
    | with_reducible assumption | intro _ | with_reducible apply resume_steady | with_reducible apply issueLane_steady
    | with_reducible apply waitEff_steady | with_reducible apply steady_ite | (simp only [steady_mk, steady_mkCore])
    | with_reducible apply steadyOut_next | split

theorem execPost_steady (w : Who) (d : Reg) (ring : BitVec 7) (s : State) (hst : Steady tb qu s) :
    SteadyOut tb qu (execPost w d ring s) := by
  unfold execPost
  repeat' first
    | with_reducible assumption | intro _ | with_reducible apply issueLanes_steady
    | with_reducible apply modLane_steady | with_reducible apply steady_ite | with_reducible apply steadyOut_next
    | with_reducible apply SteadyEff.done | with_reducible apply SteadyEff.jump | with_reducible apply SteadyEff.turn
    | with_reducible apply SteadyEff.warn | with_reducible exact SteadyEff.stop | with_reducible exact SteadyEff.fault
    | with_reducible exact SteadyEff.priv | with_reducible exact SteadyEff.sys | with_reducible apply steadyEff_ite

theorem execRcnt_steady (w : Who) (d : Reg) (ring : BitVec 7) (s : State) (hst : Steady tb qu s) :
    SteadyOut tb qu (execRcnt w d ring s) := by
  unfold execRcnt
  repeat' first
    | with_reducible assumption | intro _ | with_reducible apply issueLanes_steady | with_reducible apply steady_ite
    | with_reducible apply steadyOut_next | with_reducible apply SteadyEff.done | with_reducible apply SteadyEff.jump
    | with_reducible apply SteadyEff.turn | with_reducible apply SteadyEff.warn | with_reducible exact SteadyEff.stop
    | with_reducible exact SteadyEff.fault | with_reducible exact SteadyEff.priv | with_reducible exact SteadyEff.sys
    | with_reducible apply steadyEff_ite

theorem execFrm_steady (w : Who) (d : Reg) (sel : BitVec 18) (s : State) (hst : Steady tb qu s) :
    SteadyOut tb qu (execFrm w d sel s) := by
  unfold execFrm
  repeat' first
    | with_reducible assumption | intro _ | with_reducible apply issueLanes_steady
    | with_reducible apply setPair_steady | with_reducible apply steady_ite | with_reducible apply steadyOut_next
    | with_reducible apply SteadyEff.done

theorem execTadd_steady (w : Who) (d a b : Reg) (s : State) (hst : Steady tb qu s) :
    SteadyOut tb qu (execTadd w d a b s) := by
  unfold execTadd
  repeat' first
    | with_reducible assumption | intro _ | with_reducible apply issueCpu_steady

theorem execTaddp_steady (w : Who) (d a b : Reg) (s : State) (hst : Steady tb qu s) :
    SteadyOut tb qu (execTaddp w d a b s) := by
  unfold execTaddp
  repeat' first
    | with_reducible assumption | intro _ | with_reducible apply issueCpu_steady

theorem execTsub_steady (w : Who) (d a b : Reg) (s : State) (hst : Steady tb qu s) :
    SteadyOut tb qu (execTsub w d a b s) := by
  unfold execTsub
  repeat' first
    | with_reducible assumption | intro _ | with_reducible apply issueCpu_steady

theorem execTcmp_steady (w : Who) (a b : Reg) (s : State) (hst : Steady tb qu s) :
    SteadyOut tb qu (execTcmp w a b s) := by
  unfold execTcmp
  repeat' first
    | with_reducible assumption | intro _ | with_reducible apply issueCpu_steady

theorem execTdue_steady (w : Who) (a : Reg) (s : State) (hst : Steady tb qu s) :
    SteadyOut tb qu (execTdue w a s) := by
  unfold execTdue
  repeat' first
    | with_reducible assumption | intro _ | with_reducible apply issueLanes_steady | with_reducible apply steady_ite
    | with_reducible apply steadyOut_next | with_reducible apply SteadyEff.done

theorem execTdiff_steady (w : Who) (d a b : Reg) (s : State) (hst : Steady tb qu s) :
    SteadyOut tb qu (execTdiff w d a b s) := by
  unfold execTdiff
  repeat' first
    | with_reducible assumption | intro _ | with_reducible apply issueCpu_steady

theorem execTtos_steady (w : Who) (d a b : Reg) (s : State) (hst : Steady tb qu s) :
    SteadyOut tb qu (execTtos w d a b s) := by
  unfold execTtos
  repeat' first
    | with_reducible assumption | intro _ | with_reducible apply issueCpu_steady

theorem execTqs_steady (w : Who) (d a : Reg) (s : State) (hst : Steady tb qu s) :
    SteadyOut tb qu (execTqs w d a s) := by
  unfold execTqs
  repeat' first
    | with_reducible assumption | intro _ | with_reducible apply issueCpu_steady

theorem execTms_steady (w : Who) (d a : Reg) (s : State) (hst : Steady tb qu s) :
    SteadyOut tb qu (execTms w d a s) := by
  unfold execTms
  repeat' first
    | with_reducible assumption | intro _ | with_reducible apply issueCpu_steady

theorem markFull_steady (s : State) (l : LaneId) (hst : Steady tb qu s) :
    Steady tb qu (State.markFull s l) := by
  unfold State.markFull
  repeat' first
    | with_reducible assumption | intro _ | with_reducible apply modLane_steady

theorem regAccess_steady (l : LaneId) (t : ThreadId) (write : Bool) (addr : Word) (ct : Tag) (b : TxnBody) (s : State) (c : Cpu) (hst : Steady tb qu s) :
    SteadyEff tb qu (regAccess l t write addr ct b s c) := by
  unfold regAccess
  repeat' first
    | with_reducible assumption | intro _ | with_reducible apply markFull_steady | with_reducible apply modLane_steady
    | with_reducible apply steady_ite | with_reducible apply steadyOut_next | with_reducible apply SteadyEff.done
    | with_reducible apply SteadyEff.jump | with_reducible apply SteadyEff.turn | with_reducible apply SteadyEff.warn
    | with_reducible exact SteadyEff.stop | with_reducible exact SteadyEff.fault | with_reducible exact SteadyEff.priv
    | with_reducible exact SteadyEff.sys | with_reducible apply steadyEff_ite | split | dsimp only | assumption

theorem execRegr_steady (w : Who) (a : Reg) (imm : BitVec 18) (s : State) (hst : Steady tb qu s) :
    SteadyOut tb qu (execRegr w a imm s) := by
  unfold execRegr
  repeat' first
    | with_reducible assumption | intro _ | with_reducible apply issueLanes_steady
    | with_reducible apply regAccess_steady | with_reducible apply steady_ite | with_reducible apply steadyOut_next

theorem execRegw_steady (w : Who) (a b : Reg) (s : State) (hst : Steady tb qu s) :
    SteadyOut tb qu (execRegw w a b s) := by
  unfold execRegw
  repeat' first
    | with_reducible assumption | intro _ | with_reducible apply issueLanes_steady
    | with_reducible apply regAccess_steady | with_reducible apply steady_ite | with_reducible apply steadyOut_next

theorem postTxn_keep (ln : LaneSt) (t : ThreadId) (p : Stamp × TxnBody) : (ln.postTxn t p).keep = ln.keep := by
  unfold LaneSt.postTxn
  repeat' (first | split | dsimp only)
  all_goals rfl

theorem postTxns_keep (ps : List (Stamp × TxnBody)) (ln : LaneSt) (t : ThreadId) :
    (ps.foldl (fun ln p => ln.postTxn t p) ln).keep = ln.keep := by
  induction ps generalizing ln with
  | nil => rfl
  | cons p ps ih => rw [List.foldl_cons, ih, postTxn_keep]

theorem applyFx_steady (l : LaneId) (t : ThreadId) (s : State) (fx : Fx) (hst : Steady tb qu s) :
    SteadyEff tb qu (applyFx l t s fx) := by
  unfold applyFx
  refine steadyEff_ite .fault (steadyEff_ite (.done (markFull_steady _ _ hst)) ?_)
  refine .done (modLane_steady l (steady_foldl _ hst fun s p h => keepPut_steady _ _ _ _ h) fun ln h => ?_)
  rw [postTxns_keep]; exact h

theorem alarmInstr_steady (w : Who) (slots : Nat) (legal : Bool) (body : LaneId → ThreadId → State → Cpu → Eff)
    (s : State) (hst : Steady tb qu s) (hb : ∀ l t s c, Steady tb qu s → SteadyEff tb qu (body l t s c)) :
    SteadyOut tb qu (alarmInstr w slots legal body s) := steadyOut_next (issueLanes_steady _ _ _ _ _ _ hst hb)

theorem execLimh_steady (w : Who) (d a b : Reg) (s : State) (hst : Steady tb qu s) :
    SteadyOut tb qu (execLimh w d a b s) := by
  unfold execLimh
  repeat' first
    | with_reducible assumption | intro _ | with_reducible apply alarmInstr_steady | with_reducible apply steady_ite
    | with_reducible apply steadyOut_next | with_reducible apply SteadyEff.done

theorem execLiml_steady (w : Who) (d a b : Reg) (s : State) (hst : Steady tb qu s) :
    SteadyOut tb qu (execLiml w d a b s) := by
  unfold execLiml
  repeat' first
    | with_reducible assumption | intro _ | with_reducible apply alarmInstr_steady | with_reducible apply steady_ite
    | with_reducible apply steadyOut_next | with_reducible apply SteadyEff.done

theorem delay_steady (on off : Bool) (d a b : Reg) (l : LaneId) (t : ThreadId) (s : State) (c : Cpu) (hst : Steady tb qu s) :
    SteadyEff tb qu (delay on off d a b l t s c) := by
  unfold delay
  repeat' first
    | with_reducible assumption | intro _ | with_reducible apply setPair_steady | with_reducible apply applyFx_steady
    | with_reducible apply steady_ite | with_reducible apply steadyOut_next | with_reducible apply SteadyEff.done
    | with_reducible apply SteadyEff.jump | with_reducible apply SteadyEff.turn | with_reducible apply SteadyEff.warn
    | with_reducible exact SteadyEff.stop | with_reducible exact SteadyEff.fault | with_reducible exact SteadyEff.priv
    | with_reducible exact SteadyEff.sys | with_reducible apply steadyEff_ite

theorem execDlyon_steady (w : Who) (d a b : Reg) (s : State) (hst : Steady tb qu s) :
    SteadyOut tb qu (execDlyon w d a b s) := by
  unfold execDlyon
  repeat' first
    | with_reducible assumption | intro _ | with_reducible apply alarmInstr_steady
    | with_reducible apply delay_steady

theorem execDlyoff_steady (w : Who) (d a b : Reg) (s : State) (hst : Steady tb qu s) :
    SteadyOut tb qu (execDlyoff w d a b s) := by
  unfold execDlyoff
  repeat' first
    | with_reducible assumption | intro _ | with_reducible apply alarmInstr_steady
    | with_reducible apply delay_steady

theorem execDly_steady (w : Who) (d a b : Reg) (s : State) (hst : Steady tb qu s) :
    SteadyOut tb qu (execDly w d a b s) := by
  unfold execDly
  repeat' first
    | with_reducible assumption | intro _ | with_reducible apply alarmInstr_steady
    | with_reducible apply delay_steady

theorem almEff_steady (d a b : Reg) (l : LaneId) (t : ThreadId) (s : State) (c : Cpu) (hst : Steady tb qu s) :
    SteadyEff tb qu (almEff d a b l t s c) := by
  unfold almEff
  repeat' first
    | with_reducible assumption | intro _ | with_reducible apply applyFx_steady | with_reducible apply steady_ite
    | (simp only [steady_mk, steady_mkCore]) | with_reducible apply steadyOut_next
    | with_reducible apply SteadyEff.done | with_reducible apply SteadyEff.jump | with_reducible apply SteadyEff.turn
    | with_reducible apply SteadyEff.warn | with_reducible exact SteadyEff.stop | with_reducible exact SteadyEff.fault
    | with_reducible exact SteadyEff.priv | with_reducible exact SteadyEff.sys | with_reducible apply steadyEff_ite
    | split

theorem execAlm_steady (w : Who) (d a b : Reg) (s : State) (hst : Steady tb qu s) :
    SteadyOut tb qu (execAlm w d a b s) := by
  unfold execAlm
  repeat' first
    | with_reducible assumption | intro _ | with_reducible apply alarmInstr_steady
    | with_reducible apply almEff_steady

theorem ackEff_steady (d a b : Reg) (l : LaneId) (t : ThreadId) (s : State) (c : Cpu) (hst : Steady tb qu s) :
    SteadyEff tb qu (ackEff d a b l t s c) := by
  unfold ackEff
  repeat' first
    | with_reducible assumption | intro _ | with_reducible apply applyFx_steady | with_reducible apply steady_ite
    | (simp only [steady_mk, steady_mkCore]) | with_reducible apply steadyOut_next
    | with_reducible apply SteadyEff.done | with_reducible apply SteadyEff.jump | with_reducible apply SteadyEff.turn
    | with_reducible apply SteadyEff.warn | with_reducible exact SteadyEff.stop | with_reducible exact SteadyEff.fault
    | with_reducible exact SteadyEff.priv | with_reducible exact SteadyEff.sys | with_reducible apply steadyEff_ite
    | split

theorem execAck_steady (w : Who) (d a b : Reg) (s : State) (hst : Steady tb qu s) :
    SteadyOut tb qu (execAck w d a b s) := by
  unfold execAck
  repeat' first
    | with_reducible assumption | intro _ | with_reducible apply alarmInstr_steady
    | with_reducible apply ackEff_steady

theorem gsupEff_steady (d a b : Reg) (l : LaneId) (t : ThreadId) (s : State) (c : Cpu) (hst : Steady tb qu s) :
    SteadyEff tb qu (gsupEff d a b l t s c) := by
  unfold gsupEff
  repeat' first
    | with_reducible assumption | intro _ | with_reducible apply applyFx_steady | with_reducible apply steady_ite
    | (simp only [steady_mk, steady_mkCore]) | with_reducible apply steadyOut_next
    | with_reducible apply SteadyEff.done | with_reducible apply SteadyEff.jump | with_reducible apply SteadyEff.turn
    | with_reducible apply SteadyEff.warn | with_reducible exact SteadyEff.stop | with_reducible exact SteadyEff.fault
    | with_reducible exact SteadyEff.priv | with_reducible exact SteadyEff.sys | with_reducible apply steadyEff_ite
    | split

theorem execGsup_steady (w : Who) (d a b : Reg) (s : State) (hst : Steady tb qu s) :
    SteadyOut tb qu (execGsup w d a b s) := by
  unfold execGsup
  repeat' first
    | with_reducible assumption | intro _ | with_reducible apply alarmInstr_steady
    | with_reducible apply gsupEff_steady

theorem fupGroup_steady (d : Reg) (a ab g gb : Nat) (l : LaneId) (t : ThreadId) (s : State) (c : Cpu) (hst : Steady tb qu s) :
    SteadyEff tb qu (fupGroup d a ab g gb l t s c) := by
  unfold fupGroup
  repeat' first
    | with_reducible assumption | intro _ | with_reducible apply applyFx_steady | with_reducible apply steady_ite
    | (simp only [steady_mk, steady_mkCore]) | with_reducible apply steadyOut_next
    | with_reducible apply SteadyEff.done | with_reducible apply SteadyEff.jump | with_reducible apply SteadyEff.turn
    | with_reducible apply SteadyEff.warn | with_reducible exact SteadyEff.stop | with_reducible exact SteadyEff.fault
    | with_reducible exact SteadyEff.priv | with_reducible exact SteadyEff.sys | with_reducible apply steadyEff_ite
    | split

theorem fupEff_steady (d a : Reg) (l : LaneId) (t : ThreadId) (s : State) (c : Cpu) (hst : Steady tb qu s) :
    SteadyEff tb qu (fupEff d a l t s c) := by
  unfold fupEff
  repeat' first
    | with_reducible assumption | intro _ | with_reducible apply fupGroup_steady | with_reducible apply steady_ite
    | (simp only [steady_mk, steady_mkCore]) | with_reducible apply steadyOut_next
    | with_reducible apply SteadyEff.done | with_reducible apply SteadyEff.jump | with_reducible apply SteadyEff.turn
    | with_reducible apply SteadyEff.warn | with_reducible exact SteadyEff.stop | with_reducible exact SteadyEff.fault
    | with_reducible exact SteadyEff.priv | with_reducible exact SteadyEff.sys | with_reducible apply steadyEff_ite
    | split

theorem execFup_steady (w : Who) (d a : Reg) (s : State) (hst : Steady tb qu s) :
    SteadyOut tb qu (execFup w d a s) := by
  unfold execFup
  repeat' first
    | with_reducible assumption | intro _ | with_reducible apply alarmInstr_steady
    | with_reducible apply fupEff_steady

theorem runhEff_steady (d a b : Reg) (l : LaneId) (t : ThreadId) (s : State) (c : Cpu) (hst : Steady tb qu s) :
    SteadyEff tb qu (runhEff d a b l t s c) := by
  unfold runhEff
  repeat' first
    | with_reducible assumption | intro _ | with_reducible apply applyFx_steady | with_reducible apply steady_ite
    | with_reducible apply steadyOut_next | with_reducible apply SteadyEff.done | with_reducible apply SteadyEff.jump
    | with_reducible apply SteadyEff.turn | with_reducible apply SteadyEff.warn | with_reducible exact SteadyEff.stop
    | with_reducible exact SteadyEff.fault | with_reducible exact SteadyEff.priv | with_reducible exact SteadyEff.sys
    | with_reducible apply steadyEff_ite

theorem execRunh_steady (w : Who) (d a b : Reg) (s : State) (hst : Steady tb qu s) :
    SteadyOut tb qu (execRunh w d a b s) := by
  unfold execRunh
  repeat' first
    | with_reducible assumption | intro _ | with_reducible apply alarmInstr_steady
    | with_reducible apply runhEff_steady

theorem strtEff_steady (d a b : Reg) (l : LaneId) (t : ThreadId) (s : State) (c : Cpu) (hst : Steady tb qu s) :
    SteadyEff tb qu (strtEff d a b l t s c) := by
  unfold strtEff
  repeat' first
    | with_reducible assumption | intro _ | with_reducible apply applyFx_steady | with_reducible apply steady_ite
    | with_reducible apply steadyOut_next | with_reducible apply SteadyEff.done | with_reducible apply SteadyEff.jump
    | with_reducible apply SteadyEff.turn | with_reducible apply SteadyEff.warn | with_reducible exact SteadyEff.stop
    | with_reducible exact SteadyEff.fault | with_reducible exact SteadyEff.priv | with_reducible exact SteadyEff.sys
    | with_reducible apply steadyEff_ite

theorem execStrt_steady (w : Who) (d a b : Reg) (s : State) (hst : Steady tb qu s) :
    SteadyOut tb qu (execStrt w d a b s) := by
  unfold execStrt
  repeat' first
    | with_reducible assumption | intro _ | with_reducible apply alarmInstr_steady
    | with_reducible apply strtEff_steady

theorem zoneInstr_steady (a : Reg) (t : ThreadId) (s : State) (c : Cpu) (body : Nat → Nat → Eff)
    (hb : ∀ n m, SteadyEff tb qu (body n m)) : SteadyEff tb qu (zoneInstr a t s c body) := by
  unfold zoneInstr
  repeat' first | (exact hb _ _) | (exact .fault) | split | dsimp only

theorem callEff_steady (d a b : Reg) (l : LaneId) (t : ThreadId) (s : State) (c : Cpu) (hst : Steady tb qu s) :
    SteadyEff tb qu (callEff d a b l t s c) := by
  unfold callEff
  repeat' first
    | with_reducible assumption | intro _ | with_reducible apply zoneInstr_steady
    | with_reducible apply applyFx_steady | with_reducible apply steady_ite | with_reducible apply steadyOut_next
    | with_reducible apply SteadyEff.done | with_reducible apply SteadyEff.jump | with_reducible apply SteadyEff.turn
    | with_reducible apply SteadyEff.warn | with_reducible exact SteadyEff.stop | with_reducible exact SteadyEff.fault
    | with_reducible exact SteadyEff.priv | with_reducible exact SteadyEff.sys | with_reducible apply steadyEff_ite

theorem execCall_steady (w : Who) (d a b : Reg) (s : State) (hst : Steady tb qu s) :
    SteadyOut tb qu (execCall w d a b s) := by
  unfold execCall
  repeat' first
    | with_reducible assumption | intro _ | with_reducible apply alarmInstr_steady
    | with_reducible apply callEff_steady

theorem escEff_steady (d a : Reg) (l : LaneId) (t : ThreadId) (s : State) (c : Cpu) (hst : Steady tb qu s) :
    SteadyEff tb qu (escEff d a l t s c) := by
  unfold escEff
  repeat' first
    | with_reducible assumption | intro _ | with_reducible apply zoneInstr_steady
    | with_reducible apply applyFx_steady | with_reducible apply steady_ite | with_reducible apply steadyOut_next
    | with_reducible apply SteadyEff.done | with_reducible apply SteadyEff.jump | with_reducible apply SteadyEff.turn
    | with_reducible apply SteadyEff.warn | with_reducible exact SteadyEff.stop | with_reducible exact SteadyEff.fault
    | with_reducible exact SteadyEff.priv | with_reducible exact SteadyEff.sys | with_reducible apply steadyEff_ite

theorem execEsc_steady (w : Who) (d a : Reg) (s : State) (hst : Steady tb qu s) :
    SteadyOut tb qu (execEsc w d a s) := by
  unfold execEsc
  repeat' first
    | with_reducible assumption | intro _ | with_reducible apply alarmInstr_steady
    | with_reducible apply escEff_steady

theorem endCall_steady (d a : Reg) (org eng : Nat) (ct : Tag) (l : LaneId) (t : ThreadId) (s : State) (c : Cpu) (hst : Steady tb qu s) :
    SteadyEff tb qu (endCall d a org eng ct l t s c) := by
  unfold endCall
  repeat' first
    | with_reducible assumption | intro _ | with_reducible apply zoneInstr_steady
    | with_reducible apply applyFx_steady | with_reducible apply steady_ite | with_reducible apply steadyOut_next
    | with_reducible apply SteadyEff.done | with_reducible apply SteadyEff.jump | with_reducible apply SteadyEff.turn
    | with_reducible apply SteadyEff.warn | with_reducible exact SteadyEff.stop | with_reducible exact SteadyEff.fault
    | with_reducible exact SteadyEff.priv | with_reducible exact SteadyEff.sys | with_reducible apply steadyEff_ite

theorem execCans_steady (w : Who) (d a b : Reg) (s : State) (hst : Steady tb qu s) :
    SteadyOut tb qu (execCans w d a b s) := by
  unfold execCans
  repeat' first
    | with_reducible assumption | intro _ | with_reducible apply alarmInstr_steady
    | with_reducible apply endCall_steady

theorem execCend_steady (w : Who) (d a : Reg) (s : State) (hst : Steady tb qu s) :
    SteadyOut tb qu (execCend w d a s) := by
  unfold execCend
  repeat' first
    | with_reducible assumption | intro _ | with_reducible apply alarmInstr_steady
    | with_reducible apply endCall_steady

theorem postOne_steady (d a b : Reg) (l : LaneId) (t : ThreadId) (s : State) (c : Cpu) (body : TxnBody) (hst : Steady tb qu s) :
    SteadyEff tb qu (postOne d a b l t s c body) := by
  unfold postOne
  repeat' first
    | with_reducible assumption | intro _ | with_reducible apply applyFx_steady

theorem execOutc_steady (w : Who) (d a b : Reg) (s : State) (hst : Steady tb qu s) :
    SteadyOut tb qu (execOutc w d a b s) := by
  unfold execOutc
  repeat' first
    | with_reducible assumption | intro _ | with_reducible apply alarmInstr_steady
    | with_reducible apply postOne_steady | with_reducible apply steady_ite | with_reducible apply steadyOut_next
    | with_reducible apply SteadyEff.done | with_reducible apply SteadyEff.jump | with_reducible apply SteadyEff.turn
    | with_reducible apply SteadyEff.warn | with_reducible exact SteadyEff.stop | with_reducible exact SteadyEff.fault
    | with_reducible exact SteadyEff.priv | with_reducible exact SteadyEff.sys | with_reducible apply steadyEff_ite

theorem execPnlt_steady (w : Who) (d a b : Reg) (s : State) (hst : Steady tb qu s) :
    SteadyOut tb qu (execPnlt w d a b s) := by
  unfold execPnlt
  repeat' first
    | with_reducible assumption | intro _ | with_reducible apply alarmInstr_steady
    | with_reducible apply postOne_steady | with_reducible apply steady_ite | with_reducible apply steadyOut_next
    | with_reducible apply SteadyEff.done | with_reducible apply SteadyEff.jump | with_reducible apply SteadyEff.turn
    | with_reducible apply SteadyEff.warn | with_reducible exact SteadyEff.stop | with_reducible exact SteadyEff.fault
    | with_reducible exact SteadyEff.priv | with_reducible exact SteadyEff.sys | with_reducible apply steadyEff_ite

theorem execSnxpt_steady (w : Who) (d a b : Reg) (s : State) (hst : Steady tb qu s) :
    SteadyOut tb qu (execSnxpt w d a b s) := by
  unfold execSnxpt
  repeat' first
    | with_reducible assumption | intro _ | with_reducible apply alarmInstr_steady
    | with_reducible apply postOne_steady | with_reducible apply steady_ite | with_reducible apply steadyOut_next
    | with_reducible apply SteadyEff.done | with_reducible apply SteadyEff.jump | with_reducible apply SteadyEff.turn
    | with_reducible apply SteadyEff.warn | with_reducible exact SteadyEff.stop | with_reducible exact SteadyEff.fault
    | with_reducible exact SteadyEff.priv | with_reducible exact SteadyEff.sys | with_reducible apply steadyEff_ite

theorem execSnxae_steady (w : Who) (d a b : Reg) (s : State) (hst : Steady tb qu s) :
    SteadyOut tb qu (execSnxae w d a b s) := by
  unfold execSnxae
  repeat' first
    | with_reducible assumption | intro _ | with_reducible apply alarmInstr_steady
    | with_reducible apply postOne_steady | with_reducible apply steady_ite | (simp only [steady_mk, steady_mkCore])
    | with_reducible apply steadyOut_next | with_reducible apply SteadyEff.done | with_reducible apply SteadyEff.jump
    | with_reducible apply SteadyEff.turn | with_reducible apply SteadyEff.warn | with_reducible exact SteadyEff.stop
    | with_reducible exact SteadyEff.fault | with_reducible exact SteadyEff.priv | with_reducible exact SteadyEff.sys
    | with_reducible apply steadyEff_ite | split

theorem execSnxm_steady (w : Who) (d a b : Reg) (s : State) (hst : Steady tb qu s) :
    SteadyOut tb qu (execSnxm w d a b s) := by
  unfold execSnxm
  repeat' first
    | with_reducible assumption | intro _ | with_reducible apply alarmInstr_steady
    | with_reducible apply postOne_steady | with_reducible apply steady_ite | with_reducible apply steadyOut_next
    | with_reducible apply SteadyEff.done | with_reducible apply SteadyEff.jump | with_reducible apply SteadyEff.turn
    | with_reducible apply SteadyEff.warn | with_reducible exact SteadyEff.stop | with_reducible exact SteadyEff.fault
    | with_reducible exact SteadyEff.priv | with_reducible exact SteadyEff.sys | with_reducible apply steadyEff_ite

theorem groupMark_steady (l : LaneId) (t : ThreadId) (s : State) (c : Cpu) (acts : Bool) (g : Option OpenGroup) (b : TxnBody) (hst : Steady tb qu s) :
    SteadyEff tb qu (groupMark l t s c acts g b) := by
  unfold groupMark
  repeat' first
    | with_reducible assumption | intro _ | with_reducible apply markFull_steady | with_reducible apply modLane_steady
    | with_reducible apply steady_ite | with_reducible apply steadyOut_next | with_reducible apply SteadyEff.done
    | with_reducible apply SteadyEff.jump | with_reducible apply SteadyEff.turn | with_reducible apply SteadyEff.warn
    | with_reducible exact SteadyEff.stop | with_reducible exact SteadyEff.fault | with_reducible exact SteadyEff.priv
    | with_reducible exact SteadyEff.sys | with_reducible apply steadyEff_ite
    | (simp only [LaneSt.putThread, dropGroup_keep]; assumption)

theorem execKopen_steady (w : Who) (s : State) (hst : Steady tb qu s) :
    SteadyOut tb qu (execKopen w s) := by
  unfold execKopen
  repeat' first
    | with_reducible assumption | intro _ | with_reducible apply alarmInstr_steady
    | with_reducible apply groupMark_steady

theorem execKclose_steady (w : Who) (s : State) (hst : Steady tb qu s) :
    SteadyOut tb qu (execKclose w s) := by
  unfold execKclose
  repeat' first
    | with_reducible assumption | intro _ | with_reducible apply alarmInstr_steady
    | with_reducible apply groupMark_steady

theorem execKrec_steady (w : Who) (d a b : Reg) (s : State) (hst : Steady tb qu s) :
    SteadyOut tb qu (execKrec w d a b s) := by
  unfold execKrec
  repeat' first
    | with_reducible assumption | intro _ | with_reducible apply alarmInstr_steady
    | with_reducible apply applyFx_steady | with_reducible apply steady_ite | with_reducible apply steadyOut_next
    | with_reducible apply SteadyEff.done | with_reducible apply SteadyEff.jump | with_reducible apply SteadyEff.turn
    | with_reducible apply SteadyEff.warn | with_reducible exact SteadyEff.stop | with_reducible exact SteadyEff.fault
    | with_reducible exact SteadyEff.priv | with_reducible exact SteadyEff.sys | with_reducible apply steadyEff_ite

theorem execAdd_steady (w : Who) (d a b : Reg) (s : State) (hst : Steady tb qu s) :
    SteadyOut tb qu (execAdd w d a b s) := by
  unfold execAdd
  repeat' first
    | with_reducible assumption | intro _ | with_reducible apply issueCpu_steady

theorem execSub_steady (w : Who) (d a b : Reg) (s : State) (hst : Steady tb qu s) :
    SteadyOut tb qu (execSub w d a b s) := by
  unfold execSub
  repeat' first
    | with_reducible assumption | intro _ | with_reducible apply issueCpu_steady

theorem execAddu_steady (w : Who) (d a b : Reg) (s : State) (hst : Steady tb qu s) :
    SteadyOut tb qu (execAddu w d a b s) := by
  unfold execAddu
  repeat' first
    | with_reducible assumption | intro _ | with_reducible apply issueCpu_steady

theorem execSubu_steady (w : Who) (d a b : Reg) (s : State) (hst : Steady tb qu s) :
    SteadyOut tb qu (execSubu w d a b s) := by
  unfold execSubu
  repeat' first
    | with_reducible assumption | intro _ | with_reducible apply issueCpu_steady

theorem execAddw_steady (w : Who) (d a b : Reg) (s : State) (hst : Steady tb qu s) :
    SteadyOut tb qu (execAddw w d a b s) := by
  unfold execAddw
  repeat' first
    | with_reducible assumption | intro _ | with_reducible apply issueCpu_steady

theorem execSubw_steady (w : Who) (d a b : Reg) (s : State) (hst : Steady tb qu s) :
    SteadyOut tb qu (execSubw w d a b s) := by
  unfold execSubw
  repeat' first
    | with_reducible assumption | intro _ | with_reducible apply issueCpu_steady

theorem execAnd_steady (w : Who) (d a b : Reg) (s : State) (hst : Steady tb qu s) :
    SteadyOut tb qu (execAnd w d a b s) := by
  unfold execAnd
  repeat' first
    | with_reducible assumption | intro _ | with_reducible apply issueCpu_steady

theorem execOr_steady (w : Who) (d a b : Reg) (s : State) (hst : Steady tb qu s) :
    SteadyOut tb qu (execOr w d a b s) := by
  unfold execOr
  repeat' first
    | with_reducible assumption | intro _ | with_reducible apply issueCpu_steady

theorem execXor_steady (w : Who) (d a b : Reg) (s : State) (hst : Steady tb qu s) :
    SteadyOut tb qu (execXor w d a b s) := by
  unfold execXor
  repeat' first
    | with_reducible assumption | intro _ | with_reducible apply issueCpu_steady

theorem execShl_steady (w : Who) (d a b : Reg) (s : State) (hst : Steady tb qu s) :
    SteadyOut tb qu (execShl w d a b s) := by
  unfold execShl
  repeat' first
    | with_reducible assumption | intro _ | with_reducible apply issueCpu_steady

theorem execShr_steady (w : Who) (d a b : Reg) (s : State) (hst : Steady tb qu s) :
    SteadyOut tb qu (execShr w d a b s) := by
  unfold execShr
  repeat' first
    | with_reducible assumption | intro _ | with_reducible apply issueCpu_steady

theorem execSar_steady (w : Who) (d a b : Reg) (s : State) (hst : Steady tb qu s) :
    SteadyOut tb qu (execSar w d a b s) := by
  unfold execSar
  repeat' first
    | with_reducible assumption | intro _ | with_reducible apply issueCpu_steady

theorem execMin_steady (w : Who) (d a b : Reg) (s : State) (hst : Steady tb qu s) :
    SteadyOut tb qu (execMin w d a b s) := by
  unfold execMin
  repeat' first
    | with_reducible assumption | intro _ | with_reducible apply issueCpu_steady

theorem execMax_steady (w : Who) (d a b : Reg) (s : State) (hst : Steady tb qu s) :
    SteadyOut tb qu (execMax w d a b s) := by
  unfold execMax
  repeat' first
    | with_reducible assumption | intro _ | with_reducible apply issueCpu_steady

theorem execMinu_steady (w : Who) (d a b : Reg) (s : State) (hst : Steady tb qu s) :
    SteadyOut tb qu (execMinu w d a b s) := by
  unfold execMinu
  repeat' first
    | with_reducible assumption | intro _ | with_reducible apply issueCpu_steady

theorem execMaxu_steady (w : Who) (d a b : Reg) (s : State) (hst : Steady tb qu s) :
    SteadyOut tb qu (execMaxu w d a b s) := by
  unfold execMaxu
  repeat' first
    | with_reducible assumption | intro _ | with_reducible apply issueCpu_steady

theorem execMul_steady (w : Who) (d a b : Reg) (s : State) (hst : Steady tb qu s) :
    SteadyOut tb qu (execMul w d a b s) := by
  unfold execMul
  repeat' first
    | with_reducible assumption | intro _ | with_reducible apply issueCpu_steady

theorem execMulh_steady (w : Who) (d a b : Reg) (s : State) (hst : Steady tb qu s) :
    SteadyOut tb qu (execMulh w d a b s) := by
  unfold execMulh
  repeat' first
    | with_reducible assumption | intro _ | with_reducible apply issueCpu_steady

theorem execMulq_steady (w : Who) (d a b : Reg) (s : State) (hst : Steady tb qu s) :
    SteadyOut tb qu (execMulq w d a b s) := by
  unfold execMulq
  repeat' first
    | with_reducible assumption | intro _ | with_reducible apply issueCpu_steady

theorem execDiv_steady (w : Who) (d a b : Reg) (s : State) (hst : Steady tb qu s) :
    SteadyOut tb qu (execDiv w d a b s) := by
  unfold execDiv
  repeat' first
    | with_reducible assumption | intro _ | with_reducible apply issueCpu_steady

theorem execDivu_steady (w : Who) (d a b : Reg) (s : State) (hst : Steady tb qu s) :
    SteadyOut tb qu (execDivu w d a b s) := by
  unfold execDivu
  repeat' first
    | with_reducible assumption | intro _ | with_reducible apply issueCpu_steady

theorem execRem_steady (w : Who) (d a b : Reg) (s : State) (hst : Steady tb qu s) :
    SteadyOut tb qu (execRem w d a b s) := by
  unfold execRem
  repeat' first
    | with_reducible assumption | intro _ | with_reducible apply issueCpu_steady

theorem execDivq_steady (w : Who) (d a b : Reg) (s : State) (hst : Steady tb qu s) :
    SteadyOut tb qu (execDivq w d a b s) := by
  unfold execDivq
  repeat' first
    | with_reducible assumption | intro _ | with_reducible apply issueCpu_steady

theorem execAbs_steady (w : Who) (d a : Reg) (s : State) (hst : Steady tb qu s) :
    SteadyOut tb qu (execAbs w d a s) := by
  unfold execAbs
  repeat' first
    | with_reducible assumption | intro _ | with_reducible apply issueCpu_steady

theorem execNeg_steady (w : Who) (d a : Reg) (s : State) (hst : Steady tb qu s) :
    SteadyOut tb qu (execNeg w d a s) := by
  unfold execNeg
  repeat' first
    | with_reducible assumption | intro _ | with_reducible apply issueCpu_steady

theorem execQfi_steady (w : Who) (d a : Reg) (s : State) (hst : Steady tb qu s) :
    SteadyOut tb qu (execQfi w d a s) := by
  unfold execQfi
  repeat' first
    | with_reducible assumption | intro _ | with_reducible apply issueCpu_steady

theorem execQti_steady (w : Who) (d a : Reg) (s : State) (hst : Steady tb qu s) :
    SteadyOut tb qu (execQti w d a s) := by
  unfold execQti
  repeat' first
    | with_reducible assumption | intro _ | with_reducible apply issueCpu_steady

theorem execLag_steady (w : Who) (d a b : Reg) (s : State) (hst : Steady tb qu s) :
    SteadyOut tb qu (execLag w d a b s) := by
  unfold execLag
  repeat' first
    | with_reducible assumption | intro _ | with_reducible apply issueCpu_steady

theorem execAddi_steady (w : Who) (d a : Reg) (imm : BitVec 18) (s : State) (hst : Steady tb qu s) :
    SteadyOut tb qu (execAddi w d a imm s) := by
  unfold execAddi
  repeat' first
    | with_reducible assumption | intro _ | with_reducible apply issueCpu_steady

theorem execAddwi_steady (w : Who) (d a : Reg) (imm : BitVec 18) (s : State) (hst : Steady tb qu s) :
    SteadyOut tb qu (execAddwi w d a imm s) := by
  unfold execAddwi
  repeat' first
    | with_reducible assumption | intro _ | with_reducible apply issueCpu_steady

theorem execAndi_steady (w : Who) (d a : Reg) (imm : BitVec 18) (s : State) (hst : Steady tb qu s) :
    SteadyOut tb qu (execAndi w d a imm s) := by
  unfold execAndi
  repeat' first
    | with_reducible assumption | intro _ | with_reducible apply issueCpu_steady

theorem execOri_steady (w : Who) (d a : Reg) (imm : BitVec 18) (s : State) (hst : Steady tb qu s) :
    SteadyOut tb qu (execOri w d a imm s) := by
  unfold execOri
  repeat' first
    | with_reducible assumption | intro _ | with_reducible apply issueCpu_steady

theorem execXori_steady (w : Who) (d a : Reg) (imm : BitVec 18) (s : State) (hst : Steady tb qu s) :
    SteadyOut tb qu (execXori w d a imm s) := by
  unfold execXori
  repeat' first
    | with_reducible assumption | intro _ | with_reducible apply issueCpu_steady

theorem execShli_steady (w : Who) (d a : Reg) (imm : BitVec 18) (s : State) (hst : Steady tb qu s) :
    SteadyOut tb qu (execShli w d a imm s) := by
  unfold execShli
  repeat' first
    | with_reducible assumption | intro _ | with_reducible apply issueCpu_steady

theorem execShri_steady (w : Who) (d a : Reg) (imm : BitVec 18) (s : State) (hst : Steady tb qu s) :
    SteadyOut tb qu (execShri w d a imm s) := by
  unfold execShri
  repeat' first
    | with_reducible assumption | intro _ | with_reducible apply issueCpu_steady

theorem execSari_steady (w : Who) (d a : Reg) (imm : BitVec 18) (s : State) (hst : Steady tb qu s) :
    SteadyOut tb qu (execSari w d a imm s) := by
  unfold execSari
  repeat' first
    | with_reducible assumption | intro _ | with_reducible apply issueCpu_steady

theorem execLui_steady (w : Who) (d : Reg) (imm : BitVec 22) (s : State) (hst : Steady tb qu s) :
    SteadyOut tb qu (execLui w d imm s) := by
  unfold execLui
  repeat' first
    | with_reducible assumption | intro _ | with_reducible apply issueCpu_steady

theorem execCmp_steady (w : Who) (a b : Reg) (s : State) (hst : Steady tb qu s) :
    SteadyOut tb qu (execCmp w a b s) := by
  unfold execCmp
  repeat' first
    | with_reducible assumption | intro _ | with_reducible apply issueCpu_steady

theorem execCmpi_steady (w : Who) (a : Reg) (imm : BitVec 18) (s : State) (hst : Steady tb qu s) :
    SteadyOut tb qu (execCmpi w a imm s) := by
  unfold execCmpi
  repeat' first
    | with_reducible assumption | intro _ | with_reducible apply issueCpu_steady

theorem execTat_steady (w : Who) (a : Reg) (t : BitVec 4) (s : State) (hst : Steady tb qu s) :
    SteadyOut tb qu (execTat w a t s) := by
  unfold execTat
  repeat' first
    | with_reducible assumption | intro _ | with_reducible apply issueCpu_steady

theorem execGtag_steady (w : Who) (d a : Reg) (s : State) (hst : Steady tb qu s) :
    SteadyOut tb qu (execGtag w d a s) := by
  unfold execGtag
  repeat' first
    | with_reducible assumption | intro _ | with_reducible apply issueCpu_steady

theorem execStag_steady (w : Who) (d a : Reg) (t : BitVec 4) (s : State) (hst : Steady tb qu s) :
    SteadyOut tb qu (execStag w d a t s) := by
  unfold execStag
  repeat' first
    | with_reducible assumption | intro _ | with_reducible apply issueCpu_steady

theorem execWtag_steady (w : Who) (d a b : Reg) (s : State) (hst : Steady tb qu s) :
    SteadyOut tb qu (execWtag w d a b s) := by
  unfold execWtag
  repeat' first
    | with_reducible assumption | intro _ | with_reducible apply issueCpu_steady

theorem execWtagi_steady (w : Who) (d a : Reg) (t : BitVec 4) (s : State) (hst : Steady tb qu s) :
    SteadyOut tb qu (execWtagi w d a t s) := by
  unfold execWtagi
  repeat' first
    | with_reducible assumption | intro _ | with_reducible apply issueCpu_steady

theorem execCtag_steady (w : Who) (d a : Reg) (s : State) (hst : Steady tb qu s) :
    SteadyOut tb qu (execCtag w d a s) := by
  unfold execCtag
  repeat' first
    | with_reducible assumption | intro _ | with_reducible apply issueCpu_steady

theorem execSel_steady (w : Who) (d a b : Reg) (cond : BitVec 4) (s : State) (hst : Steady tb qu s) :
    SteadyOut tb qu (execSel w d a b cond s) := by
  unfold execSel
  repeat' first
    | with_reducible assumption | intro _ | with_reducible apply issueCpu_steady

end Sys2Proof.Laws
end

