-- ==== Sys2Proof/Laws/Registers.lean ====
section
/-! SUPPORT. The laws of the register file: a register reads what was written to it last, every other register stays, and
what an event does to a status register. -/

set_option Elab.async false

namespace Sys2Proof.Laws

open Sys2Proof.Machine

variable {s : State} {a c : Nat} {w : Word} {f g : Fld} {n : Nat}

theorem canonical_regs (h : canonical s = true) : swf resetWord s.regs = true := ((canonical_iff s).1 h).1

theorem canonical_setReg (h : canonical s = true) : canonical (s.setReg a w) = true :=
  (setReg_steady a w ⟨h, rfl, .inl rfl⟩).canon

theorem canonical_setFld (h : canonical s = true) : canonical (s.setFld a f n) = true := canonical_setReg h

theorem canonical_setBit {b : Bool} (h : canonical s = true) : canonical (s.setBit a f b) = true := canonical_setFld h

theorem canonical_event (h : canonical s = true) : canonical (s.event a f) = true :=
  canonical_setFld (canonical_setFld h)

/-- A register reads what was written to it last. -/
theorem reg_setReg (h : canonical s = true) : (s.setReg a w).reg a = w := sget_sput_same (canonical_regs h)

/-- A write leaves every other register. -/
@[simp] theorem reg_setReg_ne (h : c ≠ a) : (s.setReg a w).reg c = s.reg c := sget_sput_other h

@[simp] theorem reg_setFld_ne (h : c ≠ a) : (s.setFld a f n).reg c = s.reg c := reg_setReg_ne h

@[simp] theorem reg_setBit_ne {b : Bool} (h : c ≠ a) : (s.setBit a f b).reg c = s.reg c := reg_setReg_ne h

theorem reg_setFld (h : canonical s = true) : (s.setFld a f n).reg a = f.set (s.reg a) n := reg_setReg h

/-- A field reads what was written to it last. -/
theorem fld_setFld (h : canonical s = true) (hf : Fits f) (hn : n < 2 ^ (f.hi + 1 - f.lo)) :
    (s.setFld a f n).fld a f = n := by
  rw [State.fld, reg_setFld h, fld_get_set_of_lt hf hn]

theorem fld_setFld_ne (h : c ≠ a) : (s.setFld a f n).fld c g = s.fld c g := by
  rw [State.fld, reg_setFld_ne h, State.fld]

/-- A write to a field leaves a field that shares no bit with it. -/
theorem fld_setFld_apart (h : canonical s = true) (hf : Fits f) (hg : g.lo ≤ g.hi) (ha : Apart f g) :
    (s.setFld a f n).fld a g = s.fld a g := by
  rw [State.fld, reg_setFld h, fld_get_set_apart hf hg ha, State.fld]

theorem bit_setBit (h : canonical s = true) (hf : Fits f) (b : Bool) : (s.setBit a f b).bit a f = b := by
  have hw : 2 ≤ 2 ^ (f.hi + 1 - f.lo) := by
    calc 2 = 2 ^ 1 := rfl
      _ ≤ _ := Nat.pow_le_pow_right (by norm_num) (by have := hf.1; omega)
  unfold State.bit State.setBit
  cases b
  · rw [if_neg Bool.false_ne_true, fld_setFld h hf (by omega)]; rfl
  · rw [if_pos rfl, fld_setFld h hf (by omega)]; rfl

theorem bit_setBit_apart {b : Bool} (h : canonical s = true) (hf : Fits f) (hg : g.lo ≤ g.hi) (ha : Apart f g) :
    (s.setBit a f b).bit a g = s.bit a g := by
  unfold State.bit State.setBit; rw [fld_setFld_apart h hf hg ha]

/-- A counter that has reached its largest value stays there, and below it counts one (R58). -/
theorem fld_satInc (h : canonical s = true) (hf : Fits f) :
    (s.satInc a f).fld a f = Nat.min (s.fld a f + 1) f.max := by
  refine fld_setFld h hf (lt_of_le_of_lt (Nat.min_le_right _ _) ?_)
  have : 0 < 2 ^ (f.hi + 1 - f.lo) := by positivity
  unfold Fld.max; omega

/-- The flags of a status register: its bits below SEQ (R50). -/
def Flag (f : Fld) : Prop := f.lo ≤ f.hi ∧ f.hi < 24

theorem Flag.fits (h : Flag f) : Fits f := ⟨h.1, by have := h.2; omega⟩

theorem seq_fits : Fits seqFld := ⟨by decide, by decide⟩

theorem Flag.apart (h : Flag f) : Apart f seqFld := .inl (by simpa [seqFld] using h.2)

theorem nextSeq_lt (n : Nat) (h : n < 256) : nextSeq n < 256 := by unfold nextSeq; split <;> omega

theorem seq_lt : s.fld a seqFld < 256 := Nat.mod_lt _ (by decide)

/-- An event sets its flag. -/
theorem event_flag (h : canonical s = true) (hf : Flag f) (h1 : f.hi = f.lo) : (s.event a f).fld a f = 1 :=
  fld_setFld (canonical_setFld h) hf.fits (by rw [h1, Nat.add_sub_cancel_left]; decide)

/-- An event advances SEQ. -/
theorem event_seq (h : canonical s = true) (hf : Flag f) :
    (s.event a f).fld a seqFld = nextSeq (s.fld a seqFld) := by
  unfold State.event
  rw [fld_setFld_apart (canonical_setFld h) hf.fits (by decide) hf.apart,
    fld_setFld h seq_fits (nextSeq_lt _ seq_lt)]

/-- An event leaves the flags it does not name. -/
theorem event_other (h : canonical s = true) (hf : Flag f) (hg : Flag g) (ha : Apart f g) :
    (s.event a f).fld a g = s.fld a g := by
  unfold State.event
  rw [fld_setFld_apart (canonical_setFld h) hf.fits hg.1 ha,
    fld_setFld_apart h seq_fits hg.1 (hg.apart.symm)]

@[simp] theorem reg_event_ne (h : c ≠ a) : (s.event a f).reg c = s.reg c := by
  unfold State.event; rw [reg_setFld_ne h, reg_setFld_ne h]

end Sys2Proof.Laws
end

