-- ==== Sys2Proof/Laws/State.lean ====
section
/-! SUPPORT. What each update of the state leaves: one lemma for each field and each update, and what an update of a block
makes of it. -/

set_option Elab.async false

namespace Sys2Proof.Laws

open Sys2Proof.Machine

variable (s : State)


/-! ## setReg -/

@[simp] theorem setReg_tbc (a : Nat) (w : Word) : (s.setReg a w).tbc = s.tbc := rfl
@[simp] theorem setReg_staged (a : Nat) (w : Word) : (s.setReg a w).staged = s.staged := rfl
@[simp] theorem setReg_locked (a : Nat) (w : Word) : (s.setReg a w).locked = s.locked := rfl
@[simp] theorem setReg_lanes (a : Nat) (w : Word) : (s.setReg a w).lanes = s.lanes := rfl
@[simp] theorem setReg_tcmds (a : Nat) (w : Word) : (s.setReg a w).tcmds = s.tcmds := rfl
@[simp] theorem setReg_image (a : Nat) (w : Word) : (s.setReg a w).image = s.image := rfl
@[simp] theorem setReg_nextImage (a : Nat) (w : Word) : (s.setReg a w).nextImage = s.nextImage := rfl
@[simp] theorem setReg_frame (a : Nat) (w : Word) : (s.setReg a w).frame = s.frame := rfl
@[simp] theorem setReg_tly (a : Nat) (w : Word) : (s.setReg a w).tly = s.tly := rfl
@[simp] theorem setReg_core (a : Nat) (w : Word) : (s.setReg a w).core = s.core := rfl
@[simp] theorem setReg_flt (a : Nat) (w : Word) : (s.setReg a w).flt = s.flt := rfl
@[simp] theorem setReg_field (a : Nat) (w : Word) : (s.setReg a w).field = s.field := rfl
@[simp] theorem setReg_flash (a : Nat) (w : Word) : (s.setReg a w).flash = s.flash := rfl
@[simp] theorem setReg_jnl (a : Nat) (w : Word) : (s.setReg a w).jnl = s.jnl := rfl
@[simp] theorem setReg_evr (a : Nat) (w : Word) : (s.setReg a w).evr = s.evr := rfl
@[simp] theorem setReg_rtc (a : Nat) (w : Word) : (s.setReg a w).rtc = s.rtc := rfl
@[simp] theorem setReg_pnl (a : Nat) (w : Word) : (s.setReg a w).pnl = s.pnl := rfl
@[simp] theorem setReg_upd (a : Nat) (w : Word) : (s.setReg a w).upd = s.upd := rfl
@[simp] theorem setReg_mgs (a : Nat) (w : Word) : (s.setReg a w).mgs = s.mgs := rfl
@[simp] theorem setReg_sup (a : Nat) (w : Word) : (s.setReg a w).sup = s.sup := rfl
@[simp] theorem setReg_hsp (a : Nat) (w : Word) : (s.setReg a w).hsp = s.hsp := rfl
@[simp] theorem setReg_net (a : Nat) (w : Word) : (s.setReg a w).net = s.net := rfl
@[simp] theorem setReg_free (a : Nat) (w : Word) : (s.setReg a w).free = s.free := rfl
@[simp] theorem setReg_pending (a : Nat) (w : Word) : (s.setReg a w).pending = s.pending := rfl

/-! ## setFld -/

@[simp] theorem setFld_tbc (a : Nat) (f : Fld) (n : Nat) : (s.setFld a f n).tbc = s.tbc := rfl
@[simp] theorem setFld_staged (a : Nat) (f : Fld) (n : Nat) : (s.setFld a f n).staged = s.staged := rfl
@[simp] theorem setFld_locked (a : Nat) (f : Fld) (n : Nat) : (s.setFld a f n).locked = s.locked := rfl
@[simp] theorem setFld_lanes (a : Nat) (f : Fld) (n : Nat) : (s.setFld a f n).lanes = s.lanes := rfl
@[simp] theorem setFld_tcmds (a : Nat) (f : Fld) (n : Nat) : (s.setFld a f n).tcmds = s.tcmds := rfl
@[simp] theorem setFld_image (a : Nat) (f : Fld) (n : Nat) : (s.setFld a f n).image = s.image := rfl
@[simp] theorem setFld_nextImage (a : Nat) (f : Fld) (n : Nat) : (s.setFld a f n).nextImage = s.nextImage := rfl
@[simp] theorem setFld_frame (a : Nat) (f : Fld) (n : Nat) : (s.setFld a f n).frame = s.frame := rfl
@[simp] theorem setFld_tly (a : Nat) (f : Fld) (n : Nat) : (s.setFld a f n).tly = s.tly := rfl
@[simp] theorem setFld_core (a : Nat) (f : Fld) (n : Nat) : (s.setFld a f n).core = s.core := rfl
@[simp] theorem setFld_flt (a : Nat) (f : Fld) (n : Nat) : (s.setFld a f n).flt = s.flt := rfl
@[simp] theorem setFld_field (a : Nat) (f : Fld) (n : Nat) : (s.setFld a f n).field = s.field := rfl
@[simp] theorem setFld_flash (a : Nat) (f : Fld) (n : Nat) : (s.setFld a f n).flash = s.flash := rfl
@[simp] theorem setFld_jnl (a : Nat) (f : Fld) (n : Nat) : (s.setFld a f n).jnl = s.jnl := rfl
@[simp] theorem setFld_evr (a : Nat) (f : Fld) (n : Nat) : (s.setFld a f n).evr = s.evr := rfl
@[simp] theorem setFld_rtc (a : Nat) (f : Fld) (n : Nat) : (s.setFld a f n).rtc = s.rtc := rfl
@[simp] theorem setFld_pnl (a : Nat) (f : Fld) (n : Nat) : (s.setFld a f n).pnl = s.pnl := rfl
@[simp] theorem setFld_upd (a : Nat) (f : Fld) (n : Nat) : (s.setFld a f n).upd = s.upd := rfl
@[simp] theorem setFld_mgs (a : Nat) (f : Fld) (n : Nat) : (s.setFld a f n).mgs = s.mgs := rfl
@[simp] theorem setFld_sup (a : Nat) (f : Fld) (n : Nat) : (s.setFld a f n).sup = s.sup := rfl
@[simp] theorem setFld_hsp (a : Nat) (f : Fld) (n : Nat) : (s.setFld a f n).hsp = s.hsp := rfl
@[simp] theorem setFld_net (a : Nat) (f : Fld) (n : Nat) : (s.setFld a f n).net = s.net := rfl
@[simp] theorem setFld_free (a : Nat) (f : Fld) (n : Nat) : (s.setFld a f n).free = s.free := rfl
@[simp] theorem setFld_pending (a : Nat) (f : Fld) (n : Nat) : (s.setFld a f n).pending = s.pending := rfl

/-! ## setBit -/

@[simp] theorem setBit_tbc (a : Nat) (f : Fld) (b : Bool) : (s.setBit a f b).tbc = s.tbc := rfl
@[simp] theorem setBit_staged (a : Nat) (f : Fld) (b : Bool) : (s.setBit a f b).staged = s.staged := rfl
@[simp] theorem setBit_locked (a : Nat) (f : Fld) (b : Bool) : (s.setBit a f b).locked = s.locked := rfl
@[simp] theorem setBit_lanes (a : Nat) (f : Fld) (b : Bool) : (s.setBit a f b).lanes = s.lanes := rfl
@[simp] theorem setBit_tcmds (a : Nat) (f : Fld) (b : Bool) : (s.setBit a f b).tcmds = s.tcmds := rfl
@[simp] theorem setBit_image (a : Nat) (f : Fld) (b : Bool) : (s.setBit a f b).image = s.image := rfl
@[simp] theorem setBit_nextImage (a : Nat) (f : Fld) (b : Bool) : (s.setBit a f b).nextImage = s.nextImage := rfl
@[simp] theorem setBit_frame (a : Nat) (f : Fld) (b : Bool) : (s.setBit a f b).frame = s.frame := rfl
@[simp] theorem setBit_tly (a : Nat) (f : Fld) (b : Bool) : (s.setBit a f b).tly = s.tly := rfl
@[simp] theorem setBit_core (a : Nat) (f : Fld) (b : Bool) : (s.setBit a f b).core = s.core := rfl
@[simp] theorem setBit_flt (a : Nat) (f : Fld) (b : Bool) : (s.setBit a f b).flt = s.flt := rfl
@[simp] theorem setBit_field (a : Nat) (f : Fld) (b : Bool) : (s.setBit a f b).field = s.field := rfl
@[simp] theorem setBit_flash (a : Nat) (f : Fld) (b : Bool) : (s.setBit a f b).flash = s.flash := rfl
@[simp] theorem setBit_jnl (a : Nat) (f : Fld) (b : Bool) : (s.setBit a f b).jnl = s.jnl := rfl
@[simp] theorem setBit_evr (a : Nat) (f : Fld) (b : Bool) : (s.setBit a f b).evr = s.evr := rfl
@[simp] theorem setBit_rtc (a : Nat) (f : Fld) (b : Bool) : (s.setBit a f b).rtc = s.rtc := rfl
@[simp] theorem setBit_pnl (a : Nat) (f : Fld) (b : Bool) : (s.setBit a f b).pnl = s.pnl := rfl
@[simp] theorem setBit_upd (a : Nat) (f : Fld) (b : Bool) : (s.setBit a f b).upd = s.upd := rfl
@[simp] theorem setBit_mgs (a : Nat) (f : Fld) (b : Bool) : (s.setBit a f b).mgs = s.mgs := rfl
@[simp] theorem setBit_sup (a : Nat) (f : Fld) (b : Bool) : (s.setBit a f b).sup = s.sup := rfl
@[simp] theorem setBit_hsp (a : Nat) (f : Fld) (b : Bool) : (s.setBit a f b).hsp = s.hsp := rfl
@[simp] theorem setBit_net (a : Nat) (f : Fld) (b : Bool) : (s.setBit a f b).net = s.net := rfl
@[simp] theorem setBit_free (a : Nat) (f : Fld) (b : Bool) : (s.setBit a f b).free = s.free := rfl
@[simp] theorem setBit_pending (a : Nat) (f : Fld) (b : Bool) : (s.setBit a f b).pending = s.pending := rfl

/-! ## satAdd -/

@[simp] theorem satAdd_tbc (a : Nat) (f : Fld) (n : Nat) : (s.satAdd a f n).tbc = s.tbc := rfl
@[simp] theorem satAdd_staged (a : Nat) (f : Fld) (n : Nat) : (s.satAdd a f n).staged = s.staged := rfl
@[simp] theorem satAdd_locked (a : Nat) (f : Fld) (n : Nat) : (s.satAdd a f n).locked = s.locked := rfl
@[simp] theorem satAdd_lanes (a : Nat) (f : Fld) (n : Nat) : (s.satAdd a f n).lanes = s.lanes := rfl
@[simp] theorem satAdd_tcmds (a : Nat) (f : Fld) (n : Nat) : (s.satAdd a f n).tcmds = s.tcmds := rfl
@[simp] theorem satAdd_image (a : Nat) (f : Fld) (n : Nat) : (s.satAdd a f n).image = s.image := rfl
@[simp] theorem satAdd_nextImage (a : Nat) (f : Fld) (n : Nat) : (s.satAdd a f n).nextImage = s.nextImage := rfl
@[simp] theorem satAdd_frame (a : Nat) (f : Fld) (n : Nat) : (s.satAdd a f n).frame = s.frame := rfl
@[simp] theorem satAdd_tly (a : Nat) (f : Fld) (n : Nat) : (s.satAdd a f n).tly = s.tly := rfl
@[simp] theorem satAdd_core (a : Nat) (f : Fld) (n : Nat) : (s.satAdd a f n).core = s.core := rfl
@[simp] theorem satAdd_flt (a : Nat) (f : Fld) (n : Nat) : (s.satAdd a f n).flt = s.flt := rfl
@[simp] theorem satAdd_field (a : Nat) (f : Fld) (n : Nat) : (s.satAdd a f n).field = s.field := rfl
@[simp] theorem satAdd_flash (a : Nat) (f : Fld) (n : Nat) : (s.satAdd a f n).flash = s.flash := rfl
@[simp] theorem satAdd_jnl (a : Nat) (f : Fld) (n : Nat) : (s.satAdd a f n).jnl = s.jnl := rfl
@[simp] theorem satAdd_evr (a : Nat) (f : Fld) (n : Nat) : (s.satAdd a f n).evr = s.evr := rfl
@[simp] theorem satAdd_rtc (a : Nat) (f : Fld) (n : Nat) : (s.satAdd a f n).rtc = s.rtc := rfl
@[simp] theorem satAdd_pnl (a : Nat) (f : Fld) (n : Nat) : (s.satAdd a f n).pnl = s.pnl := rfl
@[simp] theorem satAdd_upd (a : Nat) (f : Fld) (n : Nat) : (s.satAdd a f n).upd = s.upd := rfl
@[simp] theorem satAdd_mgs (a : Nat) (f : Fld) (n : Nat) : (s.satAdd a f n).mgs = s.mgs := rfl
@[simp] theorem satAdd_sup (a : Nat) (f : Fld) (n : Nat) : (s.satAdd a f n).sup = s.sup := rfl
@[simp] theorem satAdd_hsp (a : Nat) (f : Fld) (n : Nat) : (s.satAdd a f n).hsp = s.hsp := rfl
@[simp] theorem satAdd_net (a : Nat) (f : Fld) (n : Nat) : (s.satAdd a f n).net = s.net := rfl
@[simp] theorem satAdd_free (a : Nat) (f : Fld) (n : Nat) : (s.satAdd a f n).free = s.free := rfl
@[simp] theorem satAdd_pending (a : Nat) (f : Fld) (n : Nat) : (s.satAdd a f n).pending = s.pending := rfl

/-! ## satInc -/

@[simp] theorem satInc_tbc (a : Nat) (f : Fld) : (s.satInc a f).tbc = s.tbc := rfl
@[simp] theorem satInc_staged (a : Nat) (f : Fld) : (s.satInc a f).staged = s.staged := rfl
@[simp] theorem satInc_locked (a : Nat) (f : Fld) : (s.satInc a f).locked = s.locked := rfl
@[simp] theorem satInc_lanes (a : Nat) (f : Fld) : (s.satInc a f).lanes = s.lanes := rfl
@[simp] theorem satInc_tcmds (a : Nat) (f : Fld) : (s.satInc a f).tcmds = s.tcmds := rfl
@[simp] theorem satInc_image (a : Nat) (f : Fld) : (s.satInc a f).image = s.image := rfl
@[simp] theorem satInc_nextImage (a : Nat) (f : Fld) : (s.satInc a f).nextImage = s.nextImage := rfl
@[simp] theorem satInc_frame (a : Nat) (f : Fld) : (s.satInc a f).frame = s.frame := rfl
@[simp] theorem satInc_tly (a : Nat) (f : Fld) : (s.satInc a f).tly = s.tly := rfl
@[simp] theorem satInc_core (a : Nat) (f : Fld) : (s.satInc a f).core = s.core := rfl
@[simp] theorem satInc_flt (a : Nat) (f : Fld) : (s.satInc a f).flt = s.flt := rfl
@[simp] theorem satInc_field (a : Nat) (f : Fld) : (s.satInc a f).field = s.field := rfl
@[simp] theorem satInc_flash (a : Nat) (f : Fld) : (s.satInc a f).flash = s.flash := rfl
@[simp] theorem satInc_jnl (a : Nat) (f : Fld) : (s.satInc a f).jnl = s.jnl := rfl
@[simp] theorem satInc_evr (a : Nat) (f : Fld) : (s.satInc a f).evr = s.evr := rfl
@[simp] theorem satInc_rtc (a : Nat) (f : Fld) : (s.satInc a f).rtc = s.rtc := rfl
@[simp] theorem satInc_pnl (a : Nat) (f : Fld) : (s.satInc a f).pnl = s.pnl := rfl
@[simp] theorem satInc_upd (a : Nat) (f : Fld) : (s.satInc a f).upd = s.upd := rfl
@[simp] theorem satInc_mgs (a : Nat) (f : Fld) : (s.satInc a f).mgs = s.mgs := rfl
@[simp] theorem satInc_sup (a : Nat) (f : Fld) : (s.satInc a f).sup = s.sup := rfl
@[simp] theorem satInc_hsp (a : Nat) (f : Fld) : (s.satInc a f).hsp = s.hsp := rfl
@[simp] theorem satInc_net (a : Nat) (f : Fld) : (s.satInc a f).net = s.net := rfl
@[simp] theorem satInc_free (a : Nat) (f : Fld) : (s.satInc a f).free = s.free := rfl
@[simp] theorem satInc_pending (a : Nat) (f : Fld) : (s.satInc a f).pending = s.pending := rfl

/-! ## inc -/

@[simp] theorem inc_tbc (a : Nat) (f : Fld) : (s.inc a f).tbc = s.tbc := rfl
@[simp] theorem inc_staged (a : Nat) (f : Fld) : (s.inc a f).staged = s.staged := rfl
@[simp] theorem inc_locked (a : Nat) (f : Fld) : (s.inc a f).locked = s.locked := rfl
@[simp] theorem inc_lanes (a : Nat) (f : Fld) : (s.inc a f).lanes = s.lanes := rfl
@[simp] theorem inc_tcmds (a : Nat) (f : Fld) : (s.inc a f).tcmds = s.tcmds := rfl
@[simp] theorem inc_image (a : Nat) (f : Fld) : (s.inc a f).image = s.image := rfl
@[simp] theorem inc_nextImage (a : Nat) (f : Fld) : (s.inc a f).nextImage = s.nextImage := rfl
@[simp] theorem inc_frame (a : Nat) (f : Fld) : (s.inc a f).frame = s.frame := rfl
@[simp] theorem inc_tly (a : Nat) (f : Fld) : (s.inc a f).tly = s.tly := rfl
@[simp] theorem inc_core (a : Nat) (f : Fld) : (s.inc a f).core = s.core := rfl
@[simp] theorem inc_flt (a : Nat) (f : Fld) : (s.inc a f).flt = s.flt := rfl
@[simp] theorem inc_field (a : Nat) (f : Fld) : (s.inc a f).field = s.field := rfl
@[simp] theorem inc_flash (a : Nat) (f : Fld) : (s.inc a f).flash = s.flash := rfl
@[simp] theorem inc_jnl (a : Nat) (f : Fld) : (s.inc a f).jnl = s.jnl := rfl
@[simp] theorem inc_evr (a : Nat) (f : Fld) : (s.inc a f).evr = s.evr := rfl
@[simp] theorem inc_rtc (a : Nat) (f : Fld) : (s.inc a f).rtc = s.rtc := rfl
@[simp] theorem inc_pnl (a : Nat) (f : Fld) : (s.inc a f).pnl = s.pnl := rfl
@[simp] theorem inc_upd (a : Nat) (f : Fld) : (s.inc a f).upd = s.upd := rfl
@[simp] theorem inc_mgs (a : Nat) (f : Fld) : (s.inc a f).mgs = s.mgs := rfl
@[simp] theorem inc_sup (a : Nat) (f : Fld) : (s.inc a f).sup = s.sup := rfl
@[simp] theorem inc_hsp (a : Nat) (f : Fld) : (s.inc a f).hsp = s.hsp := rfl
@[simp] theorem inc_net (a : Nat) (f : Fld) : (s.inc a f).net = s.net := rfl
@[simp] theorem inc_free (a : Nat) (f : Fld) : (s.inc a f).free = s.free := rfl
@[simp] theorem inc_pending (a : Nat) (f : Fld) : (s.inc a f).pending = s.pending := rfl

/-! ## setPair -/

@[simp] theorem setPair_tbc (a n : Nat) : (s.setPair a n).tbc = s.tbc := rfl
@[simp] theorem setPair_staged (a n : Nat) : (s.setPair a n).staged = s.staged := rfl
@[simp] theorem setPair_locked (a n : Nat) : (s.setPair a n).locked = s.locked := rfl
@[simp] theorem setPair_lanes (a n : Nat) : (s.setPair a n).lanes = s.lanes := rfl
@[simp] theorem setPair_tcmds (a n : Nat) : (s.setPair a n).tcmds = s.tcmds := rfl
@[simp] theorem setPair_image (a n : Nat) : (s.setPair a n).image = s.image := rfl
@[simp] theorem setPair_nextImage (a n : Nat) : (s.setPair a n).nextImage = s.nextImage := rfl
@[simp] theorem setPair_frame (a n : Nat) : (s.setPair a n).frame = s.frame := rfl
@[simp] theorem setPair_tly (a n : Nat) : (s.setPair a n).tly = s.tly := rfl
@[simp] theorem setPair_core (a n : Nat) : (s.setPair a n).core = s.core := rfl
@[simp] theorem setPair_flt (a n : Nat) : (s.setPair a n).flt = s.flt := rfl
@[simp] theorem setPair_field (a n : Nat) : (s.setPair a n).field = s.field := rfl
@[simp] theorem setPair_flash (a n : Nat) : (s.setPair a n).flash = s.flash := rfl
@[simp] theorem setPair_jnl (a n : Nat) : (s.setPair a n).jnl = s.jnl := rfl
@[simp] theorem setPair_evr (a n : Nat) : (s.setPair a n).evr = s.evr := rfl
@[simp] theorem setPair_rtc (a n : Nat) : (s.setPair a n).rtc = s.rtc := rfl
@[simp] theorem setPair_pnl (a n : Nat) : (s.setPair a n).pnl = s.pnl := rfl
@[simp] theorem setPair_upd (a n : Nat) : (s.setPair a n).upd = s.upd := rfl
@[simp] theorem setPair_mgs (a n : Nat) : (s.setPair a n).mgs = s.mgs := rfl
@[simp] theorem setPair_sup (a n : Nat) : (s.setPair a n).sup = s.sup := rfl
@[simp] theorem setPair_hsp (a n : Nat) : (s.setPair a n).hsp = s.hsp := rfl
@[simp] theorem setPair_net (a n : Nat) : (s.setPair a n).net = s.net := rfl
@[simp] theorem setPair_free (a n : Nat) : (s.setPair a n).free = s.free := rfl
@[simp] theorem setPair_pending (a n : Nat) : (s.setPair a n).pending = s.pending := rfl

/-! ## event -/

@[simp] theorem event_tbc (a : Nat) (f : Fld) : (s.event a f).tbc = s.tbc := rfl
@[simp] theorem event_staged (a : Nat) (f : Fld) : (s.event a f).staged = s.staged := rfl
@[simp] theorem event_locked (a : Nat) (f : Fld) : (s.event a f).locked = s.locked := rfl
@[simp] theorem event_lanes (a : Nat) (f : Fld) : (s.event a f).lanes = s.lanes := rfl
@[simp] theorem event_tcmds (a : Nat) (f : Fld) : (s.event a f).tcmds = s.tcmds := rfl
@[simp] theorem event_image (a : Nat) (f : Fld) : (s.event a f).image = s.image := rfl
@[simp] theorem event_nextImage (a : Nat) (f : Fld) : (s.event a f).nextImage = s.nextImage := rfl
@[simp] theorem event_frame (a : Nat) (f : Fld) : (s.event a f).frame = s.frame := rfl
@[simp] theorem event_tly (a : Nat) (f : Fld) : (s.event a f).tly = s.tly := rfl
@[simp] theorem event_core (a : Nat) (f : Fld) : (s.event a f).core = s.core := rfl
@[simp] theorem event_flt (a : Nat) (f : Fld) : (s.event a f).flt = s.flt := rfl
@[simp] theorem event_field (a : Nat) (f : Fld) : (s.event a f).field = s.field := rfl
@[simp] theorem event_flash (a : Nat) (f : Fld) : (s.event a f).flash = s.flash := rfl
@[simp] theorem event_jnl (a : Nat) (f : Fld) : (s.event a f).jnl = s.jnl := rfl
@[simp] theorem event_evr (a : Nat) (f : Fld) : (s.event a f).evr = s.evr := rfl
@[simp] theorem event_rtc (a : Nat) (f : Fld) : (s.event a f).rtc = s.rtc := rfl
@[simp] theorem event_pnl (a : Nat) (f : Fld) : (s.event a f).pnl = s.pnl := rfl
@[simp] theorem event_upd (a : Nat) (f : Fld) : (s.event a f).upd = s.upd := rfl
@[simp] theorem event_mgs (a : Nat) (f : Fld) : (s.event a f).mgs = s.mgs := rfl
@[simp] theorem event_sup (a : Nat) (f : Fld) : (s.event a f).sup = s.sup := rfl
@[simp] theorem event_hsp (a : Nat) (f : Fld) : (s.event a f).hsp = s.hsp := rfl
@[simp] theorem event_net (a : Nat) (f : Fld) : (s.event a f).net = s.net := rfl
@[simp] theorem event_free (a : Nat) (f : Fld) : (s.event a f).free = s.free := rfl
@[simp] theorem event_pending (a : Nat) (f : Fld) : (s.event a f).pending = s.pending := rfl

/-! ## raise -/

@[simp] theorem raise_regs (k inst access master : Nat) (addr : Word) (stamp : Stamp) : (s.raise k inst access master addr stamp).regs = s.regs := rfl
@[simp] theorem raise_tbc (k inst access master : Nat) (addr : Word) (stamp : Stamp) : (s.raise k inst access master addr stamp).tbc = s.tbc := rfl
@[simp] theorem raise_staged (k inst access master : Nat) (addr : Word) (stamp : Stamp) : (s.raise k inst access master addr stamp).staged = s.staged := rfl
@[simp] theorem raise_locked (k inst access master : Nat) (addr : Word) (stamp : Stamp) : (s.raise k inst access master addr stamp).locked = s.locked := rfl
@[simp] theorem raise_lanes (k inst access master : Nat) (addr : Word) (stamp : Stamp) : (s.raise k inst access master addr stamp).lanes = s.lanes := rfl
@[simp] theorem raise_tcmds (k inst access master : Nat) (addr : Word) (stamp : Stamp) : (s.raise k inst access master addr stamp).tcmds = s.tcmds := rfl
@[simp] theorem raise_image (k inst access master : Nat) (addr : Word) (stamp : Stamp) : (s.raise k inst access master addr stamp).image = s.image := rfl
@[simp] theorem raise_nextImage (k inst access master : Nat) (addr : Word) (stamp : Stamp) : (s.raise k inst access master addr stamp).nextImage = s.nextImage := rfl
@[simp] theorem raise_frame (k inst access master : Nat) (addr : Word) (stamp : Stamp) : (s.raise k inst access master addr stamp).frame = s.frame := rfl
@[simp] theorem raise_tly (k inst access master : Nat) (addr : Word) (stamp : Stamp) : (s.raise k inst access master addr stamp).tly = s.tly := rfl
@[simp] theorem raise_core (k inst access master : Nat) (addr : Word) (stamp : Stamp) : (s.raise k inst access master addr stamp).core = s.core := rfl
@[simp] theorem raise_field (k inst access master : Nat) (addr : Word) (stamp : Stamp) : (s.raise k inst access master addr stamp).field = s.field := rfl
@[simp] theorem raise_flash (k inst access master : Nat) (addr : Word) (stamp : Stamp) : (s.raise k inst access master addr stamp).flash = s.flash := rfl
@[simp] theorem raise_jnl (k inst access master : Nat) (addr : Word) (stamp : Stamp) : (s.raise k inst access master addr stamp).jnl = s.jnl := rfl
@[simp] theorem raise_evr (k inst access master : Nat) (addr : Word) (stamp : Stamp) : (s.raise k inst access master addr stamp).evr = s.evr := rfl
@[simp] theorem raise_rtc (k inst access master : Nat) (addr : Word) (stamp : Stamp) : (s.raise k inst access master addr stamp).rtc = s.rtc := rfl
@[simp] theorem raise_pnl (k inst access master : Nat) (addr : Word) (stamp : Stamp) : (s.raise k inst access master addr stamp).pnl = s.pnl := rfl
@[simp] theorem raise_upd (k inst access master : Nat) (addr : Word) (stamp : Stamp) : (s.raise k inst access master addr stamp).upd = s.upd := rfl
@[simp] theorem raise_mgs (k inst access master : Nat) (addr : Word) (stamp : Stamp) : (s.raise k inst access master addr stamp).mgs = s.mgs := rfl
@[simp] theorem raise_sup (k inst access master : Nat) (addr : Word) (stamp : Stamp) : (s.raise k inst access master addr stamp).sup = s.sup := rfl
@[simp] theorem raise_hsp (k inst access master : Nat) (addr : Word) (stamp : Stamp) : (s.raise k inst access master addr stamp).hsp = s.hsp := rfl
@[simp] theorem raise_net (k inst access master : Nat) (addr : Word) (stamp : Stamp) : (s.raise k inst access master addr stamp).net = s.net := rfl
@[simp] theorem raise_free (k inst access master : Nat) (addr : Word) (stamp : Stamp) : (s.raise k inst access master addr stamp).free = s.free := rfl
@[simp] theorem raise_pending (k inst access master : Nat) (addr : Word) (stamp : Stamp) : (s.raise k inst access master addr stamp).pending = s.pending := rfl
@[simp] theorem raise_reg (k inst access master : Nat) (addr : Word) (stamp : Stamp) (x : Nat) : (s.raise k inst access master addr stamp).reg x = s.reg x := rfl
@[simp] theorem raise_fld (k inst access master : Nat) (addr : Word) (stamp : Stamp) (x : Nat) (y : Fld) : (s.raise k inst access master addr stamp).fld x y = s.fld x y := rfl
@[simp] theorem raise_bit (k inst access master : Nat) (addr : Word) (stamp : Stamp) (x : Nat) (y : Fld) : (s.raise k inst access master addr stamp).bit x y = s.bit x y := rfl

/-! ## report -/

@[simp] theorem report_regs (k inst : Nat) : (s.report k inst).regs = s.regs := rfl
@[simp] theorem report_tbc (k inst : Nat) : (s.report k inst).tbc = s.tbc := rfl
@[simp] theorem report_staged (k inst : Nat) : (s.report k inst).staged = s.staged := rfl
@[simp] theorem report_locked (k inst : Nat) : (s.report k inst).locked = s.locked := rfl
@[simp] theorem report_lanes (k inst : Nat) : (s.report k inst).lanes = s.lanes := rfl
@[simp] theorem report_tcmds (k inst : Nat) : (s.report k inst).tcmds = s.tcmds := rfl
@[simp] theorem report_image (k inst : Nat) : (s.report k inst).image = s.image := rfl
@[simp] theorem report_nextImage (k inst : Nat) : (s.report k inst).nextImage = s.nextImage := rfl
@[simp] theorem report_frame (k inst : Nat) : (s.report k inst).frame = s.frame := rfl
@[simp] theorem report_tly (k inst : Nat) : (s.report k inst).tly = s.tly := rfl
@[simp] theorem report_core (k inst : Nat) : (s.report k inst).core = s.core := rfl
@[simp] theorem report_field (k inst : Nat) : (s.report k inst).field = s.field := rfl
@[simp] theorem report_flash (k inst : Nat) : (s.report k inst).flash = s.flash := rfl
@[simp] theorem report_jnl (k inst : Nat) : (s.report k inst).jnl = s.jnl := rfl
@[simp] theorem report_evr (k inst : Nat) : (s.report k inst).evr = s.evr := rfl
@[simp] theorem report_rtc (k inst : Nat) : (s.report k inst).rtc = s.rtc := rfl
@[simp] theorem report_pnl (k inst : Nat) : (s.report k inst).pnl = s.pnl := rfl
@[simp] theorem report_upd (k inst : Nat) : (s.report k inst).upd = s.upd := rfl
@[simp] theorem report_mgs (k inst : Nat) : (s.report k inst).mgs = s.mgs := rfl
@[simp] theorem report_sup (k inst : Nat) : (s.report k inst).sup = s.sup := rfl
@[simp] theorem report_hsp (k inst : Nat) : (s.report k inst).hsp = s.hsp := rfl
@[simp] theorem report_net (k inst : Nat) : (s.report k inst).net = s.net := rfl
@[simp] theorem report_free (k inst : Nat) : (s.report k inst).free = s.free := rfl
@[simp] theorem report_pending (k inst : Nat) : (s.report k inst).pending = s.pending := rfl
@[simp] theorem report_reg (k inst : Nat) (x : Nat) : (s.report k inst).reg x = s.reg x := rfl
@[simp] theorem report_fld (k inst : Nat) (x : Nat) (y : Fld) : (s.report k inst).fld x y = s.fld x y := rfl
@[simp] theorem report_bit (k inst : Nat) (x : Nat) (y : Fld) : (s.report k inst).bit x y = s.bit x y := rfl

/-! ## busError -/

@[simp] theorem busError_regs (m access : Nat) (addr : Word) : (s.busError m access addr).regs = s.regs := rfl
@[simp] theorem busError_tbc (m access : Nat) (addr : Word) : (s.busError m access addr).tbc = s.tbc := rfl
@[simp] theorem busError_staged (m access : Nat) (addr : Word) : (s.busError m access addr).staged = s.staged := rfl
@[simp] theorem busError_locked (m access : Nat) (addr : Word) : (s.busError m access addr).locked = s.locked := rfl
@[simp] theorem busError_lanes (m access : Nat) (addr : Word) : (s.busError m access addr).lanes = s.lanes := rfl
@[simp] theorem busError_tcmds (m access : Nat) (addr : Word) : (s.busError m access addr).tcmds = s.tcmds := rfl
@[simp] theorem busError_image (m access : Nat) (addr : Word) : (s.busError m access addr).image = s.image := rfl
@[simp] theorem busError_nextImage (m access : Nat) (addr : Word) : (s.busError m access addr).nextImage = s.nextImage := rfl
@[simp] theorem busError_frame (m access : Nat) (addr : Word) : (s.busError m access addr).frame = s.frame := rfl
@[simp] theorem busError_tly (m access : Nat) (addr : Word) : (s.busError m access addr).tly = s.tly := rfl
@[simp] theorem busError_core (m access : Nat) (addr : Word) : (s.busError m access addr).core = s.core := rfl
@[simp] theorem busError_field (m access : Nat) (addr : Word) : (s.busError m access addr).field = s.field := rfl
@[simp] theorem busError_flash (m access : Nat) (addr : Word) : (s.busError m access addr).flash = s.flash := rfl
@[simp] theorem busError_jnl (m access : Nat) (addr : Word) : (s.busError m access addr).jnl = s.jnl := rfl
@[simp] theorem busError_evr (m access : Nat) (addr : Word) : (s.busError m access addr).evr = s.evr := rfl
@[simp] theorem busError_rtc (m access : Nat) (addr : Word) : (s.busError m access addr).rtc = s.rtc := rfl
@[simp] theorem busError_pnl (m access : Nat) (addr : Word) : (s.busError m access addr).pnl = s.pnl := rfl
@[simp] theorem busError_upd (m access : Nat) (addr : Word) : (s.busError m access addr).upd = s.upd := rfl
@[simp] theorem busError_mgs (m access : Nat) (addr : Word) : (s.busError m access addr).mgs = s.mgs := rfl
@[simp] theorem busError_sup (m access : Nat) (addr : Word) : (s.busError m access addr).sup = s.sup := rfl
@[simp] theorem busError_hsp (m access : Nat) (addr : Word) : (s.busError m access addr).hsp = s.hsp := rfl
@[simp] theorem busError_net (m access : Nat) (addr : Word) : (s.busError m access addr).net = s.net := rfl
@[simp] theorem busError_free (m access : Nat) (addr : Word) : (s.busError m access addr).free = s.free := rfl
@[simp] theorem busError_pending (m access : Nat) (addr : Word) : (s.busError m access addr).pending = s.pending := rfl
@[simp] theorem busError_reg (m access : Nat) (addr : Word) (x : Nat) : (s.busError m access addr).reg x = s.reg x := rfl
@[simp] theorem busError_fld (m access : Nat) (addr : Word) (x : Nat) (y : Fld) : (s.busError m access addr).fld x y = s.fld x y := rfl
@[simp] theorem busError_bit (m access : Nat) (addr : Word) (x : Nat) (y : Fld) : (s.busError m access addr).bit x y = s.bit x y := rfl

/-! ## send -/

@[simp] theorem send_regs (r : InRec) : (s.send r).regs = s.regs := rfl
@[simp] theorem send_tbc (r : InRec) : (s.send r).tbc = s.tbc := rfl
@[simp] theorem send_staged (r : InRec) : (s.send r).staged = s.staged := rfl
@[simp] theorem send_locked (r : InRec) : (s.send r).locked = s.locked := rfl
@[simp] theorem send_lanes (r : InRec) : (s.send r).lanes = s.lanes := rfl
@[simp] theorem send_tcmds (r : InRec) : (s.send r).tcmds = s.tcmds := rfl
@[simp] theorem send_image (r : InRec) : (s.send r).image = s.image := rfl
@[simp] theorem send_nextImage (r : InRec) : (s.send r).nextImage = s.nextImage := rfl
@[simp] theorem send_frame (r : InRec) : (s.send r).frame = s.frame := rfl
@[simp] theorem send_core (r : InRec) : (s.send r).core = s.core := rfl
@[simp] theorem send_flt (r : InRec) : (s.send r).flt = s.flt := rfl
@[simp] theorem send_field (r : InRec) : (s.send r).field = s.field := rfl
@[simp] theorem send_flash (r : InRec) : (s.send r).flash = s.flash := rfl
@[simp] theorem send_jnl (r : InRec) : (s.send r).jnl = s.jnl := rfl
@[simp] theorem send_evr (r : InRec) : (s.send r).evr = s.evr := rfl
@[simp] theorem send_rtc (r : InRec) : (s.send r).rtc = s.rtc := rfl
@[simp] theorem send_pnl (r : InRec) : (s.send r).pnl = s.pnl := rfl
@[simp] theorem send_upd (r : InRec) : (s.send r).upd = s.upd := rfl
@[simp] theorem send_mgs (r : InRec) : (s.send r).mgs = s.mgs := rfl
@[simp] theorem send_sup (r : InRec) : (s.send r).sup = s.sup := rfl
@[simp] theorem send_hsp (r : InRec) : (s.send r).hsp = s.hsp := rfl
@[simp] theorem send_net (r : InRec) : (s.send r).net = s.net := rfl
@[simp] theorem send_free (r : InRec) : (s.send r).free = s.free := rfl
@[simp] theorem send_pending (r : InRec) : (s.send r).pending = s.pending := rfl
@[simp] theorem send_reg (r : InRec) (x : Nat) : (s.send r).reg x = s.reg x := rfl
@[simp] theorem send_fld (r : InRec) (x : Nat) (y : Fld) : (s.send r).fld x y = s.fld x y := rfl
@[simp] theorem send_bit (r : InRec) (x : Nat) (y : Fld) : (s.send r).bit x y = s.bit x y := rfl

/-! ## modLane -/

@[simp] theorem modLane_regs (l : LaneId) (g : LaneSt → LaneSt) : (s.modLane l g).regs = s.regs := rfl
@[simp] theorem modLane_tbc (l : LaneId) (g : LaneSt → LaneSt) : (s.modLane l g).tbc = s.tbc := rfl
@[simp] theorem modLane_staged (l : LaneId) (g : LaneSt → LaneSt) : (s.modLane l g).staged = s.staged := rfl
@[simp] theorem modLane_locked (l : LaneId) (g : LaneSt → LaneSt) : (s.modLane l g).locked = s.locked := rfl
@[simp] theorem modLane_tcmds (l : LaneId) (g : LaneSt → LaneSt) : (s.modLane l g).tcmds = s.tcmds := rfl
@[simp] theorem modLane_image (l : LaneId) (g : LaneSt → LaneSt) : (s.modLane l g).image = s.image := rfl
@[simp] theorem modLane_nextImage (l : LaneId) (g : LaneSt → LaneSt) : (s.modLane l g).nextImage = s.nextImage := rfl
@[simp] theorem modLane_frame (l : LaneId) (g : LaneSt → LaneSt) : (s.modLane l g).frame = s.frame := rfl
@[simp] theorem modLane_tly (l : LaneId) (g : LaneSt → LaneSt) : (s.modLane l g).tly = s.tly := rfl
@[simp] theorem modLane_core (l : LaneId) (g : LaneSt → LaneSt) : (s.modLane l g).core = s.core := rfl
@[simp] theorem modLane_flt (l : LaneId) (g : LaneSt → LaneSt) : (s.modLane l g).flt = s.flt := rfl
@[simp] theorem modLane_field (l : LaneId) (g : LaneSt → LaneSt) : (s.modLane l g).field = s.field := rfl
@[simp] theorem modLane_flash (l : LaneId) (g : LaneSt → LaneSt) : (s.modLane l g).flash = s.flash := rfl
@[simp] theorem modLane_jnl (l : LaneId) (g : LaneSt → LaneSt) : (s.modLane l g).jnl = s.jnl := rfl
@[simp] theorem modLane_evr (l : LaneId) (g : LaneSt → LaneSt) : (s.modLane l g).evr = s.evr := rfl
@[simp] theorem modLane_rtc (l : LaneId) (g : LaneSt → LaneSt) : (s.modLane l g).rtc = s.rtc := rfl
@[simp] theorem modLane_pnl (l : LaneId) (g : LaneSt → LaneSt) : (s.modLane l g).pnl = s.pnl := rfl
@[simp] theorem modLane_upd (l : LaneId) (g : LaneSt → LaneSt) : (s.modLane l g).upd = s.upd := rfl
@[simp] theorem modLane_mgs (l : LaneId) (g : LaneSt → LaneSt) : (s.modLane l g).mgs = s.mgs := rfl
@[simp] theorem modLane_sup (l : LaneId) (g : LaneSt → LaneSt) : (s.modLane l g).sup = s.sup := rfl
@[simp] theorem modLane_hsp (l : LaneId) (g : LaneSt → LaneSt) : (s.modLane l g).hsp = s.hsp := rfl
@[simp] theorem modLane_net (l : LaneId) (g : LaneSt → LaneSt) : (s.modLane l g).net = s.net := rfl
@[simp] theorem modLane_free (l : LaneId) (g : LaneSt → LaneSt) : (s.modLane l g).free = s.free := rfl
@[simp] theorem modLane_pending (l : LaneId) (g : LaneSt → LaneSt) : (s.modLane l g).pending = s.pending := rfl
@[simp] theorem modLane_reg (l : LaneId) (g : LaneSt → LaneSt) (x : Nat) : (s.modLane l g).reg x = s.reg x := rfl
@[simp] theorem modLane_fld (l : LaneId) (g : LaneSt → LaneSt) (x : Nat) (y : Fld) : (s.modLane l g).fld x y = s.fld x y := rfl
@[simp] theorem modLane_bit (l : LaneId) (g : LaneSt → LaneSt) (x : Nat) (y : Fld) : (s.modLane l g).bit x y = s.bit x y := rfl

/-! ## modCore -/

@[simp] theorem modCore_regs (g : Core → Core) : (s.modCore g).regs = s.regs := rfl
@[simp] theorem modCore_tbc (g : Core → Core) : (s.modCore g).tbc = s.tbc := rfl
@[simp] theorem modCore_staged (g : Core → Core) : (s.modCore g).staged = s.staged := rfl
@[simp] theorem modCore_locked (g : Core → Core) : (s.modCore g).locked = s.locked := rfl
@[simp] theorem modCore_lanes (g : Core → Core) : (s.modCore g).lanes = s.lanes := rfl
@[simp] theorem modCore_tcmds (g : Core → Core) : (s.modCore g).tcmds = s.tcmds := rfl
@[simp] theorem modCore_image (g : Core → Core) : (s.modCore g).image = s.image := rfl
@[simp] theorem modCore_nextImage (g : Core → Core) : (s.modCore g).nextImage = s.nextImage := rfl
@[simp] theorem modCore_frame (g : Core → Core) : (s.modCore g).frame = s.frame := rfl
@[simp] theorem modCore_tly (g : Core → Core) : (s.modCore g).tly = s.tly := rfl
@[simp] theorem modCore_flt (g : Core → Core) : (s.modCore g).flt = s.flt := rfl
@[simp] theorem modCore_field (g : Core → Core) : (s.modCore g).field = s.field := rfl
@[simp] theorem modCore_flash (g : Core → Core) : (s.modCore g).flash = s.flash := rfl
@[simp] theorem modCore_jnl (g : Core → Core) : (s.modCore g).jnl = s.jnl := rfl
@[simp] theorem modCore_evr (g : Core → Core) : (s.modCore g).evr = s.evr := rfl
@[simp] theorem modCore_rtc (g : Core → Core) : (s.modCore g).rtc = s.rtc := rfl
@[simp] theorem modCore_pnl (g : Core → Core) : (s.modCore g).pnl = s.pnl := rfl
@[simp] theorem modCore_upd (g : Core → Core) : (s.modCore g).upd = s.upd := rfl
@[simp] theorem modCore_mgs (g : Core → Core) : (s.modCore g).mgs = s.mgs := rfl
@[simp] theorem modCore_sup (g : Core → Core) : (s.modCore g).sup = s.sup := rfl
@[simp] theorem modCore_hsp (g : Core → Core) : (s.modCore g).hsp = s.hsp := rfl
@[simp] theorem modCore_net (g : Core → Core) : (s.modCore g).net = s.net := rfl
@[simp] theorem modCore_free (g : Core → Core) : (s.modCore g).free = s.free := rfl
@[simp] theorem modCore_pending (g : Core → Core) : (s.modCore g).pending = s.pending := rfl
@[simp] theorem modCore_reg (g : Core → Core) (x : Nat) : (s.modCore g).reg x = s.reg x := rfl
@[simp] theorem modCore_fld (g : Core → Core) (x : Nat) (y : Fld) : (s.modCore g).fld x y = s.fld x y := rfl
@[simp] theorem modCore_bit (g : Core → Core) (x : Nat) (y : Fld) : (s.modCore g).bit x y = s.bit x y := rfl
@[simp] theorem modCore_core (g : Core → Core) : (s.modCore g).core = g s.core := rfl

/-! ## modFlt -/

@[simp] theorem modFlt_regs (g : FltSt → FltSt) : (s.modFlt g).regs = s.regs := rfl
@[simp] theorem modFlt_tbc (g : FltSt → FltSt) : (s.modFlt g).tbc = s.tbc := rfl
@[simp] theorem modFlt_staged (g : FltSt → FltSt) : (s.modFlt g).staged = s.staged := rfl
@[simp] theorem modFlt_locked (g : FltSt → FltSt) : (s.modFlt g).locked = s.locked := rfl
@[simp] theorem modFlt_lanes (g : FltSt → FltSt) : (s.modFlt g).lanes = s.lanes := rfl
@[simp] theorem modFlt_tcmds (g : FltSt → FltSt) : (s.modFlt g).tcmds = s.tcmds := rfl
@[simp] theorem modFlt_image (g : FltSt → FltSt) : (s.modFlt g).image = s.image := rfl
@[simp] theorem modFlt_nextImage (g : FltSt → FltSt) : (s.modFlt g).nextImage = s.nextImage := rfl
@[simp] theorem modFlt_frame (g : FltSt → FltSt) : (s.modFlt g).frame = s.frame := rfl
@[simp] theorem modFlt_tly (g : FltSt → FltSt) : (s.modFlt g).tly = s.tly := rfl
@[simp] theorem modFlt_core (g : FltSt → FltSt) : (s.modFlt g).core = s.core := rfl
@[simp] theorem modFlt_field (g : FltSt → FltSt) : (s.modFlt g).field = s.field := rfl
@[simp] theorem modFlt_flash (g : FltSt → FltSt) : (s.modFlt g).flash = s.flash := rfl
@[simp] theorem modFlt_jnl (g : FltSt → FltSt) : (s.modFlt g).jnl = s.jnl := rfl
@[simp] theorem modFlt_evr (g : FltSt → FltSt) : (s.modFlt g).evr = s.evr := rfl
@[simp] theorem modFlt_rtc (g : FltSt → FltSt) : (s.modFlt g).rtc = s.rtc := rfl
@[simp] theorem modFlt_pnl (g : FltSt → FltSt) : (s.modFlt g).pnl = s.pnl := rfl
@[simp] theorem modFlt_upd (g : FltSt → FltSt) : (s.modFlt g).upd = s.upd := rfl
@[simp] theorem modFlt_mgs (g : FltSt → FltSt) : (s.modFlt g).mgs = s.mgs := rfl
@[simp] theorem modFlt_sup (g : FltSt → FltSt) : (s.modFlt g).sup = s.sup := rfl
@[simp] theorem modFlt_hsp (g : FltSt → FltSt) : (s.modFlt g).hsp = s.hsp := rfl
@[simp] theorem modFlt_net (g : FltSt → FltSt) : (s.modFlt g).net = s.net := rfl
@[simp] theorem modFlt_free (g : FltSt → FltSt) : (s.modFlt g).free = s.free := rfl
@[simp] theorem modFlt_pending (g : FltSt → FltSt) : (s.modFlt g).pending = s.pending := rfl
@[simp] theorem modFlt_reg (g : FltSt → FltSt) (x : Nat) : (s.modFlt g).reg x = s.reg x := rfl
@[simp] theorem modFlt_fld (g : FltSt → FltSt) (x : Nat) (y : Fld) : (s.modFlt g).fld x y = s.fld x y := rfl
@[simp] theorem modFlt_bit (g : FltSt → FltSt) (x : Nat) (y : Fld) : (s.modFlt g).bit x y = s.bit x y := rfl
@[simp] theorem modFlt_flt (g : FltSt → FltSt) : (s.modFlt g).flt = g s.flt := rfl

/-! ## modField -/

@[simp] theorem modField_regs (g : FieldSt → FieldSt) : (s.modField g).regs = s.regs := rfl
@[simp] theorem modField_tbc (g : FieldSt → FieldSt) : (s.modField g).tbc = s.tbc := rfl
@[simp] theorem modField_staged (g : FieldSt → FieldSt) : (s.modField g).staged = s.staged := rfl
@[simp] theorem modField_locked (g : FieldSt → FieldSt) : (s.modField g).locked = s.locked := rfl
@[simp] theorem modField_lanes (g : FieldSt → FieldSt) : (s.modField g).lanes = s.lanes := rfl
@[simp] theorem modField_tcmds (g : FieldSt → FieldSt) : (s.modField g).tcmds = s.tcmds := rfl
@[simp] theorem modField_image (g : FieldSt → FieldSt) : (s.modField g).image = s.image := rfl
@[simp] theorem modField_nextImage (g : FieldSt → FieldSt) : (s.modField g).nextImage = s.nextImage := rfl
@[simp] theorem modField_frame (g : FieldSt → FieldSt) : (s.modField g).frame = s.frame := rfl
@[simp] theorem modField_tly (g : FieldSt → FieldSt) : (s.modField g).tly = s.tly := rfl
@[simp] theorem modField_core (g : FieldSt → FieldSt) : (s.modField g).core = s.core := rfl
@[simp] theorem modField_flt (g : FieldSt → FieldSt) : (s.modField g).flt = s.flt := rfl
@[simp] theorem modField_flash (g : FieldSt → FieldSt) : (s.modField g).flash = s.flash := rfl
@[simp] theorem modField_jnl (g : FieldSt → FieldSt) : (s.modField g).jnl = s.jnl := rfl
@[simp] theorem modField_evr (g : FieldSt → FieldSt) : (s.modField g).evr = s.evr := rfl
@[simp] theorem modField_rtc (g : FieldSt → FieldSt) : (s.modField g).rtc = s.rtc := rfl
@[simp] theorem modField_pnl (g : FieldSt → FieldSt) : (s.modField g).pnl = s.pnl := rfl
@[simp] theorem modField_upd (g : FieldSt → FieldSt) : (s.modField g).upd = s.upd := rfl
@[simp] theorem modField_mgs (g : FieldSt → FieldSt) : (s.modField g).mgs = s.mgs := rfl
@[simp] theorem modField_sup (g : FieldSt → FieldSt) : (s.modField g).sup = s.sup := rfl
@[simp] theorem modField_hsp (g : FieldSt → FieldSt) : (s.modField g).hsp = s.hsp := rfl
@[simp] theorem modField_net (g : FieldSt → FieldSt) : (s.modField g).net = s.net := rfl
@[simp] theorem modField_free (g : FieldSt → FieldSt) : (s.modField g).free = s.free := rfl
@[simp] theorem modField_pending (g : FieldSt → FieldSt) : (s.modField g).pending = s.pending := rfl
@[simp] theorem modField_reg (g : FieldSt → FieldSt) (x : Nat) : (s.modField g).reg x = s.reg x := rfl
@[simp] theorem modField_fld (g : FieldSt → FieldSt) (x : Nat) (y : Fld) : (s.modField g).fld x y = s.fld x y := rfl
@[simp] theorem modField_bit (g : FieldSt → FieldSt) (x : Nat) (y : Fld) : (s.modField g).bit x y = s.bit x y := rfl
@[simp] theorem modField_field (g : FieldSt → FieldSt) : (s.modField g).field = g s.field := rfl

/-! ## modJnl -/

@[simp] theorem modJnl_regs (g : JnlSt → JnlSt) : (s.modJnl g).regs = s.regs := rfl
@[simp] theorem modJnl_tbc (g : JnlSt → JnlSt) : (s.modJnl g).tbc = s.tbc := rfl
@[simp] theorem modJnl_staged (g : JnlSt → JnlSt) : (s.modJnl g).staged = s.staged := rfl
@[simp] theorem modJnl_locked (g : JnlSt → JnlSt) : (s.modJnl g).locked = s.locked := rfl
@[simp] theorem modJnl_lanes (g : JnlSt → JnlSt) : (s.modJnl g).lanes = s.lanes := rfl
@[simp] theorem modJnl_tcmds (g : JnlSt → JnlSt) : (s.modJnl g).tcmds = s.tcmds := rfl
@[simp] theorem modJnl_image (g : JnlSt → JnlSt) : (s.modJnl g).image = s.image := rfl
@[simp] theorem modJnl_nextImage (g : JnlSt → JnlSt) : (s.modJnl g).nextImage = s.nextImage := rfl
@[simp] theorem modJnl_frame (g : JnlSt → JnlSt) : (s.modJnl g).frame = s.frame := rfl
@[simp] theorem modJnl_tly (g : JnlSt → JnlSt) : (s.modJnl g).tly = s.tly := rfl
@[simp] theorem modJnl_core (g : JnlSt → JnlSt) : (s.modJnl g).core = s.core := rfl
@[simp] theorem modJnl_flt (g : JnlSt → JnlSt) : (s.modJnl g).flt = s.flt := rfl
@[simp] theorem modJnl_field (g : JnlSt → JnlSt) : (s.modJnl g).field = s.field := rfl
@[simp] theorem modJnl_flash (g : JnlSt → JnlSt) : (s.modJnl g).flash = s.flash := rfl
@[simp] theorem modJnl_evr (g : JnlSt → JnlSt) : (s.modJnl g).evr = s.evr := rfl
@[simp] theorem modJnl_rtc (g : JnlSt → JnlSt) : (s.modJnl g).rtc = s.rtc := rfl
@[simp] theorem modJnl_pnl (g : JnlSt → JnlSt) : (s.modJnl g).pnl = s.pnl := rfl
@[simp] theorem modJnl_upd (g : JnlSt → JnlSt) : (s.modJnl g).upd = s.upd := rfl
@[simp] theorem modJnl_mgs (g : JnlSt → JnlSt) : (s.modJnl g).mgs = s.mgs := rfl
@[simp] theorem modJnl_sup (g : JnlSt → JnlSt) : (s.modJnl g).sup = s.sup := rfl
@[simp] theorem modJnl_hsp (g : JnlSt → JnlSt) : (s.modJnl g).hsp = s.hsp := rfl
@[simp] theorem modJnl_net (g : JnlSt → JnlSt) : (s.modJnl g).net = s.net := rfl
@[simp] theorem modJnl_free (g : JnlSt → JnlSt) : (s.modJnl g).free = s.free := rfl
@[simp] theorem modJnl_pending (g : JnlSt → JnlSt) : (s.modJnl g).pending = s.pending := rfl
@[simp] theorem modJnl_reg (g : JnlSt → JnlSt) (x : Nat) : (s.modJnl g).reg x = s.reg x := rfl
@[simp] theorem modJnl_fld (g : JnlSt → JnlSt) (x : Nat) (y : Fld) : (s.modJnl g).fld x y = s.fld x y := rfl
@[simp] theorem modJnl_bit (g : JnlSt → JnlSt) (x : Nat) (y : Fld) : (s.modJnl g).bit x y = s.bit x y := rfl
@[simp] theorem modJnl_jnl (g : JnlSt → JnlSt) : (s.modJnl g).jnl = g s.jnl := rfl

/-! ## modEvr -/

@[simp] theorem modEvr_regs (g : EvrSt → EvrSt) : (s.modEvr g).regs = s.regs := rfl
@[simp] theorem modEvr_tbc (g : EvrSt → EvrSt) : (s.modEvr g).tbc = s.tbc := rfl
@[simp] theorem modEvr_staged (g : EvrSt → EvrSt) : (s.modEvr g).staged = s.staged := rfl
@[simp] theorem modEvr_locked (g : EvrSt → EvrSt) : (s.modEvr g).locked = s.locked := rfl
@[simp] theorem modEvr_lanes (g : EvrSt → EvrSt) : (s.modEvr g).lanes = s.lanes := rfl
@[simp] theorem modEvr_tcmds (g : EvrSt → EvrSt) : (s.modEvr g).tcmds = s.tcmds := rfl
@[simp] theorem modEvr_image (g : EvrSt → EvrSt) : (s.modEvr g).image = s.image := rfl
@[simp] theorem modEvr_nextImage (g : EvrSt → EvrSt) : (s.modEvr g).nextImage = s.nextImage := rfl
@[simp] theorem modEvr_frame (g : EvrSt → EvrSt) : (s.modEvr g).frame = s.frame := rfl
@[simp] theorem modEvr_tly (g : EvrSt → EvrSt) : (s.modEvr g).tly = s.tly := rfl
@[simp] theorem modEvr_core (g : EvrSt → EvrSt) : (s.modEvr g).core = s.core := rfl
@[simp] theorem modEvr_flt (g : EvrSt → EvrSt) : (s.modEvr g).flt = s.flt := rfl
@[simp] theorem modEvr_field (g : EvrSt → EvrSt) : (s.modEvr g).field = s.field := rfl
@[simp] theorem modEvr_flash (g : EvrSt → EvrSt) : (s.modEvr g).flash = s.flash := rfl
@[simp] theorem modEvr_jnl (g : EvrSt → EvrSt) : (s.modEvr g).jnl = s.jnl := rfl
@[simp] theorem modEvr_rtc (g : EvrSt → EvrSt) : (s.modEvr g).rtc = s.rtc := rfl
@[simp] theorem modEvr_pnl (g : EvrSt → EvrSt) : (s.modEvr g).pnl = s.pnl := rfl
@[simp] theorem modEvr_upd (g : EvrSt → EvrSt) : (s.modEvr g).upd = s.upd := rfl
@[simp] theorem modEvr_mgs (g : EvrSt → EvrSt) : (s.modEvr g).mgs = s.mgs := rfl
@[simp] theorem modEvr_sup (g : EvrSt → EvrSt) : (s.modEvr g).sup = s.sup := rfl
@[simp] theorem modEvr_hsp (g : EvrSt → EvrSt) : (s.modEvr g).hsp = s.hsp := rfl
@[simp] theorem modEvr_net (g : EvrSt → EvrSt) : (s.modEvr g).net = s.net := rfl
@[simp] theorem modEvr_free (g : EvrSt → EvrSt) : (s.modEvr g).free = s.free := rfl
@[simp] theorem modEvr_pending (g : EvrSt → EvrSt) : (s.modEvr g).pending = s.pending := rfl
@[simp] theorem modEvr_reg (g : EvrSt → EvrSt) (x : Nat) : (s.modEvr g).reg x = s.reg x := rfl
@[simp] theorem modEvr_fld (g : EvrSt → EvrSt) (x : Nat) (y : Fld) : (s.modEvr g).fld x y = s.fld x y := rfl
@[simp] theorem modEvr_bit (g : EvrSt → EvrSt) (x : Nat) (y : Fld) : (s.modEvr g).bit x y = s.bit x y := rfl
@[simp] theorem modEvr_evr (g : EvrSt → EvrSt) : (s.modEvr g).evr = g s.evr := rfl

/-! ## modRtc -/

@[simp] theorem modRtc_regs (g : RtcSt → RtcSt) : (s.modRtc g).regs = s.regs := rfl
@[simp] theorem modRtc_tbc (g : RtcSt → RtcSt) : (s.modRtc g).tbc = s.tbc := rfl
@[simp] theorem modRtc_staged (g : RtcSt → RtcSt) : (s.modRtc g).staged = s.staged := rfl
@[simp] theorem modRtc_locked (g : RtcSt → RtcSt) : (s.modRtc g).locked = s.locked := rfl
@[simp] theorem modRtc_lanes (g : RtcSt → RtcSt) : (s.modRtc g).lanes = s.lanes := rfl
@[simp] theorem modRtc_tcmds (g : RtcSt → RtcSt) : (s.modRtc g).tcmds = s.tcmds := rfl
@[simp] theorem modRtc_image (g : RtcSt → RtcSt) : (s.modRtc g).image = s.image := rfl
@[simp] theorem modRtc_nextImage (g : RtcSt → RtcSt) : (s.modRtc g).nextImage = s.nextImage := rfl
@[simp] theorem modRtc_frame (g : RtcSt → RtcSt) : (s.modRtc g).frame = s.frame := rfl
@[simp] theorem modRtc_tly (g : RtcSt → RtcSt) : (s.modRtc g).tly = s.tly := rfl
@[simp] theorem modRtc_core (g : RtcSt → RtcSt) : (s.modRtc g).core = s.core := rfl
@[simp] theorem modRtc_flt (g : RtcSt → RtcSt) : (s.modRtc g).flt = s.flt := rfl
@[simp] theorem modRtc_field (g : RtcSt → RtcSt) : (s.modRtc g).field = s.field := rfl
@[simp] theorem modRtc_flash (g : RtcSt → RtcSt) : (s.modRtc g).flash = s.flash := rfl
@[simp] theorem modRtc_jnl (g : RtcSt → RtcSt) : (s.modRtc g).jnl = s.jnl := rfl
@[simp] theorem modRtc_evr (g : RtcSt → RtcSt) : (s.modRtc g).evr = s.evr := rfl
@[simp] theorem modRtc_pnl (g : RtcSt → RtcSt) : (s.modRtc g).pnl = s.pnl := rfl
@[simp] theorem modRtc_upd (g : RtcSt → RtcSt) : (s.modRtc g).upd = s.upd := rfl
@[simp] theorem modRtc_mgs (g : RtcSt → RtcSt) : (s.modRtc g).mgs = s.mgs := rfl
@[simp] theorem modRtc_sup (g : RtcSt → RtcSt) : (s.modRtc g).sup = s.sup := rfl
@[simp] theorem modRtc_hsp (g : RtcSt → RtcSt) : (s.modRtc g).hsp = s.hsp := rfl
@[simp] theorem modRtc_net (g : RtcSt → RtcSt) : (s.modRtc g).net = s.net := rfl
@[simp] theorem modRtc_free (g : RtcSt → RtcSt) : (s.modRtc g).free = s.free := rfl
@[simp] theorem modRtc_pending (g : RtcSt → RtcSt) : (s.modRtc g).pending = s.pending := rfl
@[simp] theorem modRtc_reg (g : RtcSt → RtcSt) (x : Nat) : (s.modRtc g).reg x = s.reg x := rfl
@[simp] theorem modRtc_fld (g : RtcSt → RtcSt) (x : Nat) (y : Fld) : (s.modRtc g).fld x y = s.fld x y := rfl
@[simp] theorem modRtc_bit (g : RtcSt → RtcSt) (x : Nat) (y : Fld) : (s.modRtc g).bit x y = s.bit x y := rfl
@[simp] theorem modRtc_rtc (g : RtcSt → RtcSt) : (s.modRtc g).rtc = g s.rtc := rfl

/-! ## modPanel -/

@[simp] theorem modPanel_regs (g : PanelSt → PanelSt) : (s.modPanel g).regs = s.regs := rfl
@[simp] theorem modPanel_tbc (g : PanelSt → PanelSt) : (s.modPanel g).tbc = s.tbc := rfl
@[simp] theorem modPanel_staged (g : PanelSt → PanelSt) : (s.modPanel g).staged = s.staged := rfl
@[simp] theorem modPanel_locked (g : PanelSt → PanelSt) : (s.modPanel g).locked = s.locked := rfl
@[simp] theorem modPanel_lanes (g : PanelSt → PanelSt) : (s.modPanel g).lanes = s.lanes := rfl
@[simp] theorem modPanel_tcmds (g : PanelSt → PanelSt) : (s.modPanel g).tcmds = s.tcmds := rfl
@[simp] theorem modPanel_image (g : PanelSt → PanelSt) : (s.modPanel g).image = s.image := rfl
@[simp] theorem modPanel_nextImage (g : PanelSt → PanelSt) : (s.modPanel g).nextImage = s.nextImage := rfl
@[simp] theorem modPanel_frame (g : PanelSt → PanelSt) : (s.modPanel g).frame = s.frame := rfl
@[simp] theorem modPanel_tly (g : PanelSt → PanelSt) : (s.modPanel g).tly = s.tly := rfl
@[simp] theorem modPanel_core (g : PanelSt → PanelSt) : (s.modPanel g).core = s.core := rfl
@[simp] theorem modPanel_flt (g : PanelSt → PanelSt) : (s.modPanel g).flt = s.flt := rfl
@[simp] theorem modPanel_field (g : PanelSt → PanelSt) : (s.modPanel g).field = s.field := rfl
@[simp] theorem modPanel_flash (g : PanelSt → PanelSt) : (s.modPanel g).flash = s.flash := rfl
@[simp] theorem modPanel_jnl (g : PanelSt → PanelSt) : (s.modPanel g).jnl = s.jnl := rfl
@[simp] theorem modPanel_evr (g : PanelSt → PanelSt) : (s.modPanel g).evr = s.evr := rfl
@[simp] theorem modPanel_rtc (g : PanelSt → PanelSt) : (s.modPanel g).rtc = s.rtc := rfl
@[simp] theorem modPanel_upd (g : PanelSt → PanelSt) : (s.modPanel g).upd = s.upd := rfl
@[simp] theorem modPanel_mgs (g : PanelSt → PanelSt) : (s.modPanel g).mgs = s.mgs := rfl
@[simp] theorem modPanel_sup (g : PanelSt → PanelSt) : (s.modPanel g).sup = s.sup := rfl
@[simp] theorem modPanel_hsp (g : PanelSt → PanelSt) : (s.modPanel g).hsp = s.hsp := rfl
@[simp] theorem modPanel_net (g : PanelSt → PanelSt) : (s.modPanel g).net = s.net := rfl
@[simp] theorem modPanel_free (g : PanelSt → PanelSt) : (s.modPanel g).free = s.free := rfl
@[simp] theorem modPanel_pending (g : PanelSt → PanelSt) : (s.modPanel g).pending = s.pending := rfl
@[simp] theorem modPanel_reg (g : PanelSt → PanelSt) (x : Nat) : (s.modPanel g).reg x = s.reg x := rfl
@[simp] theorem modPanel_fld (g : PanelSt → PanelSt) (x : Nat) (y : Fld) : (s.modPanel g).fld x y = s.fld x y := rfl
@[simp] theorem modPanel_bit (g : PanelSt → PanelSt) (x : Nat) (y : Fld) : (s.modPanel g).bit x y = s.bit x y := rfl
@[simp] theorem modPanel_pnl (g : PanelSt → PanelSt) : (s.modPanel g).pnl = g s.pnl := rfl

/-! ## modUpd -/

@[simp] theorem modUpd_regs (g : UpdSt → UpdSt) : (s.modUpd g).regs = s.regs := rfl
@[simp] theorem modUpd_tbc (g : UpdSt → UpdSt) : (s.modUpd g).tbc = s.tbc := rfl
@[simp] theorem modUpd_staged (g : UpdSt → UpdSt) : (s.modUpd g).staged = s.staged := rfl
@[simp] theorem modUpd_locked (g : UpdSt → UpdSt) : (s.modUpd g).locked = s.locked := rfl
@[simp] theorem modUpd_lanes (g : UpdSt → UpdSt) : (s.modUpd g).lanes = s.lanes := rfl
@[simp] theorem modUpd_tcmds (g : UpdSt → UpdSt) : (s.modUpd g).tcmds = s.tcmds := rfl
@[simp] theorem modUpd_image (g : UpdSt → UpdSt) : (s.modUpd g).image = s.image := rfl
@[simp] theorem modUpd_nextImage (g : UpdSt → UpdSt) : (s.modUpd g).nextImage = s.nextImage := rfl
@[simp] theorem modUpd_frame (g : UpdSt → UpdSt) : (s.modUpd g).frame = s.frame := rfl
@[simp] theorem modUpd_tly (g : UpdSt → UpdSt) : (s.modUpd g).tly = s.tly := rfl
@[simp] theorem modUpd_core (g : UpdSt → UpdSt) : (s.modUpd g).core = s.core := rfl
@[simp] theorem modUpd_flt (g : UpdSt → UpdSt) : (s.modUpd g).flt = s.flt := rfl
@[simp] theorem modUpd_field (g : UpdSt → UpdSt) : (s.modUpd g).field = s.field := rfl
@[simp] theorem modUpd_flash (g : UpdSt → UpdSt) : (s.modUpd g).flash = s.flash := rfl
@[simp] theorem modUpd_jnl (g : UpdSt → UpdSt) : (s.modUpd g).jnl = s.jnl := rfl
@[simp] theorem modUpd_evr (g : UpdSt → UpdSt) : (s.modUpd g).evr = s.evr := rfl
@[simp] theorem modUpd_rtc (g : UpdSt → UpdSt) : (s.modUpd g).rtc = s.rtc := rfl
@[simp] theorem modUpd_pnl (g : UpdSt → UpdSt) : (s.modUpd g).pnl = s.pnl := rfl
@[simp] theorem modUpd_mgs (g : UpdSt → UpdSt) : (s.modUpd g).mgs = s.mgs := rfl
@[simp] theorem modUpd_sup (g : UpdSt → UpdSt) : (s.modUpd g).sup = s.sup := rfl
@[simp] theorem modUpd_hsp (g : UpdSt → UpdSt) : (s.modUpd g).hsp = s.hsp := rfl
@[simp] theorem modUpd_net (g : UpdSt → UpdSt) : (s.modUpd g).net = s.net := rfl
@[simp] theorem modUpd_free (g : UpdSt → UpdSt) : (s.modUpd g).free = s.free := rfl
@[simp] theorem modUpd_pending (g : UpdSt → UpdSt) : (s.modUpd g).pending = s.pending := rfl
@[simp] theorem modUpd_reg (g : UpdSt → UpdSt) (x : Nat) : (s.modUpd g).reg x = s.reg x := rfl
@[simp] theorem modUpd_fld (g : UpdSt → UpdSt) (x : Nat) (y : Fld) : (s.modUpd g).fld x y = s.fld x y := rfl
@[simp] theorem modUpd_bit (g : UpdSt → UpdSt) (x : Nat) (y : Fld) : (s.modUpd g).bit x y = s.bit x y := rfl
@[simp] theorem modUpd_upd (g : UpdSt → UpdSt) : (s.modUpd g).upd = g s.upd := rfl

/-! ## modMgs -/

@[simp] theorem modMgs_regs (g : MgsSt → MgsSt) : (s.modMgs g).regs = s.regs := rfl
@[simp] theorem modMgs_tbc (g : MgsSt → MgsSt) : (s.modMgs g).tbc = s.tbc := rfl
@[simp] theorem modMgs_staged (g : MgsSt → MgsSt) : (s.modMgs g).staged = s.staged := rfl
@[simp] theorem modMgs_locked (g : MgsSt → MgsSt) : (s.modMgs g).locked = s.locked := rfl
@[simp] theorem modMgs_lanes (g : MgsSt → MgsSt) : (s.modMgs g).lanes = s.lanes := rfl
@[simp] theorem modMgs_tcmds (g : MgsSt → MgsSt) : (s.modMgs g).tcmds = s.tcmds := rfl
@[simp] theorem modMgs_image (g : MgsSt → MgsSt) : (s.modMgs g).image = s.image := rfl
@[simp] theorem modMgs_nextImage (g : MgsSt → MgsSt) : (s.modMgs g).nextImage = s.nextImage := rfl
@[simp] theorem modMgs_frame (g : MgsSt → MgsSt) : (s.modMgs g).frame = s.frame := rfl
@[simp] theorem modMgs_tly (g : MgsSt → MgsSt) : (s.modMgs g).tly = s.tly := rfl
@[simp] theorem modMgs_core (g : MgsSt → MgsSt) : (s.modMgs g).core = s.core := rfl
@[simp] theorem modMgs_flt (g : MgsSt → MgsSt) : (s.modMgs g).flt = s.flt := rfl
@[simp] theorem modMgs_field (g : MgsSt → MgsSt) : (s.modMgs g).field = s.field := rfl
@[simp] theorem modMgs_flash (g : MgsSt → MgsSt) : (s.modMgs g).flash = s.flash := rfl
@[simp] theorem modMgs_jnl (g : MgsSt → MgsSt) : (s.modMgs g).jnl = s.jnl := rfl
@[simp] theorem modMgs_evr (g : MgsSt → MgsSt) : (s.modMgs g).evr = s.evr := rfl
@[simp] theorem modMgs_rtc (g : MgsSt → MgsSt) : (s.modMgs g).rtc = s.rtc := rfl
@[simp] theorem modMgs_pnl (g : MgsSt → MgsSt) : (s.modMgs g).pnl = s.pnl := rfl
@[simp] theorem modMgs_upd (g : MgsSt → MgsSt) : (s.modMgs g).upd = s.upd := rfl
@[simp] theorem modMgs_sup (g : MgsSt → MgsSt) : (s.modMgs g).sup = s.sup := rfl
@[simp] theorem modMgs_hsp (g : MgsSt → MgsSt) : (s.modMgs g).hsp = s.hsp := rfl
@[simp] theorem modMgs_net (g : MgsSt → MgsSt) : (s.modMgs g).net = s.net := rfl
@[simp] theorem modMgs_free (g : MgsSt → MgsSt) : (s.modMgs g).free = s.free := rfl
@[simp] theorem modMgs_pending (g : MgsSt → MgsSt) : (s.modMgs g).pending = s.pending := rfl
@[simp] theorem modMgs_reg (g : MgsSt → MgsSt) (x : Nat) : (s.modMgs g).reg x = s.reg x := rfl
@[simp] theorem modMgs_fld (g : MgsSt → MgsSt) (x : Nat) (y : Fld) : (s.modMgs g).fld x y = s.fld x y := rfl
@[simp] theorem modMgs_bit (g : MgsSt → MgsSt) (x : Nat) (y : Fld) : (s.modMgs g).bit x y = s.bit x y := rfl
@[simp] theorem modMgs_mgs (g : MgsSt → MgsSt) : (s.modMgs g).mgs = g s.mgs := rfl

/-! ## modSup -/

@[simp] theorem modSup_regs (g : SupSt → SupSt) : (s.modSup g).regs = s.regs := rfl
@[simp] theorem modSup_tbc (g : SupSt → SupSt) : (s.modSup g).tbc = s.tbc := rfl
@[simp] theorem modSup_staged (g : SupSt → SupSt) : (s.modSup g).staged = s.staged := rfl
@[simp] theorem modSup_locked (g : SupSt → SupSt) : (s.modSup g).locked = s.locked := rfl
@[simp] theorem modSup_lanes (g : SupSt → SupSt) : (s.modSup g).lanes = s.lanes := rfl
@[simp] theorem modSup_tcmds (g : SupSt → SupSt) : (s.modSup g).tcmds = s.tcmds := rfl
@[simp] theorem modSup_image (g : SupSt → SupSt) : (s.modSup g).image = s.image := rfl
@[simp] theorem modSup_nextImage (g : SupSt → SupSt) : (s.modSup g).nextImage = s.nextImage := rfl
@[simp] theorem modSup_frame (g : SupSt → SupSt) : (s.modSup g).frame = s.frame := rfl
@[simp] theorem modSup_tly (g : SupSt → SupSt) : (s.modSup g).tly = s.tly := rfl
@[simp] theorem modSup_core (g : SupSt → SupSt) : (s.modSup g).core = s.core := rfl
@[simp] theorem modSup_flt (g : SupSt → SupSt) : (s.modSup g).flt = s.flt := rfl
@[simp] theorem modSup_field (g : SupSt → SupSt) : (s.modSup g).field = s.field := rfl
@[simp] theorem modSup_flash (g : SupSt → SupSt) : (s.modSup g).flash = s.flash := rfl
@[simp] theorem modSup_jnl (g : SupSt → SupSt) : (s.modSup g).jnl = s.jnl := rfl
@[simp] theorem modSup_evr (g : SupSt → SupSt) : (s.modSup g).evr = s.evr := rfl
@[simp] theorem modSup_rtc (g : SupSt → SupSt) : (s.modSup g).rtc = s.rtc := rfl
@[simp] theorem modSup_pnl (g : SupSt → SupSt) : (s.modSup g).pnl = s.pnl := rfl
@[simp] theorem modSup_upd (g : SupSt → SupSt) : (s.modSup g).upd = s.upd := rfl
@[simp] theorem modSup_mgs (g : SupSt → SupSt) : (s.modSup g).mgs = s.mgs := rfl
@[simp] theorem modSup_hsp (g : SupSt → SupSt) : (s.modSup g).hsp = s.hsp := rfl
@[simp] theorem modSup_net (g : SupSt → SupSt) : (s.modSup g).net = s.net := rfl
@[simp] theorem modSup_free (g : SupSt → SupSt) : (s.modSup g).free = s.free := rfl
@[simp] theorem modSup_pending (g : SupSt → SupSt) : (s.modSup g).pending = s.pending := rfl
@[simp] theorem modSup_reg (g : SupSt → SupSt) (x : Nat) : (s.modSup g).reg x = s.reg x := rfl
@[simp] theorem modSup_fld (g : SupSt → SupSt) (x : Nat) (y : Fld) : (s.modSup g).fld x y = s.fld x y := rfl
@[simp] theorem modSup_bit (g : SupSt → SupSt) (x : Nat) (y : Fld) : (s.modSup g).bit x y = s.bit x y := rfl
@[simp] theorem modSup_sup (g : SupSt → SupSt) : (s.modSup g).sup = g s.sup := rfl

/-! ## modHsp -/

@[simp] theorem modHsp_regs (g : HspSt → HspSt) : (s.modHsp g).regs = s.regs := rfl
@[simp] theorem modHsp_tbc (g : HspSt → HspSt) : (s.modHsp g).tbc = s.tbc := rfl
@[simp] theorem modHsp_staged (g : HspSt → HspSt) : (s.modHsp g).staged = s.staged := rfl
@[simp] theorem modHsp_locked (g : HspSt → HspSt) : (s.modHsp g).locked = s.locked := rfl
@[simp] theorem modHsp_lanes (g : HspSt → HspSt) : (s.modHsp g).lanes = s.lanes := rfl
@[simp] theorem modHsp_tcmds (g : HspSt → HspSt) : (s.modHsp g).tcmds = s.tcmds := rfl
@[simp] theorem modHsp_image (g : HspSt → HspSt) : (s.modHsp g).image = s.image := rfl
@[simp] theorem modHsp_nextImage (g : HspSt → HspSt) : (s.modHsp g).nextImage = s.nextImage := rfl
@[simp] theorem modHsp_frame (g : HspSt → HspSt) : (s.modHsp g).frame = s.frame := rfl
@[simp] theorem modHsp_tly (g : HspSt → HspSt) : (s.modHsp g).tly = s.tly := rfl
@[simp] theorem modHsp_core (g : HspSt → HspSt) : (s.modHsp g).core = s.core := rfl
@[simp] theorem modHsp_flt (g : HspSt → HspSt) : (s.modHsp g).flt = s.flt := rfl
@[simp] theorem modHsp_field (g : HspSt → HspSt) : (s.modHsp g).field = s.field := rfl
@[simp] theorem modHsp_flash (g : HspSt → HspSt) : (s.modHsp g).flash = s.flash := rfl
@[simp] theorem modHsp_jnl (g : HspSt → HspSt) : (s.modHsp g).jnl = s.jnl := rfl
@[simp] theorem modHsp_evr (g : HspSt → HspSt) : (s.modHsp g).evr = s.evr := rfl
@[simp] theorem modHsp_rtc (g : HspSt → HspSt) : (s.modHsp g).rtc = s.rtc := rfl
@[simp] theorem modHsp_pnl (g : HspSt → HspSt) : (s.modHsp g).pnl = s.pnl := rfl
@[simp] theorem modHsp_upd (g : HspSt → HspSt) : (s.modHsp g).upd = s.upd := rfl
@[simp] theorem modHsp_mgs (g : HspSt → HspSt) : (s.modHsp g).mgs = s.mgs := rfl
@[simp] theorem modHsp_sup (g : HspSt → HspSt) : (s.modHsp g).sup = s.sup := rfl
@[simp] theorem modHsp_net (g : HspSt → HspSt) : (s.modHsp g).net = s.net := rfl
@[simp] theorem modHsp_free (g : HspSt → HspSt) : (s.modHsp g).free = s.free := rfl
@[simp] theorem modHsp_pending (g : HspSt → HspSt) : (s.modHsp g).pending = s.pending := rfl
@[simp] theorem modHsp_reg (g : HspSt → HspSt) (x : Nat) : (s.modHsp g).reg x = s.reg x := rfl
@[simp] theorem modHsp_fld (g : HspSt → HspSt) (x : Nat) (y : Fld) : (s.modHsp g).fld x y = s.fld x y := rfl
@[simp] theorem modHsp_bit (g : HspSt → HspSt) (x : Nat) (y : Fld) : (s.modHsp g).bit x y = s.bit x y := rfl
@[simp] theorem modHsp_hsp (g : HspSt → HspSt) : (s.modHsp g).hsp = g s.hsp := rfl

/-! ## modNet -/

@[simp] theorem modNet_regs (g : NetSt → NetSt) : (s.modNet g).regs = s.regs := rfl
@[simp] theorem modNet_tbc (g : NetSt → NetSt) : (s.modNet g).tbc = s.tbc := rfl
@[simp] theorem modNet_staged (g : NetSt → NetSt) : (s.modNet g).staged = s.staged := rfl
@[simp] theorem modNet_locked (g : NetSt → NetSt) : (s.modNet g).locked = s.locked := rfl
@[simp] theorem modNet_lanes (g : NetSt → NetSt) : (s.modNet g).lanes = s.lanes := rfl
@[simp] theorem modNet_tcmds (g : NetSt → NetSt) : (s.modNet g).tcmds = s.tcmds := rfl
@[simp] theorem modNet_image (g : NetSt → NetSt) : (s.modNet g).image = s.image := rfl
@[simp] theorem modNet_nextImage (g : NetSt → NetSt) : (s.modNet g).nextImage = s.nextImage := rfl
@[simp] theorem modNet_frame (g : NetSt → NetSt) : (s.modNet g).frame = s.frame := rfl
@[simp] theorem modNet_tly (g : NetSt → NetSt) : (s.modNet g).tly = s.tly := rfl
@[simp] theorem modNet_core (g : NetSt → NetSt) : (s.modNet g).core = s.core := rfl
@[simp] theorem modNet_flt (g : NetSt → NetSt) : (s.modNet g).flt = s.flt := rfl
@[simp] theorem modNet_field (g : NetSt → NetSt) : (s.modNet g).field = s.field := rfl
@[simp] theorem modNet_flash (g : NetSt → NetSt) : (s.modNet g).flash = s.flash := rfl
@[simp] theorem modNet_jnl (g : NetSt → NetSt) : (s.modNet g).jnl = s.jnl := rfl
@[simp] theorem modNet_evr (g : NetSt → NetSt) : (s.modNet g).evr = s.evr := rfl
@[simp] theorem modNet_rtc (g : NetSt → NetSt) : (s.modNet g).rtc = s.rtc := rfl
@[simp] theorem modNet_pnl (g : NetSt → NetSt) : (s.modNet g).pnl = s.pnl := rfl
@[simp] theorem modNet_upd (g : NetSt → NetSt) : (s.modNet g).upd = s.upd := rfl
@[simp] theorem modNet_mgs (g : NetSt → NetSt) : (s.modNet g).mgs = s.mgs := rfl
@[simp] theorem modNet_sup (g : NetSt → NetSt) : (s.modNet g).sup = s.sup := rfl
@[simp] theorem modNet_hsp (g : NetSt → NetSt) : (s.modNet g).hsp = s.hsp := rfl
@[simp] theorem modNet_free (g : NetSt → NetSt) : (s.modNet g).free = s.free := rfl
@[simp] theorem modNet_pending (g : NetSt → NetSt) : (s.modNet g).pending = s.pending := rfl
@[simp] theorem modNet_reg (g : NetSt → NetSt) (x : Nat) : (s.modNet g).reg x = s.reg x := rfl
@[simp] theorem modNet_fld (g : NetSt → NetSt) (x : Nat) (y : Fld) : (s.modNet g).fld x y = s.fld x y := rfl
@[simp] theorem modNet_bit (g : NetSt → NetSt) (x : Nat) (y : Fld) : (s.modNet g).bit x y = s.bit x y := rfl
@[simp] theorem modNet_net (g : NetSt → NetSt) : (s.modNet g).net = g s.net := rfl

/-! ## modTly -/

@[simp] theorem modTly_regs (g : Tally → Tally) : (s.modTly g).regs = s.regs := rfl
@[simp] theorem modTly_tbc (g : Tally → Tally) : (s.modTly g).tbc = s.tbc := rfl
@[simp] theorem modTly_staged (g : Tally → Tally) : (s.modTly g).staged = s.staged := rfl
@[simp] theorem modTly_locked (g : Tally → Tally) : (s.modTly g).locked = s.locked := rfl
@[simp] theorem modTly_lanes (g : Tally → Tally) : (s.modTly g).lanes = s.lanes := rfl
@[simp] theorem modTly_tcmds (g : Tally → Tally) : (s.modTly g).tcmds = s.tcmds := rfl
@[simp] theorem modTly_image (g : Tally → Tally) : (s.modTly g).image = s.image := rfl
@[simp] theorem modTly_nextImage (g : Tally → Tally) : (s.modTly g).nextImage = s.nextImage := rfl
@[simp] theorem modTly_frame (g : Tally → Tally) : (s.modTly g).frame = s.frame := rfl
@[simp] theorem modTly_core (g : Tally → Tally) : (s.modTly g).core = s.core := rfl
@[simp] theorem modTly_flt (g : Tally → Tally) : (s.modTly g).flt = s.flt := rfl
@[simp] theorem modTly_field (g : Tally → Tally) : (s.modTly g).field = s.field := rfl
@[simp] theorem modTly_flash (g : Tally → Tally) : (s.modTly g).flash = s.flash := rfl
@[simp] theorem modTly_jnl (g : Tally → Tally) : (s.modTly g).jnl = s.jnl := rfl
@[simp] theorem modTly_evr (g : Tally → Tally) : (s.modTly g).evr = s.evr := rfl
@[simp] theorem modTly_rtc (g : Tally → Tally) : (s.modTly g).rtc = s.rtc := rfl
@[simp] theorem modTly_pnl (g : Tally → Tally) : (s.modTly g).pnl = s.pnl := rfl
@[simp] theorem modTly_upd (g : Tally → Tally) : (s.modTly g).upd = s.upd := rfl
@[simp] theorem modTly_mgs (g : Tally → Tally) : (s.modTly g).mgs = s.mgs := rfl
@[simp] theorem modTly_sup (g : Tally → Tally) : (s.modTly g).sup = s.sup := rfl
@[simp] theorem modTly_hsp (g : Tally → Tally) : (s.modTly g).hsp = s.hsp := rfl
@[simp] theorem modTly_net (g : Tally → Tally) : (s.modTly g).net = s.net := rfl
@[simp] theorem modTly_free (g : Tally → Tally) : (s.modTly g).free = s.free := rfl
@[simp] theorem modTly_pending (g : Tally → Tally) : (s.modTly g).pending = s.pending := rfl
@[simp] theorem modTly_reg (g : Tally → Tally) (x : Nat) : (s.modTly g).reg x = s.reg x := rfl
@[simp] theorem modTly_fld (g : Tally → Tally) (x : Nat) (y : Fld) : (s.modTly g).fld x y = s.fld x y := rfl
@[simp] theorem modTly_bit (g : Tally → Tally) (x : Nat) (y : Fld) : (s.modTly g).bit x y = s.bit x y := rfl
@[simp] theorem modTly_tly (g : Tally → Tally) : (s.modTly g).tly = g s.tly := rfl

end Sys2Proof.Laws
end

