-- ==== Sys2Proof/Laws/SteadyField.lean ====
section
/-! SUPPORT. Steadiness of the flash, the recorder, the terminals, the points and the excitation: one lemma for each operation and each
meaning. -/

set_option Elab.async false

namespace Sys2Proof.Laws

open Sys2Proof.Machine

set_option linter.unusedSimpArgs false
set_option linter.unusedVariables false

variable {tb : Stamp} {qu : List Instr}


theorem setFlash_steady (s : State) (k : Nat) (w : BitVec 128) (hst : Steady tb qu s) :
    Steady tb qu (s.setFlash k w) := steady_flash hst (swf_sput hst.flash)

theorem program_steady (s : State) (k : Nat) (w : BitVec 128) (hst : Steady tb qu s) :
    Steady tb qu (State.program s k w) := by
  unfold State.program
  repeat' first
    | with_reducible assumption | intro _ | with_reducible apply setFlash_steady
    | with_reducible apply steady_ite

theorem programBytes_steady (s : State) (k : Nat) (bs : List Byte) (hst : Steady tb qu s) :
    Steady tb qu (State.programBytes s k bs) := by
  unfold State.programBytes
  repeat' first
    | with_reducible assumption | intro _ | with_reducible apply program_steady
    | with_reducible apply steady_ite | with_reducible apply steady_foldl

theorem showSeg_steady (s : State) (seg : Nat) (state : Nat) (hst : Steady tb qu s) :
    Steady tb qu (State.showSeg s seg state) := by
  unfold State.showSeg
  repeat' first
    | with_reducible assumption | intro _ | with_reducible apply setFld_steady

theorem eraseSegment_steady (s : State) (seg : Nat) (hst : Steady tb qu s) : Steady tb qu (s.eraseSegment seg) :=
  showSeg_steady _ _ _ (setFlash_steady _ _ _ (steady_flash hst (swf_filter _ hst.flash)))

theorem modEvr_steady (s : State) (g : EvrSt → EvrSt) (hst : Steady tb qu s) :
    Steady tb qu (State.modEvr s g) := by
  unfold State.modEvr
  repeat' first
    | with_reducible assumption | intro _ | with_reducible apply steady_ite | (simp only [steady_mk, steady_mkCore])

theorem noteTime_steady (s : State) (hst : Steady tb qu s) :
    Steady tb qu (State.noteTime s) := by
  unfold State.noteTime
  repeat' first
    | with_reducible assumption | intro _ | with_reducible apply modEvr_steady
    | with_reducible apply steady_ite

theorem countQueued_steady (s : State) (hst : Steady tb qu s) :
    Steady tb qu (State.countQueued s) := by
  unfold State.countQueued
  repeat' first
    | with_reducible assumption | intro _ | with_reducible apply setFld_steady

theorem keepRepeat_steady (s : State) (hst : Steady tb qu s) :
    Steady tb qu (State.keepRepeat s) := by
  unfold State.keepRepeat
  repeat' first
    | with_reducible assumption | intro _ | with_reducible apply program_steady | with_reducible apply steady_ite
    | with_reducible apply steadyOut_next | split

theorem evrTake_steady (s : State) (trig list kind detail : Nat) (entries : List Word) (stamp : Stamp) (hst : Steady tb qu s) :
    Steady tb qu (State.evrTake s trig list kind detail entries stamp) := by
  unfold State.evrTake
  repeat' first
    | with_reducible assumption | intro _ | with_reducible apply satInc_steady | with_reducible apply event_steady
    | with_reducible apply modEvr_steady | with_reducible apply noteTime_steady
    | with_reducible apply countQueued_steady | with_reducible apply keepRepeat_steady
    | with_reducible apply steady_ite | with_reducible apply steadyOut_next | split

theorem evrEvent_steady (s : State) (kind detail cls : Nat) (stamp : Stamp) (hst : Steady tb qu s) :
    Steady tb qu (State.evrEvent s kind detail cls stamp) := by
  unfold State.evrEvent
  repeat' first
    | with_reducible assumption | intro _ | with_reducible apply evrTake_steady | with_reducible apply steady_ite
    | with_reducible apply steadyOut_next | split

theorem modField_steady (s : State) (g : FieldSt → FieldSt) (hst : Steady tb qu s) :
    Steady tb qu (State.modField s g) := by
  unfold State.modField
  repeat' first
    | with_reducible assumption | intro _ | with_reducible apply steady_ite | (simp only [steady_mk, steady_mkCore])

theorem modCell_steady (s : State) (n : Nat) (g : Cell → Cell) (hst : Steady tb qu s) :
    Steady tb qu (State.modCell s n g) := by
  unfold State.modCell
  repeat' first
    | with_reducible assumption | intro _ | with_reducible apply modField_steady

theorem termEvent_steady (s : State) (n : Nat) (flag : Fld) (hst : Steady tb qu s) :
    Steady tb qu (State.termEvent s n flag) := by
  unfold State.termEvent
  repeat' first
    | with_reducible assumption | intro _ | with_reducible apply event_steady
    | with_reducible apply send_steady

theorem groupEvent_steady (s : State) (g : Nat) (flag : Fld) (hst : Steady tb qu s) :
    Steady tb qu (State.groupEvent s g flag) := by
  unfold State.groupEvent
  repeat' first
    | with_reducible assumption | intro _ | with_reducible apply event_steady
    | with_reducible apply send_steady

theorem sendOut_steady (s : State) (n : Nat) (v : Word) (stamp : Stamp) (hst : Steady tb qu s) :
    Steady tb qu (State.sendOut s n v stamp) := by
  unfold State.sendOut
  repeat' first
    | with_reducible assumption | intro _ | with_reducible apply send_steady

theorem noteOut_steady (s : State) (n : Nat) (hst : Steady tb qu s) :
    Steady tb qu (State.noteOut s n) := by
  unfold State.noteOut
  repeat' first
    | with_reducible assumption | intro _ | with_reducible apply modCell_steady
    | with_reducible apply sendOut_steady | with_reducible apply steady_ite

theorem noteIf_steady (s0 s : State) (n : Nat) (hst : Steady tb qu s0) (hst1 : Steady tb qu s) :
    Steady tb qu (State.noteIf s0 s n) := by
  unfold State.noteIf
  repeat' first
    | with_reducible assumption | intro _ | with_reducible apply noteOut_steady
    | with_reducible apply steady_ite

theorem countPermits_steady (s : State) (hst : Steady tb qu s) :
    Steady tb qu (State.countPermits s) := by
  unfold State.countPermits
  repeat' first
    | with_reducible assumption | intro _ | with_reducible apply setFld_steady

theorem permitWait_steady (s : State) (n : Nat) (hst : Steady tb qu s) :
    Steady tb qu (State.permitWait s n) := by
  unfold State.permitWait
  repeat' first
    | with_reducible assumption | intro _ | with_reducible apply setBit_steady
    | with_reducible apply countPermits_steady

theorem requestPermit_steady (s : State) (n : Nat) (loop : Bool) (hst : Steady tb qu s) :
    Steady tb qu (State.requestPermit s n loop) := by
  unfold State.requestPermit
  repeat' first
    | with_reducible assumption | intro _ | with_reducible apply modField_steady
    | with_reducible apply permitWait_steady | with_reducible apply steady_ite

theorem cancelPermit_steady (s : State) (n : Nat) (loop : Bool) (hst : Steady tb qu s) :
    Steady tb qu (State.cancelPermit s n loop) := by
  unfold State.cancelPermit
  repeat' first
    | with_reducible assumption | intro _ | with_reducible apply modField_steady
    | with_reducible apply permitWait_steady | with_reducible apply steady_ite

theorem openSwitch_steady (s : State) (n : Nat) (hst : Steady tb qu s) :
    Steady tb qu (State.openSwitch s n) := by
  unfold State.openSwitch
  repeat' first
    | with_reducible assumption | intro _ | with_reducible apply nextFree_steady
    | with_reducible apply setBit_steady | with_reducible apply steady_ite

theorem closeSwitch_steady (s : State) (n : Nat) (hst : Steady tb qu s) :
    Steady tb qu (State.closeSwitch s n) := by
  unfold State.closeSwitch
  repeat' first
    | with_reducible assumption | intro _ | with_reducible apply setBit_steady

theorem openGroup_steady (s : State) (n : Nat) (hst : Steady tb qu s) :
    Steady tb qu (State.openGroup s n) := by
  unfold State.openGroup
  repeat' first
    | with_reducible assumption | intro _ | with_reducible apply cancelPermit_steady
    | with_reducible apply openSwitch_steady | with_reducible apply steady_ite
    | with_reducible apply steady_foldl

theorem closeGroup_steady (s : State) (n : Nat) (hst : Steady tb qu s) :
    Steady tb qu (State.closeGroup s n) := by
  unfold State.closeGroup
  repeat' first
    | with_reducible assumption | intro _ | with_reducible apply cancelPermit_steady
    | with_reducible apply closeSwitch_steady | with_reducible apply setBit_steady
    | with_reducible apply steady_ite | with_reducible apply steady_foldl

theorem showOrder_steady (s : State) (n : Nat) (p : Nat × Bool) (hst : Steady tb qu s) :
    Steady tb qu (State.showOrder s n p) := by
  unfold State.showOrder
  repeat' first
    | with_reducible assumption | intro _ | with_reducible apply setFld_steady
    | with_reducible apply setBit_steady

theorem driveGate_steady (s : State) (n : Nat) (p : Nat × Bool) (hst : Steady tb qu s) :
    Steady tb qu (State.driveGate s n p) := by
  unfold State.driveGate
  repeat' first
    | with_reducible assumption | intro _ | with_reducible apply setBit_steady
    | with_reducible apply openGroup_steady | with_reducible apply closeGroup_steady
    | with_reducible apply requestPermit_steady | with_reducible apply steady_ite
    | with_reducible apply steady_foldl

theorem resolveGate_steady (s : State) (n : Nat) (hst : Steady tb qu s) :
    Steady tb qu (State.resolveGate s n) := by
  unfold State.resolveGate
  repeat' first
    | with_reducible assumption | intro _ | with_reducible apply noteIf_steady
    | with_reducible apply showOrder_steady | with_reducible apply driveGate_steady
    | with_reducible apply steady_ite

theorem reclose_steady (s : State) (n : Nat) (hst : Steady tb qu s) :
    Steady tb qu (State.reclose s n) := by
  unfold State.reclose
  repeat' first
    | with_reducible assumption | intro _ | with_reducible apply noteIf_steady
    | with_reducible apply requestPermit_steady | with_reducible apply steady_ite

theorem setBitAt_steady (s : State) (a k : Nat) (b : Bool) (hst : Steady tb qu s) :
    Steady tb qu (State.setBitAt s a k b) := by
  unfold State.setBitAt
  repeat' first
    | with_reducible assumption | intro _ | with_reducible apply setBit_steady

theorem assertTerm_steady (s : State) (k : Nat) (hst : Steady tb qu s) :
    Steady tb qu (State.assertTerm s k) := by
  unfold State.assertTerm
  repeat' first
    | with_reducible assumption | intro _ | with_reducible apply setBitAt_steady
    | with_reducible apply event_steady | with_reducible apply setPair_steady
    | with_reducible apply evrEvent_steady

theorem evalTerm_steady (s : State) (k : Nat) (hst : Steady tb qu s) :
    Steady tb qu (State.evalTerm s k) := by
  unfold State.evalTerm
  repeat' first
    | with_reducible assumption | intro _ | with_reducible apply setBitAt_steady
    | with_reducible apply assertTerm_steady | with_reducible apply steady_ite

theorem evalTrips_steady (s : State) (hst : Steady tb qu s) :
    Steady tb qu (State.evalTrips s) := by
  unfold State.evalTrips
  repeat' first
    | with_reducible assumption | intro _ | with_reducible apply evalTerm_steady
    | with_reducible apply event_steady | with_reducible apply report_steady
    | with_reducible apply resolveGate_steady | with_reducible apply steady_ite
    | with_reducible apply steady_foldl

theorem requestLoop_steady (s : State) (n : Nat) (hst : Steady tb qu s) :
    Steady tb qu (State.requestLoop s n) := by
  unfold State.requestLoop
  repeat' first
    | with_reducible assumption | intro _ | with_reducible apply requestPermit_steady
    | with_reducible apply steady_ite

theorem openLoop_steady (s : State) (n : Nat) (hst : Steady tb qu s) :
    Steady tb qu (State.openLoop s n) := by
  unfold State.openLoop
  repeat' first
    | with_reducible assumption | intro _ | with_reducible apply cancelPermit_steady
    | with_reducible apply setBit_steady

theorem toQ_steady (s : State) (num : Int) (den : Nat) (hst : Steady tb qu s) :
    Steady tb qu (State.toQ s num den).2 := by
  unfold State.toQ
  repeat' first
    | with_reducible assumption | intro _ | with_reducible apply nextFree_steady
    | with_reducible apply steady_ite | with_reducible apply steady_ite_2

theorem voltValue_steady (s : State) (d : Desc) (code : Int) (range : Nat) (hst : Steady tb qu s) :
    Steady tb qu (State.voltValue s d code range).2 := by
  unfold State.voltValue
  repeat' first
    | with_reducible assumption | intro _ | with_reducible apply toQ_steady | with_reducible apply steady_ite
    | with_reducible apply steady_ite_2

theorem tcValue_steady (s : State) (d : Desc) (code : Int) (range : Nat) (stamp : Stamp) (hst : Steady tb qu s) :
    Steady tb qu (State.tcValue s d code range stamp).2.2.2 := by
  unfold State.tcValue
  repeat' first
    | with_reducible assumption | intro _ | with_reducible apply nextFree_steady | with_reducible apply steady_ite
    | with_reducible apply steady_ite_222 | with_reducible apply steadyOut_next | split

theorem modConv_steady (s : State) (c : Nat) (g : ConvSt → ConvSt) (hst : Steady tb qu s) :
    Steady tb qu (State.modConv s c g) := by
  unfold State.modConv
  repeat' first
    | with_reducible assumption | intro _ | with_reducible apply modField_steady

theorem putStage_steady (s : State) (c st : Nat) (x : StageSt) (hst : Steady tb qu s) :
    Steady tb qu (State.putStage s c st x) := by
  unfold State.putStage
  repeat' first
    | with_reducible assumption | intro _ | with_reducible apply modConv_steady
    | with_reducible apply setFld_steady

theorem showRange_steady (s : State) (c st r : Nat) (hst : Steady tb qu s) :
    Steady tb qu (State.showRange s c st r) := by
  unfold State.showRange
  repeat' first
    | with_reducible assumption | intro _ | with_reducible apply setFld_steady

theorem sourceOn_steady (s : State) (i own n code : Nat) (hst : Steady tb qu s) :
    Steady tb qu (State.sourceOn s i own n code) := by
  unfold State.sourceOn
  repeat' first
    | with_reducible assumption | intro _ | with_reducible apply setFld_steady

theorem sourceOff_steady (s : State) (i : Nat) (hst : Steady tb qu s) :
    Steady tb qu (State.sourceOff s i) := by
  unfold State.sourceOff
  repeat' first
    | with_reducible assumption | intro _ | with_reducible apply setFld_steady
    | with_reducible apply setBitAt_steady

theorem returnSwitch_steady (s : State) (n : Nat) (on : Bool) (hst : Steady tb qu s) :
    Steady tb qu (State.returnSwitch s n on) := by
  unfold State.returnSwitch
  repeat' first
    | with_reducible assumption | intro _ | with_reducible apply setBitAt_steady
    | with_reducible apply steady_ite

theorem connectSources_steady (s : State) (c : Nat) (d : Desc) (second : Bool) (hst : Steady tb qu s) :
    Steady tb qu (State.connectSources s c d second) := by
  unfold State.connectSources
  repeat' first
    | with_reducible assumption | intro _ | with_reducible apply sourceOn_steady
    | with_reducible apply returnSwitch_steady | with_reducible apply steady_ite
    | with_reducible apply steady_foldl

theorem freeSources_steady (s : State) (c : Nat) (d : Desc) (hst : Steady tb qu s) :
    Steady tb qu (State.freeSources s c d) := by
  unfold State.freeSources
  repeat' first
    | with_reducible assumption | intro _ | with_reducible apply sourceOff_steady
    | with_reducible apply returnSwitch_steady | with_reducible apply steady_ite
    | with_reducible apply steady_foldl

theorem releaseStage_steady (s : State) (c st : Nat) (leaving : Option Nat) (hst : Steady tb qu s) :
    Steady tb qu (State.releaseStage s c st leaving) := by
  unfold State.releaseStage
  repeat' first
    | with_reducible assumption | intro _ | with_reducible apply freeSources_steady
    | with_reducible apply putStage_steady | with_reducible apply steady_ite | (simp only [steady_mk, steady_mkCore])
    | with_reducible apply steadyOut_next | split

theorem modPoint_steady (s : State) (p : Nat) (g : PointSt → PointSt) (hst : Steady tb qu s) :
    Steady tb qu (State.modPoint s p g) := by
  unfold State.modPoint
  repeat' first
    | with_reducible assumption | intro _ | with_reducible apply modField_steady

theorem post_steady (s : State) (p : Nat) (v : TWord) (status : Nat) (stamp : Stamp) (hst : Steady tb qu s) :
    Steady tb qu (State.post s p v status stamp) := by
  unfold State.post
  repeat' first
    | with_reducible assumption | intro _ | with_reducible apply send_steady
    | with_reducible apply modPoint_steady

theorem postHeld_steady (s : State) (p : Nat) (status : Nat) (t : Tag) (stamp : Stamp) (hst : Steady tb qu s) :
    Steady tb qu (State.postHeld s p status t stamp) := by
  unfold State.postHeld
  repeat' first
    | with_reducible assumption | intro _ | with_reducible apply post_steady

theorem showLast_steady (s : State) (c st p status range : Nat) (code : Int) (stamp : Stamp) (hst : Steady tb qu s) :
    Steady tb qu (State.showLast s c st p status range code stamp) := by
  unfold State.showLast
  repeat' first
    | with_reducible assumption | intro _ | with_reducible apply setFld_steady
    | with_reducible apply setReg_steady

theorem showEarly_steady (s : State) (c st p status range : Nat) (hst : Steady tb qu s) :
    Steady tb qu (State.showEarly s c st p status range) := by
  unfold State.showEarly
  repeat' first
    | with_reducible assumption | intro _ | with_reducible apply nextFree_steady
    | with_reducible apply showLast_steady

theorem countEarly_steady (s : State) (c status : Nat) (hst : Steady tb qu s) :
    Steady tb qu (State.countEarly s c status) := by
  unfold State.countEarly
  repeat' first
    | with_reducible assumption | intro _ | with_reducible apply satInc_steady
    | with_reducible apply event_steady | with_reducible apply steady_ite

theorem endWindow_steady (s : State) (c st : Nat) (status : Nat) (t : Tag) (hst : Steady tb qu s) :
    Steady tb qu (State.endWindow s c st status t) := by
  unfold State.endWindow
  repeat' first
    | with_reducible assumption | intro _ | with_reducible apply showEarly_steady
    | with_reducible apply countEarly_steady | with_reducible apply modPoint_steady
    | with_reducible apply postHeld_steady | with_reducible apply steady_ite | (simp only [steady_mk, steady_mkCore])
    | with_reducible apply steadyOut_next | split

theorem abandon_steady (s : State) (c st : Nat) (t : Tag) (leaving : Option Nat) (hst : Steady tb qu s) :
    Steady tb qu (State.abandon s c st t leaving) := by
  unfold State.abandon
  repeat' first
    | with_reducible assumption | intro _ | with_reducible apply endWindow_steady
    | with_reducible apply postHeld_steady | with_reducible apply releaseStage_steady
    | with_reducible apply steady_ite | with_reducible apply steadyOut_next | split

theorem leaveTerminal_steady (s : State) (n : Nat) (t : Tag) (leaving : Option Nat) (hst : Steady tb qu s) :
    Steady tb qu (State.leaveTerminal s n t leaving) := by
  unfold State.leaveTerminal
  repeat' first
    | with_reducible assumption | intro _ | with_reducible apply abandon_steady
    | with_reducible apply releaseStage_steady | with_reducible apply modConv_steady
    | with_reducible apply steady_ite | with_reducible apply steady_foldl

theorem excitationChange_steady (s : State) (c st : Nat) (hst : Steady tb qu s) :
    Steady tb qu (State.excitationChange s c st) := by
  unfold State.excitationChange
  repeat' first
    | with_reducible assumption | intro _ | with_reducible apply putStage_steady
    | with_reducible apply endWindow_steady | with_reducible apply modConv_steady
    | with_reducible apply freeSources_steady | with_reducible apply steady_ite
    | (simp only [steady_mk, steady_mkCore]) | with_reducible apply steadyOut_next | split

theorem changeWhere_steady (s : State) (p : Nat → Nat → Bool) (hst : Steady tb qu s) :
    Steady tb qu (State.changeWhere s p) := by
  unfold State.changeWhere
  repeat' first
    | with_reducible assumption | intro _ | with_reducible apply excitationChange_steady
    | with_reducible apply steady_ite | with_reducible apply steady_foldl

theorem modLoop_steady (s : State) (n : Nat) (g : LoopSt → LoopSt) (hst : Steady tb qu s) :
    Steady tb qu (State.modLoop s n g) := by
  unfold State.modLoop
  repeat' first
    | with_reducible assumption | intro _ | with_reducible apply modField_steady

theorem loopFlags_steady (s : State) (n : Nat) (fs : List Fld) (hst : Steady tb qu s) :
    Steady tb qu (State.loopFlags s n fs) := by
  unfold State.loopFlags
  repeat' first
    | with_reducible assumption | intro _ | with_reducible apply event_steady
    | with_reducible apply raise_steady | with_reducible apply steady_ite | with_reducible apply steady_foldl

theorem loopHeadroom_steady (s : State) (n : Nat) (sup : Option Nat) (ws : List WinSample) (hst : Steady tb qu s) :
    Steady tb qu (State.loopHeadroom s n sup ws) := by
  unfold State.loopHeadroom
  repeat' first
    | with_reducible assumption | intro _ | with_reducible apply setFld_steady | with_reducible apply nextFree_steady
    | with_reducible apply setBit_steady | with_reducible apply steady_ite | with_reducible apply steadyOut_next
    | split

theorem loopCompare_steady (s : State) (n : Nat) (num : Int) (den : Nat) (ir : List Int × Nat) (hst : Steady tb qu s) :
    Steady tb qu (State.loopCompare s n num den ir) := by
  unfold State.loopCompare
  repeat' first
    | with_reducible assumption | intro _ | with_reducible apply modLoop_steady | with_reducible apply setBit_steady
    | with_reducible apply steady_ite | with_reducible apply steadyOut_next | split

theorem loopResult_steady (s : State) (p : Nat) (d : Desc) (r : RawResult) (hst : Steady tb qu s) :
    Steady tb qu (State.loopResult s p d r).2.2 := by
  unfold State.loopResult
  repeat' first
    | with_reducible assumption | intro _ | with_reducible apply setFld_steady
    | with_reducible apply loopHeadroom_steady | with_reducible apply loopCompare_steady
    | with_reducible apply loopFlags_steady | with_reducible apply modLoop_steady | with_reducible apply toQ_steady
    | with_reducible apply setBit_steady | with_reducible apply steady_ite | with_reducible apply steady_ite_22
    | with_reducible apply steadyOut_next | split

theorem convert_steady (s : State) (d : Desc) (code : Int) (div range : Nat) (stamp : Stamp) (hst : Steady tb qu s) :
    Steady tb qu (State.convert s d code div range stamp).2.2.2 := by
  unfold State.convert
  repeat' first
    | with_reducible assumption | intro _ | with_reducible apply voltValue_steady
    | with_reducible apply tcValue_steady | with_reducible apply steady_ite | with_reducible apply steady_ite_222
    | with_reducible apply steadyOut_next | split

theorem postResult_steady (s : State) (d : Desc) (r : RawResult) (status : Nat) (code : Int) (div : Nat) (hst : Steady tb qu s) :
    Steady tb qu (State.postResult s d r status code div) := by
  unfold State.postResult
  repeat' first
    | with_reducible assumption | intro _ | with_reducible apply postHeld_steady
    | with_reducible apply loopResult_steady | with_reducible apply post_steady
    | with_reducible apply convert_steady | with_reducible apply steady_ite

theorem setModem_steady (s : State) (h n : Nat) (hst : Steady tb qu s) :
    Steady tb qu (State.setModem s h n) := by
  unfold State.setModem
  repeat' first
    | with_reducible assumption | intro _ | with_reducible apply setFld_steady

theorem abortModem_steady (s : State) (h : Nat) (hst : Steady tb qu s) :
    Steady tb qu (State.abortModem s h) := by
  unfold State.abortModem
  repeat' first
    | with_reducible assumption | intro _ | with_reducible apply setFld_steady
    | with_reducible apply setModem_steady | with_reducible apply event_steady | with_reducible apply steady_ite

theorem loseTerminal_steady (s : State) (n : Nat) (hst : Steady tb qu s) :
    Steady tb qu (State.loseTerminal s n) := by
  unfold State.loseTerminal
  repeat' first
    | with_reducible assumption | intro _ | with_reducible apply abortModem_steady
    | with_reducible apply event_steady | with_reducible apply setFld_steady | with_reducible apply steady_ite
    | with_reducible apply steady_foldl

theorem dropLoop_steady (s : State) (n : Nat) (hst : Steady tb qu s) :
    Steady tb qu (State.dropLoop s n) := by
  unfold State.dropLoop
  repeat' first
    | with_reducible assumption | intro _ | with_reducible apply openLoop_steady
    | with_reducible apply loseTerminal_steady

theorem closeLoop_steady (s : State) (n : Nat) (hst : Steady tb qu s) :
    Steady tb qu (State.closeLoop s n) := by
  unfold State.closeLoop
  repeat' first
    | with_reducible assumption | intro _ | with_reducible apply cancelPermit_steady
    | with_reducible apply setBit_steady | with_reducible apply steady_ite | with_reducible apply steady_foldl

theorem measureOut_steady (s : State) (n : Nat) (i : BitVec 16) (hst : Steady tb qu s) :
    Steady tb qu (State.measureOut s n i) := by
  unfold State.measureOut
  repeat' first
    | with_reducible assumption | intro _ | with_reducible apply setFld_steady
    | with_reducible apply setBit_steady | with_reducible apply steady_ite

theorem supplyLost_steady (s : State) (g : Nat) (hst : Steady tb qu s) :
    Steady tb qu (State.supplyLost s g) := by
  unfold State.supplyLost
  repeat' first
    | with_reducible assumption | intro _ | with_reducible apply setBit_steady
    | with_reducible apply modField_steady | with_reducible apply dropLoop_steady
    | with_reducible apply openSwitch_steady | with_reducible apply noteIf_steady
    | with_reducible apply groupEvent_steady | with_reducible apply report_steady
    | with_reducible apply steady_ite | with_reducible apply steady_foldl

theorem supplyBack_steady (s : State) (g : Nat) (hst : Steady tb qu s) :
    Steady tb qu (State.supplyBack s g) := by
  unfold State.supplyBack
  repeat' first
    | with_reducible assumption | intro _ | with_reducible apply setBit_steady
    | with_reducible apply modField_steady | with_reducible apply groupEvent_steady
    | with_reducible apply report_steady | with_reducible apply reclose_steady
    | with_reducible apply requestLoop_steady | with_reducible apply steady_ite
    | with_reducible apply steady_foldl

theorem execGroupMeasurement_steady (g : GroupId) (vfld ifld : BitVec 16) (iout : List (BitVec 16)) (s : State) (hst : Steady tb qu s) :
    SteadyOut tb qu (execGroupMeasurement g vfld ifld iout s) := by
  unfold execGroupMeasurement
  repeat' first
    | with_reducible assumption | intro _ | with_reducible apply setFld_steady | with_reducible apply setBit_steady
    | with_reducible apply measureOut_steady | with_reducible apply supplyLost_steady
    | with_reducible apply supplyBack_steady | with_reducible apply steady_ite | with_reducible apply steady_foldl
    | with_reducible apply steadyOut_next

theorem execGrpOver_steady (g : GroupId) (s : State) (hst : Steady tb qu s) :
    SteadyOut tb qu (execGrpOver g s) := by
  unfold execGrpOver
  repeat' first
    | with_reducible assumption | intro _ | with_reducible apply groupEvent_steady
    | with_reducible apply report_steady | with_reducible apply steady_ite | with_reducible apply steadyOut_next

theorem flagBoth_steady (s : State) (n : Nat) (flag : Fld) (hst : Steady tb qu s) :
    Steady tb qu (State.flagBoth s n flag) := by
  unfold State.flagBoth
  repeat' first
    | with_reducible assumption | intro _ | with_reducible apply termEvent_steady | with_reducible apply steady_ite
    | with_reducible apply steadyOut_next | split

theorem openDriven_steady (s : State) (n : Nat) (hst : Steady tb qu s) :
    Steady tb qu (State.openDriven s n) := by
  unfold State.openDriven
  repeat' first
    | with_reducible assumption | intro _ | with_reducible apply openGroup_steady
    | with_reducible apply openSwitch_steady | with_reducible apply steady_ite | with_reducible apply steadyOut_next
    | split

theorem noteDriver_steady (s0 s : State) (n : Nat) (hst : Steady tb qu s0) (hst1 : Steady tb qu s) :
    Steady tb qu (State.noteDriver s0 s n) := by
  unfold State.noteDriver
  repeat' first
    | with_reducible assumption | intro _ | with_reducible apply noteIf_steady | with_reducible apply steady_ite
    | with_reducible apply steadyOut_next | split

theorem recloseDriven_steady (s : State) (n : Nat) (hst : Steady tb qu s) :
    Steady tb qu (State.recloseDriven s n) := by
  unfold State.recloseDriven
  repeat' first
    | with_reducible assumption | intro _ | with_reducible apply reclose_steady | with_reducible apply steady_ite
    | with_reducible apply steadyOut_next | split

theorem execMiswireDetect_steady (t : Term) (s : State) (hst : Steady tb qu s) :
    SteadyOut tb qu (execMiswireDetect t s) := by
  unfold execMiswireDetect
  repeat' first
    | with_reducible assumption | intro _ | with_reducible apply setBit_steady
    | with_reducible apply openDriven_steady | with_reducible apply dropLoop_steady
    | with_reducible apply leaveTerminal_steady | with_reducible apply flagBoth_steady
    | with_reducible apply report_steady | with_reducible apply noteDriver_steady
    | with_reducible apply evalTrips_steady | with_reducible apply steady_ite | with_reducible apply steadyOut_next

theorem execMiswireClear_steady (t : Term) (s : State) (hst : Steady tb qu s) :
    SteadyOut tb qu (execMiswireClear t s) := by
  unfold execMiswireClear
  repeat' first
    | with_reducible assumption | intro _ | with_reducible apply setBit_steady
    | with_reducible apply recloseDriven_steady | with_reducible apply requestLoop_steady
    | with_reducible apply evalTrips_steady | with_reducible apply steady_ite | with_reducible apply steadyOut_next

theorem execOvertempShutdown_steady (t : Term) (s : State) (hst : Steady tb qu s) :
    SteadyOut tb qu (execOvertempShutdown t s) := by
  unfold execOvertempShutdown
  repeat' first
    | with_reducible assumption | intro _ | with_reducible apply setBit_steady
    | with_reducible apply openDriven_steady | with_reducible apply noteDriver_steady
    | with_reducible apply flagBoth_steady | with_reducible apply report_steady | with_reducible apply steady_ite
    | with_reducible apply steadyOut_next

theorem execThermalRestart_steady (t : Term) (s : State) (hst : Steady tb qu s) :
    SteadyOut tb qu (execThermalRestart t s) := by
  unfold execThermalRestart
  repeat' first
    | with_reducible assumption | intro _ | with_reducible apply setBit_steady
    | with_reducible apply recloseDriven_steady | with_reducible apply steady_ite
    | with_reducible apply steadyOut_next

theorem execDiThresholdCrossing_steady (t : Term) (level : Bool) (s : State) (hst : Steady tb qu s) :
    SteadyOut tb qu (execDiThresholdCrossing t level s) := by
  unfold execDiThresholdCrossing
  repeat' first
    | with_reducible assumption | intro _ | with_reducible apply modCell_steady | with_reducible apply steady_ite
    | with_reducible apply steadyOut_next

theorem execFilteredLevelChange_steady (t : Term) (level : Bool) (s : State) (hst : Steady tb qu s) :
    SteadyOut tb qu (execFilteredLevelChange t level s) := by
  unfold execFilteredLevelChange
  repeat' first
    | with_reducible assumption | intro _ | with_reducible apply setBit_steady | with_reducible apply modCell_steady
    | with_reducible apply evalTrips_steady | with_reducible apply steady_ite | with_reducible apply steadyOut_next

theorem releaseEdge_steady (s : State) (n : Nat) (rising : Bool) (stamp : Stamp) (hst : Steady tb qu s) :
    Steady tb qu (State.releaseEdge s n rising stamp) := by
  unfold State.releaseEdge
  repeat' first
    | with_reducible assumption | intro _ | with_reducible apply satInc_steady
    | with_reducible apply event_steady | with_reducible apply modField_steady | with_reducible apply inc_steady
    | with_reducible apply send_steady | with_reducible apply steady_ite

theorem execDebounceExpiry_steady (t : Term) (s : State) (hst : Steady tb qu s) :
    SteadyOut tb qu (execDebounceExpiry t s) := by
  unfold execDebounceExpiry
  repeat' first
    | with_reducible assumption | intro _ | with_reducible apply modCell_steady | with_reducible apply satInc_steady
    | with_reducible apply setBit_steady | with_reducible apply releaseEdge_steady
    | with_reducible apply termEvent_steady | with_reducible apply steady_ite | with_reducible apply steadyOut_next
    | split

theorem execDiInitialLevel_steady (t : Term) (s : State) (hst : Steady tb qu s) :
    SteadyOut tb qu (execDiInitialLevel t s) := by
  unfold execDiInitialLevel
  repeat' first
    | with_reducible assumption | intro _ | with_reducible apply setBit_steady | with_reducible apply modCell_steady
    | with_reducible apply steady_ite | with_reducible apply steadyOut_next

theorem setLatches_steady (s : State) (n : Nat) (b : Bool) (hst : Steady tb qu s) :
    Steady tb qu (State.setLatches s n b) := by
  unfold State.setLatches
  repeat' first
    | with_reducible assumption | intro _ | with_reducible apply setFld_steady
    | with_reducible apply setBit_steady | with_reducible apply modField_steady
    | with_reducible apply steady_ite

theorem restoreDone_steady (s : State) (hst : Steady tb qu s) :
    Steady tb qu (State.restoreDone s) := by
  unfold State.restoreDone
  repeat' first
    | with_reducible assumption | intro _ | with_reducible apply event_steady
    | with_reducible apply modField_steady | with_reducible apply steady_ite

theorem loadLeader_steady (s : State) (n : Nat) (hst : Steady tb qu s) :
    Steady tb qu (State.loadLeader s n) := by
  unfold State.loadLeader
  repeat' first
    | with_reducible assumption | intro _ | with_reducible apply setLatches_steady
    | with_reducible apply setBit_steady | with_reducible apply event_steady | with_reducible apply steady_ite

theorem orphan_steady (s0 s : State) (g : Nat) (hst : Steady tb qu s0) (hst1 : Steady tb qu s) :
    Steady tb qu (State.orphan s0 s g) := by
  unfold State.orphan
  repeat' first
    | with_reducible assumption | intro _ | with_reducible apply cancelPermit_steady
    | with_reducible apply openSwitch_steady | with_reducible apply termEvent_steady
    | with_reducible apply steady_ite | with_reducible apply steady_foldl

theorem noOrder_steady (s : State) (n : Nat) (hst : Steady tb qu s) :
    Steady tb qu (State.noOrder s n) := by
  unfold State.noOrder
  repeat' first
    | with_reducible assumption | intro _ | with_reducible apply showOrder_steady
    | with_reducible apply setBit_steady

theorem dropManual_steady (s : State) (n : Nat) (hst : Steady tb qu s) :
    Steady tb qu (State.dropManual s n) := by
  unfold State.dropManual
  repeat' first
    | with_reducible assumption | intro _ | with_reducible apply sourceOff_steady
    | with_reducible apply steady_ite | with_reducible apply steady_foldl

theorem leaveMode_steady (s : State) (n : Nat) (hst : Steady tb qu s) :
    Steady tb qu (State.leaveMode s n) := by
  unfold State.leaveMode
  repeat' first
    | with_reducible assumption | intro _ | with_reducible apply setBit_steady | with_reducible apply modCell_steady
    | with_reducible apply openGroup_steady | with_reducible apply orphan_steady
    | with_reducible apply setLatches_steady | with_reducible apply noOrder_steady
    | with_reducible apply cancelPermit_steady | with_reducible apply openSwitch_steady
    | with_reducible apply dropLoop_steady | with_reducible apply leaveTerminal_steady
    | with_reducible apply dropManual_steady | with_reducible apply steady_ite | with_reducible apply steadyOut_next
    | split

theorem modeWritten_steady (s : State) (n : Nat) (hst : Steady tb qu s) :
    Steady tb qu (State.modeWritten s n) := by
  unfold State.modeWritten
  repeat' first
    | with_reducible assumption | intro _ | with_reducible apply leaveMode_steady
    | with_reducible apply evalTrips_steady | with_reducible apply steady_ite

theorem enterMode_steady (s : State) (n : Nat) (hst : Steady tb qu s) :
    Steady tb qu (State.enterMode s n) := by
  unfold State.enterMode
  repeat' first
    | with_reducible assumption | intro _ | with_reducible apply modCell_steady
    | with_reducible apply setLatches_steady | with_reducible apply loadLeader_steady
    | with_reducible apply showOrder_steady | with_reducible apply driveGate_steady
    | with_reducible apply noteOut_steady | with_reducible apply noteIf_steady
    | with_reducible apply restoreDone_steady | with_reducible apply termEvent_steady
    | with_reducible apply requestPermit_steady | with_reducible apply requestLoop_steady
    | with_reducible apply steady_ite | with_reducible apply steadyOut_next | split

theorem execModeTransitionEnd_steady (t : Term) (s : State) (hst : Steady tb qu s) :
    SteadyOut tb qu (execModeTransitionEnd t s) := by
  unfold execModeTransitionEnd
  repeat' first
    | with_reducible assumption | intro _ | with_reducible apply setFld_steady | with_reducible apply setBit_steady
    | with_reducible apply termEvent_steady | with_reducible apply enterMode_steady
    | with_reducible apply evalTrips_steady | with_reducible apply steady_ite | with_reducible apply steadyOut_next

theorem doWritten_steady (s : State) (n : Nat) (w : Word) (hst : Steady tb qu s) :
    Steady tb qu (State.doWritten s n w) := by
  unfold State.doWritten
  repeat' first
    | with_reducible assumption | intro _ | with_reducible apply openGroup_steady
    | with_reducible apply setReg_steady | with_reducible apply orphan_steady
    | with_reducible apply noteIf_steady | with_reducible apply reclose_steady | with_reducible apply steady_ite

theorem execGateOrder_steady (t : Term) (s : State) (hst : Steady tb qu s) :
    SteadyOut tb qu (execGateOrder t s) := by
  unfold execGateOrder
  repeat' first
    | with_reducible assumption | intro _ | with_reducible apply resolveGate_steady | with_reducible apply steady_ite
    | with_reducible apply steadyOut_next

theorem execDemagEnd_steady (t : Term) (s : State) (hst : Steady tb qu s) :
    SteadyOut tb qu (execDemagEnd t s) := by
  unfold execDemagEnd
  repeat' first
    | with_reducible assumption | intro _ | with_reducible apply setBit_steady | with_reducible apply steady_ite
    | with_reducible apply steadyOut_next

theorem execCurrentLimitEngage_steady (t : Term) (s : State) (hst : Steady tb qu s) :
    SteadyOut tb qu (execCurrentLimitEngage t s) := by
  unfold execCurrentLimitEngage
  repeat' first
    | with_reducible assumption | intro _ | with_reducible apply setBit_steady | with_reducible apply steady_ite
    | with_reducible apply steadyOut_next

theorem execOverload_steady (t : Term) (s : State) (hst : Steady tb qu s) :
    SteadyOut tb qu (execOverload t s) := by
  unfold execOverload
  repeat' first
    | with_reducible assumption | intro _ | with_reducible apply openDriven_steady
    | with_reducible apply setBit_steady | with_reducible apply satInc_steady | with_reducible apply noteDriver_steady
    | with_reducible apply flagBoth_steady | with_reducible apply report_steady | with_reducible apply steady_ite
    | with_reducible apply steadyOut_next | split

theorem execOverloadRetry_steady (t : Term) (s : State) (hst : Steady tb qu s) :
    SteadyOut tb qu (execOverloadRetry t s) := by
  unfold execOverloadRetry
  repeat' first
    | with_reducible assumption | intro _ | with_reducible apply noteIf_steady
    | with_reducible apply requestPermit_steady | with_reducible apply steady_ite
    | with_reducible apply steadyOut_next | split

theorem execOpenLoad_steady (t : Term) (s : State) (hst : Steady tb qu s) :
    SteadyOut tb qu (execOpenLoad t s) := by
  unfold execOpenLoad
  repeat' first
    | with_reducible assumption | intro _ | with_reducible apply termEvent_steady | with_reducible apply report_steady
    | with_reducible apply steady_ite | with_reducible apply steadyOut_next | split

theorem execShare_steady (t : Term) (s : State) (hst : Steady tb qu s) :
    SteadyOut tb qu (execShare t s) := by
  unfold execShare
  repeat' first
    | with_reducible assumption | intro _ | with_reducible apply flagBoth_steady | with_reducible apply report_steady
    | with_reducible apply steady_ite | with_reducible apply steadyOut_next | split

theorem execLoopShort_steady (t : Term) (s : State) (hst : Steady tb qu s) :
    SteadyOut tb qu (execLoopShort t s) := by
  unfold execLoopShort
  repeat' first
    | with_reducible assumption | intro _ | with_reducible apply dropLoop_steady | with_reducible apply modCell_steady
    | with_reducible apply termEvent_steady | with_reducible apply report_steady | with_reducible apply steady_ite
    | with_reducible apply steadyOut_next

theorem execLoopRetry_steady (t : Term) (s : State) (hst : Steady tb qu s) :
    SteadyOut tb qu (execLoopRetry t s) := by
  unfold execLoopRetry
  repeat' first
    | with_reducible assumption | intro _ | with_reducible apply modCell_steady
    | with_reducible apply requestPermit_steady | with_reducible apply steady_ite
    | with_reducible apply steadyOut_next

theorem loopWritten_steady (s : State) (n : Nat) (hst : Steady tb qu s) :
    Steady tb qu (State.loopWritten s n) := by
  unfold State.loopWritten
  repeat' first
    | with_reducible assumption | intro _ | with_reducible apply requestLoop_steady
    | with_reducible apply dropLoop_steady | with_reducible apply steady_ite

theorem trpCfgWritten_steady (s : State) (k : Nat) (hst : Steady tb qu s) :
    Steady tb qu (State.trpCfgWritten s k) := by
  unfold State.trpCfgWritten
  repeat' first
    | with_reducible assumption | intro _ | with_reducible apply setBitAt_steady
    | with_reducible apply evalTrips_steady | with_reducible apply steady_ite

theorem resetTerms_steady (s : State) (w : Word) (hst : Steady tb qu s) :
    Steady tb qu (State.resetTerms s w) := by
  unfold State.resetTerms
  repeat' first
    | with_reducible assumption | intro _ | with_reducible apply setBitAt_steady
    | with_reducible apply evalTrips_steady | with_reducible apply steady_ite
    | with_reducible apply steady_foldl

theorem execDupMismatch_steady (n : TripId) (s : State) (hst : Steady tb qu s) :
    SteadyOut tb qu (execDupMismatch n s) := by
  unfold execDupMismatch
  repeat' first
    | with_reducible assumption | intro _ | with_reducible apply setBitAt_steady
    | with_reducible apply assertTerm_steady | with_reducible apply event_steady | with_reducible apply satInc_steady
    | with_reducible apply resolveGate_steady | with_reducible apply report_steady | with_reducible apply steady_ite
    | with_reducible apply steady_foldl | with_reducible apply steadyOut_next

theorem execLatchScrub_steady (found : List TripId) (s : State) (hst : Steady tb qu s) :
    SteadyOut tb qu (execLatchScrub found s) := by
  unfold execLatchScrub
  repeat' first
    | with_reducible assumption | intro _ | with_reducible apply event_steady | with_reducible apply satInc_steady
    | with_reducible apply report_steady | with_reducible apply steady_ite | with_reducible apply steady_foldl
    | with_reducible apply steadyOut_next

theorem safeOn_steady (s : State) (hst : Steady tb qu s) :
    Steady tb qu (State.safeOn s) := by
  unfold State.safeOn
  repeat' first
    | with_reducible assumption | intro _ | with_reducible apply setFld_steady
    | with_reducible apply modCell_steady | with_reducible apply resolveGate_steady
    | with_reducible apply evrEvent_steady | with_reducible apply steady_ite | with_reducible apply steady_foldl

theorem safeOff_steady (s : State) (hst : Steady tb qu s) :
    Steady tb qu (State.safeOff s) := by
  unfold State.safeOff
  repeat' first
    | with_reducible assumption | intro _ | with_reducible apply setFld_steady
    | with_reducible apply resolveGate_steady | with_reducible apply evrEvent_steady
    | with_reducible apply steady_ite | with_reducible apply steady_foldl

theorem grant_steady (s : State) (r : PermitReq) (hst : Steady tb qu s) :
    Steady tb qu (State.grant s r) := by
  unfold State.grant
  repeat' first
    | with_reducible assumption | intro _ | with_reducible apply satInc_steady
    | with_reducible apply closeLoop_steady | with_reducible apply noteIf_steady
    | with_reducible apply closeGroup_steady | with_reducible apply cancelPermit_steady
    | with_reducible apply closeSwitch_steady | with_reducible apply setBit_steady
    | with_reducible apply steady_ite

theorem staggerNext_steady (s : State) (hst : Steady tb qu s) :
    Steady tb qu (State.staggerNext s) := by
  unfold State.staggerNext
  repeat' first
    | with_reducible assumption | intro _ | with_reducible apply modCell_steady | with_reducible apply modField_steady
    | with_reducible apply requestLoop_steady | with_reducible apply steady_ite | with_reducible apply steadyOut_next
    | split

theorem staggerCheck_steady (s : State) (hst : Steady tb qu s) :
    Steady tb qu (State.staggerCheck s) := by
  unfold State.staggerCheck
  repeat' first
    | with_reducible assumption | intro _ | with_reducible apply event_steady
    | with_reducible apply modField_steady | with_reducible apply steady_ite

theorem execStaggerSlot_steady (s : State) (hst : Steady tb qu s) :
    SteadyOut tb qu (execStaggerSlot s) := by
  unfold execStaggerSlot
  repeat' first
    | with_reducible assumption | intro _ | with_reducible apply staggerNext_steady
    | with_reducible apply staggerCheck_steady | with_reducible apply steady_ite | with_reducible apply steadyOut_next

theorem execPermitToken_steady (s : State) (hst : Steady tb qu s) :
    SteadyOut tb qu (execPermitToken s) := by
  unfold execPermitToken
  repeat' first
    | with_reducible assumption | intro _ | with_reducible apply staggerNext_steady
    | with_reducible apply staggerCheck_steady | with_reducible apply setBit_steady
    | with_reducible apply satAdd_steady | with_reducible apply modField_steady | with_reducible apply grant_steady
    | with_reducible apply setFld_steady | with_reducible apply steady_ite | with_reducible apply steady_foldl
    | with_reducible apply steadyOut_next

theorem execDeferLong_steady (s : State) (hst : Steady tb qu s) :
    SteadyOut tb qu (execDeferLong s) := by
  unfold execDeferLong
  repeat' first
    | with_reducible assumption | intro _ | with_reducible apply modField_steady | with_reducible apply event_steady
    | with_reducible apply report_steady | with_reducible apply steady_ite | with_reducible apply steadyOut_next
    | split

theorem freeStage_steady (s : State) (c st : Nat) (hst : Steady tb qu s) :
    Steady tb qu (State.freeStage s c st) := by
  unfold State.freeStage
  repeat' first
    | with_reducible assumption | intro _ | with_reducible apply putStage_steady

theorem connect_steady (s : State) (c st p : Nat) (hst : Steady tb qu s) :
    Steady tb qu (State.connect s c st p) := by
  unfold State.connect
  repeat' first
    | with_reducible assumption | intro _ | with_reducible apply connectSources_steady
    | with_reducible apply showRange_steady | with_reducible apply putStage_steady

theorem refuse_steady (s : State) (c st p : Nat) (hst : Steady tb qu s) :
    Steady tb qu (State.refuse s c st p) := by
  unfold State.refuse
  repeat' first
    | with_reducible assumption | intro _ | with_reducible apply freeStage_steady
    | with_reducible apply postHeld_steady | with_reducible apply event_steady
    | with_reducible apply report_steady | with_reducible apply steady_ite

theorem execDischargeEnd_steady (c : Conv) (st : Stage) (s : State) (hst : Steady tb qu s) :
    SteadyOut tb qu (execDischargeEnd c st s) := by
  unfold execDischargeEnd
  repeat' first
    | with_reducible assumption | intro _ | with_reducible apply freeStage_steady | with_reducible apply refuse_steady
    | with_reducible apply connect_steady | with_reducible apply steady_ite | with_reducible apply steadyOut_next
    | split

theorem execOpenTestEnd_steady (c : Conv) (st : Stage) (mv : BitVec 16) (s : State) (hst : Steady tb qu s) :
    SteadyOut tb qu (execOpenTestEnd c st mv s) := by
  unfold execOpenTestEnd
  repeat' first
    | with_reducible assumption | intro _ | with_reducible apply putStage_steady | with_reducible apply steady_ite
    | with_reducible apply steadyOut_next

theorem execSteepIntervalEnd_steady (c : Conv) (st : Stage) (s : State) (hst : Steady tb qu s) :
    SteadyOut tb qu (execSteepIntervalEnd c st s) := by
  unfold execSteepIntervalEnd
  repeat' first
    | with_reducible assumption | intro _ | with_reducible apply putStage_steady | with_reducible apply steady_ite
    | with_reducible apply steadyOut_next

theorem execRetLimit_steady (t : Term) (s : State) (hst : Steady tb qu s) :
    SteadyOut tb qu (execRetLimit t s) := by
  unfold execRetLimit
  repeat' first
    | with_reducible assumption | intro _ | with_reducible apply event_steady | with_reducible apply report_steady
    | with_reducible apply steady_ite | with_reducible apply steadyOut_next

theorem execComplianceLost_steady (i : Source) (s : State) (hst : Steady tb qu s) :
    SteadyOut tb qu (execComplianceLost i s) := by
  unfold execComplianceLost
  repeat' first
    | with_reducible assumption | intro _ | with_reducible apply setBitAt_steady | with_reducible apply event_steady
    | with_reducible apply putStage_steady | with_reducible apply report_steady | with_reducible apply steady_ite
    | with_reducible apply steady_foldl | with_reducible apply steadyOut_next

theorem execComplianceRegained_steady (i : Source) (s : State) (hst : Steady tb qu s) :
    SteadyOut tb qu (execComplianceRegained i s) := by
  unfold execComplianceRegained
  repeat' first
    | with_reducible assumption | intro _ | with_reducible apply setBitAt_steady | with_reducible apply steady_ite
    | with_reducible apply steadyOut_next

theorem excWritten_steady (s : State) (i : Nat) (w : Word) (hst : Steady tb qu s) :
    Steady tb qu (State.excWritten s i w) := by
  unfold State.excWritten
  repeat' first
    | with_reducible assumption | intro _ | with_reducible apply setReg_steady | with_reducible apply sourceOff_steady
    | with_reducible apply sourceOn_steady | with_reducible apply modField_steady
    | with_reducible apply changeWhere_steady | with_reducible apply steady_ite | with_reducible apply steadyOut_next
    | split

theorem toptWritten_steady (s : State) (n : Nat) (w : Word) (hst : Steady tb qu s) :
    Steady tb qu (State.toptWritten s n w) := by
  unfold State.toptWritten
  repeat' first
    | with_reducible assumption | intro _ | with_reducible apply setReg_steady
    | with_reducible apply changeWhere_steady | with_reducible apply steady_ite

theorem execCalibrationSlot_steady (s : State) (hst : Steady tb qu s) :
    SteadyOut tb qu (execCalibrationSlot s) := by
  unfold execCalibrationSlot
  repeat' first
    | with_reducible assumption | intro _ | with_reducible apply modField_steady
    | with_reducible apply nextFree_steady | with_reducible apply sourceOn_steady | with_reducible apply steady_ite
    | (simp only [steady_mk, steady_mkCore]) | with_reducible apply steadyOut_next | split

theorem execCalibrationDone_steady (i : Source) (err : BitVec 16) (s : State) (hst : Steady tb qu s) :
    SteadyOut tb qu (execCalibrationDone i err s) := by
  unfold execCalibrationDone
  repeat' first
    | with_reducible assumption | intro _ | with_reducible apply sourceOff_steady
    | with_reducible apply modField_steady | with_reducible apply setBitAt_steady | with_reducible apply event_steady
    | with_reducible apply report_steady | with_reducible apply setFld_steady | with_reducible apply steady_ite
    | with_reducible apply steadyOut_next

theorem calNow_steady (s : State) (hst : Steady tb qu s) :
    Steady tb qu (State.calNow s) := by
  unfold State.calNow
  repeat' first
    | with_reducible assumption | intro _ | with_reducible apply modField_steady

theorem execCjsRead_steady (readings : List (Option Word)) (s : State) (hst : Steady tb qu s) :
    SteadyOut tb qu (execCjsRead readings s) := by
  unfold execCjsRead
  repeat' first
    | with_reducible assumption | intro _ | with_reducible apply modField_steady | with_reducible apply setReg_steady
    | with_reducible apply event_steady | with_reducible apply report_steady | with_reducible apply steady_ite
    | with_reducible apply steady_foldl | with_reducible apply steadyOut_next | with_reducible apply steadyOut_ite
    | split

end Sys2Proof.Laws
end

