-- ==== Sys2Proof/Laws/SteadyScan.lean ====
section
/-! SUPPORT. Steadiness of the converters, the scan sequencer, the loops and the clock: one lemma for each operation and each
meaning. -/

set_option Elab.async false

namespace Sys2Proof.Laws

open Sys2Proof.Machine

set_option linter.unusedSimpArgs false
set_option linter.unusedVariables false

variable {tb : Stamp} {qu : List Instr}


theorem showPlan_steady (s : State) (t : ScanSet) (c : Nat) (p : Plan) (hst : Steady tb qu s) :
    Steady tb qu (State.showPlan s t c p) := by
  unfold State.showPlan
  repeat' first
    | with_reducible assumption | intro _ | with_reducible apply setFld_steady

theorem showLoad_steady (s : State) (c : Nat) (hst : Steady tb qu s) :
    Steady tb qu (State.showLoad s c) := by
  unfold State.showLoad
  repeat' first
    | with_reducible assumption | intro _ | with_reducible apply lastPeak_steady
    | with_reducible apply steady_ite

theorem newCycle_steady (s : State) (c : Nat) (hst : Steady tb qu s) :
    Steady tb qu (State.newCycle s c) := by
  unfold State.newCycle
  repeat' first
    | with_reducible assumption | intro _ | with_reducible apply modConv_steady

theorem cycleCheck_steady (s : State) (c : Nat) (hst : Steady tb qu s) :
    Steady tb qu (State.cycleCheck s c) := by
  unfold State.cycleCheck
  repeat' first
    | with_reducible assumption | intro _ | with_reducible apply showLoad_steady
    | with_reducible apply newCycle_steady | with_reducible apply steady_ite

theorem execWindowOpen_steady (c : Conv) (st : Stage) (s : State) (hst : Steady tb qu s) :
    SteadyOut tb qu (execWindowOpen c st s) := by
  unfold execWindowOpen
  repeat' first
    | with_reducible assumption | intro _ | with_reducible apply putStage_steady | with_reducible apply setFld_steady
    | with_reducible apply postHeld_steady | with_reducible apply freeSources_steady
    | with_reducible apply cycleCheck_steady | with_reducible apply steady_ite | with_reducible apply steadyOut_next
    | split

theorem countOverload_steady (s : State) (c : Nat) (ovl : Bool) (hst : Steady tb qu s) :
    Steady tb qu (State.countOverload s c ovl) := by
  unfold State.countOverload
  repeat' first
    | with_reducible assumption | intro _ | with_reducible apply satInc_steady | with_reducible apply setBit_steady
    | with_reducible apply event_steady | with_reducible apply steady_ite

theorem decideRange_steady (s : State) (c : Nat) (r : RawResult) (hst : Steady tb qu s) :
    Steady tb qu (State.decideRange s c r) := by
  unfold State.decideRange
  repeat' first
    | with_reducible assumption | intro _ | with_reducible apply modPoint_steady
    | with_reducible apply satInc_steady | with_reducible apply steady_ite

theorem execWindowClose_steady (c : Conv) (st : Stage) (code : BitVec 24) (ovl : Bool) (s : State) (hst : Steady tb qu s) :
    SteadyOut tb qu (execWindowClose c st code ovl s) := by
  unfold execWindowClose
  repeat' first
    | with_reducible assumption | intro _ | with_reducible apply countOverload_steady
    | with_reducible apply showLast_steady | with_reducible apply modConv_steady
    | with_reducible apply freeSources_steady | with_reducible apply connectSources_steady
    | with_reducible apply putStage_steady | with_reducible apply decideRange_steady
    | with_reducible apply cycleCheck_steady | with_reducible apply steady_ite | with_reducible apply steadyOut_next
    | split

theorem execWindowBoundSample_steady (c : Conv) (st : Stage) (p n vts ir : BitVec 16) (late : Bool) (s : State) (hst : Steady tb qu s) :
    SteadyOut tb qu (execWindowBoundSample c st p n vts ir late s) := by
  unfold execWindowBoundSample
  repeat' first
    | with_reducible assumption | intro _ | with_reducible apply modConv_steady | with_reducible apply satInc_steady
    | with_reducible apply event_steady | with_reducible apply report_steady | with_reducible apply steady_ite
    | with_reducible apply steadyOut_next

theorem endPair_steady (s : State) (c st p : Nat) (hst : Steady tb qu s) :
    Steady tb qu (State.endPair s c st p) := by
  unfold State.endPair
  repeat' first
    | with_reducible assumption | intro _ | with_reducible apply freeSources_steady
    | with_reducible apply putStage_steady | with_reducible apply cycleCheck_steady
    | with_reducible apply steady_ite

theorem execCmCheckDone_steady (c : Conv) (st : Stage) (s : State) (hst : Steady tb qu s) :
    SteadyOut tb qu (execCmCheckDone c st s) := by
  unfold execCmCheckDone
  repeat' first
    | with_reducible assumption | intro _ | with_reducible apply modConv_steady
    | with_reducible apply postResult_steady | with_reducible apply endPair_steady | with_reducible apply steady_ite
    | with_reducible apply steadyOut_next | split

theorem restartDedicated_steady (s : State) (c : Nat) (hst : Steady tb qu s) :
    Steady tb qu (State.restartDedicated s c) := by
  unfold State.restartDedicated
  repeat' first
    | with_reducible assumption | intro _ | with_reducible apply abandon_steady
    | with_reducible apply modConv_steady | with_reducible apply putStage_steady
    | with_reducible apply steady_ite | with_reducible apply steady_foldl

theorem dedicHeld_steady (s : State) (c : Nat) (hst : Steady tb qu s) :
    Steady tb qu (State.dedicHeld s c) := by
  unfold State.dedicHeld
  repeat' first
    | with_reducible assumption | intro _ | with_reducible apply postHeld_steady
    | with_reducible apply event_steady | with_reducible apply report_steady
    | with_reducible apply modConv_steady | with_reducible apply steady_ite

theorem closeDedicated_steady (s : State) (c st p : Nat) (code : BitVec 24) (ovl : Bool) (hst : Steady tb qu s) :
    Steady tb qu (State.closeDedicated s c st p code ovl) := by
  unfold State.closeDedicated
  repeat' first
    | with_reducible assumption | intro _ | with_reducible apply endWindow_steady
    | with_reducible apply countOverload_steady | with_reducible apply showLast_steady
    | with_reducible apply modConv_steady | with_reducible apply decideRange_steady
    | with_reducible apply showRange_steady | with_reducible apply steady_ite

theorem openDedicated_steady (s : State) (c st p : Nat) (ranging : Bool) (hst : Steady tb qu s) :
    Steady tb qu (State.openDedicated s c st p ranging) := by
  unfold State.openDedicated
  repeat' first
    | with_reducible assumption | intro _ | with_reducible apply putStage_steady

theorem execResultSeam_steady (c : Conv) (code : BitVec 24) (ovl : Bool) (s : State) (hst : Steady tb qu s) :
    SteadyOut tb qu (execResultSeam c code ovl s) := by
  unfold execResultSeam
  repeat' first
    | with_reducible assumption | intro _ | with_reducible apply closeDedicated_steady
    | with_reducible apply postHeld_steady | with_reducible apply openDedicated_steady
    | with_reducible apply modConv_steady | with_reducible apply dedicHeld_steady | with_reducible apply steady_ite
    | with_reducible apply steadyOut_next

theorem dedicSeam_steady (s : State) (c : Nat) (hst : Steady tb qu s) :
    Steady tb qu (State.dedicSeam s c) := by
  unfold State.dedicSeam
  repeat' first
    | with_reducible assumption | intro _ | with_reducible apply restartDedicated_steady
    | with_reducible apply modConv_steady | with_reducible apply steady_ite

theorem execBlankStart_steady (c : Conv) (s : State) (hst : Steady tb qu s) :
    SteadyOut tb qu (execBlankStart c s) := by
  unfold execBlankStart
  repeat' first
    | with_reducible assumption | intro _ | with_reducible apply setBit_steady | with_reducible apply modConv_steady
    | with_reducible apply steady_ite | with_reducible apply steadyOut_next

theorem execBlankEnd_steady (c : Conv) (s : State) (hst : Steady tb qu s) :
    SteadyOut tb qu (execBlankEnd c s) := by
  unfold execBlankEnd
  repeat' first
    | with_reducible assumption | intro _ | with_reducible apply setBit_steady | with_reducible apply modConv_steady
    | with_reducible apply steady_ite | with_reducible apply steadyOut_next

theorem execBlankedWindowEnd_steady (c : Conv) (st : Stage) (s : State) (hst : Steady tb qu s) :
    SteadyOut tb qu (execBlankedWindowEnd c st s) := by
  unfold execBlankedWindowEnd
  repeat' first
    | with_reducible assumption | intro _ | with_reducible apply endWindow_steady
    | with_reducible apply freeSources_steady | with_reducible apply putStage_steady
    | with_reducible apply cycleCheck_steady | with_reducible apply steady_ite | with_reducible apply steadyOut_next
    | split

theorem stopConverter_steady (s : State) (c : Nat) (hst : Steady tb qu s) :
    Steady tb qu (State.stopConverter s c) := by
  unfold State.stopConverter
  repeat' first
    | with_reducible assumption | intro _ | with_reducible apply endWindow_steady
    | with_reducible apply releaseStage_steady | with_reducible apply modConv_steady
    | with_reducible apply steady_ite | with_reducible apply steady_foldl

theorem failConverter_steady (s : State) (c : Nat) (hst : Steady tb qu s) :
    Steady tb qu (State.failConverter s c) := by
  unfold State.failConverter
  repeat' first
    | with_reducible assumption | intro _ | with_reducible apply stopConverter_steady
    | with_reducible apply setFld_steady | with_reducible apply modConv_steady
    | with_reducible apply event_steady | with_reducible apply report_steady | with_reducible apply steady_ite

theorem execConverterFail_steady (c : Conv) (check : BitVec 2) (s : State) (hst : Steady tb qu s) :
    SteadyOut tb qu (execConverterFail c check s) := by
  unfold execConverterFail
  repeat' first
    | with_reducible assumption | intro _ | with_reducible apply event_steady
    | with_reducible apply failConverter_steady | with_reducible apply steady_ite
    | with_reducible apply steadyOut_next

theorem execRefnCheck_steady (c : Conv) (a b : BitVec 16) (s : State) (hst : Steady tb qu s) :
    SteadyOut tb qu (execRefnCheck c a b s) := by
  unfold execRefnCheck
  repeat' first
    | with_reducible assumption | intro _ | with_reducible apply setFld_steady | with_reducible apply event_steady
    | with_reducible apply failConverter_steady | with_reducible apply steady_ite
    | with_reducible apply steadyOut_next

theorem recomputeLoad_steady (s : State) (c : Nat) (hst : Steady tb qu s) :
    Steady tb qu (State.recomputeLoad s c) := by
  unfold State.recomputeLoad
  repeat' first
    | with_reducible assumption | intro _ | with_reducible apply setFld_steady

theorem execStageFail_steady (c : Conv) (st : Stage) (s : State) (hst : Steady tb qu s) :
    SteadyOut tb qu (execStageFail c st s) := by
  unfold execStageFail
  repeat' first
    | with_reducible assumption | intro _ | with_reducible apply abandon_steady
    | with_reducible apply releaseStage_steady | with_reducible apply setFld_steady
    | with_reducible apply putStage_steady | with_reducible apply event_steady | with_reducible apply report_steady
    | with_reducible apply failConverter_steady | with_reducible apply recomputeLoad_steady
    | with_reducible apply cycleCheck_steady | with_reducible apply steady_ite | with_reducible apply steadyOut_next

theorem execStageSelftest_steady (c : Conv) (st : Stage) (s : State) (hst : Steady tb qu s) :
    SteadyOut tb qu (execStageSelftest c st s) := by
  unfold execStageSelftest
  repeat' first
    | with_reducible assumption | intro _ | with_reducible apply putStage_steady | with_reducible apply steady_ite
    | with_reducible apply steadyOut_next

theorem selfTestWritten_steady (s : State) (c : Nat) (hst : Steady tb qu s) :
    Steady tb qu (State.selfTestWritten s c) := by
  unfold State.selfTestWritten
  repeat' first
    | with_reducible assumption | intro _ | with_reducible apply modConv_steady
    | with_reducible apply steady_ite

theorem execSelftestDone_steady (c : Conv) (pass : Bool) (s : State) (hst : Steady tb qu s) :
    SteadyOut tb qu (execSelftestDone c pass s) := by
  unfold execSelftestDone
  repeat' first
    | with_reducible assumption | intro _ | with_reducible apply modConv_steady | with_reducible apply event_steady
    | with_reducible apply setFld_steady | with_reducible apply steady_ite | with_reducible apply steadyOut_next

theorem converterOff_steady (s : State) (c : Nat) (hst : Steady tb qu s) :
    Steady tb qu (State.converterOff s c) := by
  unfold State.converterOff
  repeat' first
    | with_reducible assumption | intro _ | with_reducible apply stopConverter_steady
    | with_reducible apply modConv_steady | with_reducible apply setFld_steady | with_reducible apply steady_ite

theorem converterOn_steady (s : State) (c : Nat) (hst : Steady tb qu s) :
    Steady tb qu (State.converterOn s c) := by
  unfold State.converterOn
  repeat' first
    | with_reducible assumption | intro _ | with_reducible apply modConv_steady
    | with_reducible apply steady_ite

theorem asyWritten_steady (s : State) (c : Nat) (w : Word) (hst : Steady tb qu s) :
    Steady tb qu (State.asyWritten s c w) := by
  unfold State.asyWritten
  repeat' first
    | with_reducible assumption | intro _ | with_reducible apply setReg_steady
    | with_reducible apply setFld_steady | with_reducible apply converterOff_steady
    | with_reducible apply converterOn_steady | with_reducible apply selfTestWritten_steady
    | with_reducible apply modConv_steady | with_reducible apply steady_ite

theorem execSvcMutualCheck_steady (failed : Option Svc) (noThree : Bool) (s : State) (hst : Steady tb qu s) :
    SteadyOut tb qu (execSvcMutualCheck failed noThree s) := by
  unfold execSvcMutualCheck
  repeat' first
    | with_reducible assumption | intro _ | with_reducible apply event_steady | with_reducible apply report_steady
    | with_reducible apply setFld_steady | with_reducible apply steady_ite | with_reducible apply steadyOut_next
    | split

theorem execSvcSweep_steady (volts iloop : List (BitVec 16)) (load : Byte) (s : State) (hst : Steady tb qu s) :
    SteadyOut tb qu (execSvcSweep volts iloop load s) := by
  unfold execSvcSweep
  repeat' first
    | with_reducible assumption | intro _ | with_reducible apply setFld_steady | with_reducible apply steady_ite
    | with_reducible apply steady_foldl | with_reducible apply steadyOut_next

theorem commitWritten_steady (s : State) (hst : Steady tb qu s) :
    Steady tb qu (State.commitWritten s) := by
  unfold State.commitWritten
  repeat' first
    | with_reducible assumption | intro _ | with_reducible apply setBit_steady
    | with_reducible apply modField_steady

theorem copyWritten_steady (s : State) (hst : Steady tb qu s) :
    Steady tb qu (State.copyWritten s) := by
  unfold State.copyWritten
  repeat' first
    | with_reducible assumption | intro _ | with_reducible apply setReg_steady
    | with_reducible apply steady_ite | with_reducible apply steady_foldl | with_reducible apply steady_filter

theorem execCommitCheckDone_steady (s : State) (hst : Steady tb qu s) :
    SteadyOut tb qu (execCommitCheckDone s) := by
  unfold execCommitCheckDone
  repeat' first
    | with_reducible assumption | intro _ | with_reducible apply setBit_steady | with_reducible apply modField_steady
    | with_reducible apply setFld_steady | with_reducible apply event_steady | with_reducible apply steady_ite
    | (simp only [steady_mk, steady_mkCore]) | with_reducible apply steadyOut_next | split

theorem showRuns_steady (s : State) (hst : Steady tb qu s) :
    Steady tb qu (State.showRuns s) := by
  unfold State.showRuns
  repeat' first
    | with_reducible assumption | intro _ | with_reducible apply setFld_steady
    | with_reducible apply steady_ite | with_reducible apply steady_foldl

theorem endFlights_steady (s : State) (c : Nat) (hst : Steady tb qu s) :
    Steady tb qu (State.endFlights s c) := by
  unfold State.endFlights
  repeat' first
    | with_reducible assumption | intro _ | with_reducible apply endWindow_steady
    | with_reducible apply releaseStage_steady | with_reducible apply steady_ite
    | with_reducible apply steady_foldl

theorem takeMode_steady (s : State) (c : Nat) (hst : Steady tb qu s) :
    Steady tb qu (State.takeMode s c) := by
  unfold State.takeMode
  repeat' first
    | with_reducible assumption | intro _ | with_reducible apply setFld_steady
    | with_reducible apply lastPeak_steady | with_reducible apply restartDedicated_steady
    | with_reducible apply modConv_steady | with_reducible apply steady_ite

theorem beginCycle_steady (s : State) (c : Nat) (hst : Steady tb qu s) :
    Steady tb qu (State.beginCycle s c) := by
  unfold State.beginCycle
  repeat' first
    | with_reducible assumption | intro _ | with_reducible apply newCycle_steady
    | with_reducible apply steady_ite

theorem carryPoints_steady (s : State) (ms : List (Nat × Nat)) (hst : Steady tb qu s) :
    Steady tb qu (State.carryPoints s ms) := by
  unfold State.carryPoints
  repeat' first
    | with_reducible assumption | intro _ | with_reducible apply modConv_steady
    | with_reducible apply steady_ite | with_reducible apply steady_foldl

theorem execConverterRelocate_steady (c : Conv) (s : State) (hst : Steady tb qu s) :
    SteadyOut tb qu (execConverterRelocate c s) := by
  unfold execConverterRelocate
  repeat' first
    | with_reducible assumption | intro _ | with_reducible apply modField_steady
    | with_reducible apply showRuns_steady | with_reducible apply carryPoints_steady
    | with_reducible apply endFlights_steady | with_reducible apply takeMode_steady
    | with_reducible apply event_steady | with_reducible apply steady_ite | with_reducible apply steadyOut_next
    | split

theorem dropPoint_steady (s : State) (d p : Nat) (hst : Steady tb qu s) :
    Steady tb qu (State.dropPoint s d p) := by
  unfold State.dropPoint
  repeat' first
    | with_reducible assumption | intro _ | with_reducible apply modConv_steady
    | with_reducible apply releaseStage_steady | with_reducible apply steady_ite
    | with_reducible apply steady_foldl

theorem execConverterRestore_steady (c : Conv) (s : State) (hst : Steady tb qu s) :
    SteadyOut tb qu (execConverterRestore c s) := by
  unfold execConverterRestore
  repeat' first
    | with_reducible assumption | intro _ | with_reducible apply modConv_steady
    | with_reducible apply dropPoint_steady | with_reducible apply modField_steady
    | with_reducible apply showRuns_steady | with_reducible apply event_steady
    | with_reducible apply endFlights_steady | with_reducible apply takeMode_steady
    | with_reducible apply beginCycle_steady | with_reducible apply steady_ite | with_reducible apply steady_foldl
    | (simp only [steady_mk, steady_mkCore]) | with_reducible apply steadyOut_next
    | with_reducible apply steadyOut_ite | split

theorem keepPoint_steady (s : State) (old : Desc) (p : Nat) (hst : Steady tb qu s) :
    Steady tb qu (State.keepPoint s old p) := by
  unfold State.keepPoint
  repeat' first
    | with_reducible assumption | intro _ | with_reducible apply modPoint_steady
    | with_reducible apply steady_ite

theorem execCommitApply_steady (s : State) (hst : Steady tb qu s) : SteadyOut tb qu (execCommitApply s) := by
  unfold execCommitApply
  refine steadyOut_next ?_
  split
  · exact hst
  · with_reducible apply event_steady
    with_reducible apply steady_foldl
    · with_reducible apply steady_foldl
      · with_reducible apply showRuns_steady
        with_reducible apply steady_foldl
        · with_reducible apply modField_steady
          refine steady_ite (setReg_steady _ _ (setReg_steady _ _ ?_)) ?_ <;>
          · refine steady_foldl _ (steady_mk.2 (steady_foldl _ (steady_foldl _ (steady_filter ?_)
              fun _ _ h => setReg_steady _ _ h) fun _ _ h => keepPoint_steady _ _ _ h))
              fun _ _ h => setFld_steady _ _ _ _ h
            refine steady_foldl _ hst fun s k h => ?_
            dsimp only
            split
            · exact h
            · exact steady_ite (releaseStage_steady _ _ _ _ (steady_ite (endWindow_steady _ _ _ _ _ h) h)) h
        · exact fun _ _ h => showPlan_steady _ _ _ _ h
      · exact fun s c h => steady_ite (takeMode_steady _ _ (endFlights_steady _ _ h))
          (steady_ite (restartDedicated_steady _ _ h) h)
    · exact fun _ _ h => beginCycle_steady _ _ h

theorem execCycleStart_steady (c : Conv) (s : State) (hst : Steady tb qu s) :
    SteadyOut tb qu (execCycleStart c s) := by
  unfold execCycleStart
  repeat' first
    | with_reducible assumption | intro _ | with_reducible apply modConv_steady | with_reducible apply event_steady
    | with_reducible apply report_steady | with_reducible apply showLoad_steady | with_reducible apply newCycle_steady
    | with_reducible apply steady_ite | with_reducible apply steadyOut_next

theorem execPointSetupStart_steady (c : Conv) (s : State) (hst : Steady tb qu s) :
    SteadyOut tb qu (execPointSetupStart c s) := by
  unfold execPointSetupStart
  repeat' first
    | with_reducible assumption | intro _ | with_reducible apply putStage_steady | with_reducible apply modConv_steady
    | with_reducible apply steady_ite | with_reducible apply steadyOut_next | split

theorem execWarmUpEnd_steady (t : Term) (s : State) (hst : Steady tb qu s) :
    SteadyOut tb qu (execWarmUpEnd t s) := by
  unfold execWarmUpEnd
  repeat' first
    | with_reducible assumption | intro _ | with_reducible apply setBit_steady | with_reducible apply modLoop_steady
    | with_reducible apply steady_ite | with_reducible apply steadyOut_next

theorem emptyRx_steady (s : State) (h : Nat) (hst : Steady tb qu s) :
    Steady tb qu (State.emptyRx s h) := by
  unfold State.emptyRx
  repeat' first
    | with_reducible assumption | intro _ | with_reducible apply setFld_steady

theorem sendWritten_steady (s : State) (h : Nat) (hst : Steady tb qu s) :
    Steady tb qu (State.sendWritten s h) := by
  unfold State.sendWritten
  repeat' first
    | with_reducible assumption | intro _ | with_reducible apply emptyRx_steady
    | with_reducible apply setModem_steady | with_reducible apply steady_ite

theorem rxclrWritten_steady (s : State) (h : Nat) (hst : Steady tb qu s) :
    Steady tb qu (State.rxclrWritten s h) := by
  unfold State.rxclrWritten
  repeat' first
    | with_reducible assumption | intro _ | with_reducible apply emptyRx_steady
    | with_reducible apply setModem_steady | with_reducible apply steady_ite

theorem mcmdWritten_steady (s : State) (h : Nat) (w : Word) (hst : Steady tb qu s) :
    Steady tb qu (State.mcmdWritten s h w) := by
  unfold State.mcmdWritten
  repeat' first
    | with_reducible assumption | intro _ | with_reducible apply abortModem_steady
    | with_reducible apply rxclrWritten_steady | with_reducible apply sendWritten_steady
    | with_reducible apply steady_ite

theorem execTxDone_steady (h : Modem) (s : State) (hst : Steady tb qu s) :
    SteadyOut tb qu (execTxDone h s) := by
  unfold execTxDone
  repeat' first
    | with_reducible assumption | intro _ | with_reducible apply setModem_steady | with_reducible apply event_steady
    | with_reducible apply steady_ite | with_reducible apply steadyOut_next

theorem execNoReply_steady (h : Modem) (s : State) (hst : Steady tb qu s) :
    SteadyOut tb qu (execNoReply h s) := by
  unfold execNoReply
  repeat' first
    | with_reducible assumption | intro _ | with_reducible apply setModem_steady | with_reducible apply setFld_steady
    | with_reducible apply satInc_steady | with_reducible apply event_steady | with_reducible apply steady_ite
    | with_reducible apply steadyOut_next

theorem execCarrierDetect_steady (h : Modem) (s : State) (hst : Steady tb qu s) :
    SteadyOut tb qu (execCarrierDetect h s) := by
  unfold execCarrierDetect
  repeat' first
    | with_reducible assumption | intro _ | with_reducible apply setFld_steady | with_reducible apply setModem_steady
    | with_reducible apply steady_ite | with_reducible apply steadyOut_next

theorem execUnsolicitedFrame_steady (h : Modem) (s : State) (hst : Steady tb qu s) :
    SteadyOut tb qu (execUnsolicitedFrame h s) := by
  unfold execUnsolicitedFrame
  repeat' first
    | with_reducible assumption | intro _ | with_reducible apply setFld_steady | with_reducible apply satInc_steady
    | with_reducible apply steady_ite | with_reducible apply steadyOut_next

theorem execOwnerChange_steady (s : State) (hst : Steady tb qu s) :
    SteadyOut tb qu (execOwnerChange s) := by
  unfold execOwnerChange
  repeat' first
    | with_reducible assumption | intro _ | with_reducible apply modField_steady | with_reducible apply steady_ite
    | with_reducible apply steadyOut_next

theorem putBytes_steady (s : State) (a : Nat) (bs : List Byte) (hst : Steady tb qu s) :
    Steady tb qu (State.putBytes s a bs) := by
  unfold State.putBytes
  repeat' first
    | with_reducible assumption | intro _ | with_reducible apply setReg_steady
    | with_reducible apply steady_ite | with_reducible apply steady_foldl

theorem execHartPoll_steady (h : Modem) (t : Term) (req : List Byte) (s : State) (hst : Steady tb qu s) :
    SteadyOut tb qu (execHartPoll h t req s) := by
  unfold execHartPoll
  repeat' first
    | with_reducible assumption | intro _ | with_reducible apply setFld_steady | with_reducible apply putBytes_steady
    | with_reducible apply sendWritten_steady | with_reducible apply steady_ite | with_reducible apply steadyOut_next

theorem modRtc_steady (s : State) (g : RtcSt → RtcSt) (hst : Steady tb qu s) :
    Steady tb qu (State.modRtc s g) := by
  unfold State.modRtc
  repeat' first
    | with_reducible assumption | intro _ | with_reducible apply steady_ite | (simp only [steady_mk, steady_mkCore])

theorem setTime_steady (s : State) (t : RtcTime) (hst : Steady tb qu s) :
    Steady tb qu (State.setTime s t) := by
  unfold State.setTime
  repeat' first
    | with_reducible assumption | intro _ | with_reducible apply setReg_steady
    | with_reducible apply modRtc_steady

theorem execRtcSecond_steady (s : State) (hst : Steady tb qu s) :
    SteadyOut tb qu (execRtcSecond s) := by
  unfold execRtcSecond
  repeat' first
    | with_reducible assumption | intro _ | with_reducible apply setTime_steady | with_reducible apply steady_ite
    | with_reducible apply steadyOut_next

theorem execRtcCalibration_steady (s : State) (hst : Steady tb qu s) :
    SteadyOut tb qu (execRtcCalibration s) := by
  unfold execRtcCalibration
  repeat' first
    | with_reducible assumption | intro _ | with_reducible apply modRtc_steady | with_reducible apply steady_ite
    | with_reducible apply steadyOut_next

theorem setOsf_steady (s : State) (hst : Steady tb qu s) :
    Steady tb qu (State.setOsf s) := by
  unfold State.setOsf
  repeat' first
    | with_reducible assumption | intro _ | with_reducible apply setBit_steady
    | with_reducible apply event_steady | with_reducible apply steady_ite

theorem setLbv_steady (s : State) (hst : Steady tb qu s) :
    Steady tb qu (State.setLbv s) := by
  unfold State.setLbv
  repeat' first
    | with_reducible assumption | intro _ | with_reducible apply setBit_steady
    | with_reducible apply event_steady | with_reducible apply steady_ite

theorem execVbatReading_steady (mv : BitVec 12) (s : State) (hst : Steady tb qu s) :
    SteadyOut tb qu (execVbatReading mv s) := by
  unfold execVbatReading
  repeat' first
    | with_reducible assumption | intro _ | with_reducible apply setFld_steady | with_reducible apply setLbv_steady
    | with_reducible apply steady_ite | with_reducible apply steadyOut_next

theorem execOscillatorStop_steady (s : State) (hst : Steady tb qu s) :
    SteadyOut tb qu (execOscillatorStop s) := by
  unfold execOscillatorStop
  repeat' first
    | with_reducible assumption | intro _ | with_reducible apply setFld_steady | with_reducible apply setBit_steady
    | with_reducible apply setOsf_steady | with_reducible apply steady_ite | with_reducible apply steadyOut_next

theorem execOscillatorRestart_steady (s : State) (hst : Steady tb qu s) :
    SteadyOut tb qu (execOscillatorRestart s) := by
  unfold execOscillatorRestart
  repeat' first
    | with_reducible assumption | intro _ | with_reducible apply setBit_steady | with_reducible apply modRtc_steady
    | with_reducible apply steady_ite | with_reducible apply steadyOut_next

theorem fclrWritten_steady (s : State) (w : Word) (hst : Steady tb qu s) :
    Steady tb qu (State.fclrWritten s w) := by
  unfold State.fclrWritten
  repeat' first
    | with_reducible assumption | intro _ | with_reducible apply setBit_steady
    | with_reducible apply steady_ite

theorem execDomainReset_steady (s : State) (hst : Steady tb qu s) :
    SteadyOut tb qu (execDomainReset s) := by
  unfold execDomainReset
  repeat' first
    | with_reducible assumption | intro _ | with_reducible apply setTime_steady | with_reducible apply setReg_steady
    | with_reducible apply modRtc_steady | with_reducible apply setOsf_steady | with_reducible apply setLbv_steady
    | with_reducible apply steady_ite | with_reducible apply steadyOut_next

theorem execVbatSwitchover_steady (s : State) (hst : Steady tb qu s) :
    SteadyOut tb qu (execVbatSwitchover s) := by
  unfold execVbatSwitchover
  repeat' first
    | with_reducible assumption | intro _ | with_reducible apply modRtc_steady | with_reducible apply steady_ite
    | with_reducible apply steadyOut_next

theorem execVbatSwitchback_steady (s : State) (hst : Steady tb qu s) :
    SteadyOut tb qu (execVbatSwitchback s) := by
  unfold execVbatSwitchback
  repeat' first
    | with_reducible assumption | intro _ | with_reducible apply modRtc_steady | with_reducible apply steady_ite
    | with_reducible apply steadyOut_next

theorem closeGate_steady (s : State) (hst : Steady tb qu s) :
    Steady tb qu (State.closeGate s) := by
  unfold State.closeGate
  repeat' first
    | with_reducible assumption | intro _ | with_reducible apply setBit_steady
    | with_reducible apply modRtc_steady

theorem execGateClose_steady (s : State) (hst : Steady tb qu s) :
    SteadyOut tb qu (execGateClose s) := by
  unfold execGateClose
  repeat' first
    | with_reducible assumption | intro _ | with_reducible apply closeGate_steady | with_reducible apply steady_ite
    | with_reducible apply steadyOut_next

theorem execGateOpen_steady (s : State) (hst : Steady tb qu s) :
    SteadyOut tb qu (execGateOpen s) := by
  unfold execGateOpen
  repeat' first
    | with_reducible assumption | intro _ | with_reducible apply setBit_steady | with_reducible apply event_steady
    | with_reducible apply steady_ite | with_reducible apply steadyOut_next

theorem releaseShadows_steady (s : State) (m : Nat) (hst : Steady tb qu s) :
    Steady tb qu (State.releaseShadows s m) := by
  unfold State.releaseShadows
  repeat' first
    | with_reducible assumption | intro _ | with_reducible apply modRtc_steady

theorem timeRead_steady (s : State) (m a : Nat) (hst : Steady tb qu s) :
    Steady tb qu (State.timeRead s m a) := by
  unfold State.timeRead
  repeat' first
    | with_reducible assumption | intro _ | with_reducible apply releaseShadows_steady
    | with_reducible apply modRtc_steady | with_reducible apply steady_ite

theorem execShadowTimeout_steady (m : Master) (s : State) (hst : Steady tb qu s) :
    SteadyOut tb qu (execShadowTimeout m s) := by
  unfold execShadowTimeout
  repeat' first
    | with_reducible assumption | intro _ | with_reducible apply releaseShadows_steady
    | with_reducible apply event_steady | with_reducible apply steady_ite | with_reducible apply steadyOut_next

theorem stageTime_steady (s : State) (m a n : Nat) (hst : Steady tb qu s) :
    Steady tb qu (State.stageTime s m a n) := by
  unfold State.stageTime
  repeat' first
    | with_reducible assumption | intro _ | with_reducible apply modRtc_steady

theorem commitTime_steady (s : State) (m year : Nat) (hst : Steady tb qu s) :
    Steady tb qu (State.commitTime s m year) := by
  unfold State.commitTime
  repeat' first
    | with_reducible assumption | intro _ | with_reducible apply modRtc_steady
    | with_reducible apply releaseShadows_steady

theorem execRtcLoad_steady (s : State) (hst : Steady tb qu s) :
    SteadyOut tb qu (execRtcLoad s) := by
  unfold execRtcLoad
  repeat' first
    | with_reducible assumption | intro _ | with_reducible apply modRtc_steady | with_reducible apply event_steady
    | with_reducible apply setTime_steady | with_reducible apply setBit_steady | with_reducible apply steady_ite
    | with_reducible apply steadyOut_next | split

end Sys2Proof.Laws
end

