-- ==== Sys2Proof/Laws/SteadyNet.lean ====
section
/-! SUPPORT. Steadiness of the network links, the images, the journal and the update engine: one lemma for each operation and each
meaning. -/

set_option Elab.async false

namespace Sys2Proof.Laws

open Sys2Proof.Machine

set_option linter.unusedSimpArgs false
set_option linter.unusedVariables false

variable {tb : Stamp} {qu : List Instr}


/-- The state the answer holds, if it holds one, is steady. -/
structure SteadyOpt (tb : Stamp) (qu : List Instr) (o : Option State) : Prop where
  steady : ∀ t, o = some t → Steady tb qu t

theorem SteadyOpt.some {s : State} (h : Steady tb qu s) : SteadyOpt tb qu (some s) :=
  ⟨fun t ht => by cases ht; exact h⟩

theorem SteadyOpt.none : SteadyOpt tb qu none := ⟨fun t ht => by cases ht⟩

theorem SteadyOpt.ite {c : Prop} [Decidable c] {x y : Option State} (hx : SteadyOpt tb qu x)
    (hy : SteadyOpt tb qu y) : SteadyOpt tb qu (if c then x else y) := by split <;> assumption

theorem SteadyOpt.getD {o : Option State} {s : State} (ho : SteadyOpt tb qu o) (h : Steady tb qu s) :
    Steady tb qu (o.getD s) := by
  cases o with
  | none => exact h
  | some t => exact ho.steady t rfl

theorem modNet_steady (s : State) (g : NetSt → NetSt) (hst : Steady tb qu s) :
    Steady tb qu (State.modNet s g) := by
  unfold State.modNet
  repeat' first
    | with_reducible assumption | intro _ | with_reducible apply steady_ite | (simp only [steady_mk, steady_mkCore])

theorem modAssoc_steady (s : State) (a : Nat) (g : AssocSt → AssocSt) (hst : Steady tb qu s) :
    Steady tb qu (State.modAssoc s a g) := by
  unfold State.modAssoc
  repeat' first
    | with_reducible assumption | intro _ | with_reducible apply modNet_steady

theorem txDrop_steady (s : State) (a : Nat) (hst : Steady tb qu s) :
    Steady tb qu (State.txDrop s a) := by
  unfold State.txDrop
  repeat' first
    | with_reducible assumption | intro _ | with_reducible apply satInc_steady
    | with_reducible apply event_steady

theorem dropElem_steady (s : State) (e : TxElem) (hst : Steady tb qu s) :
    Steady tb qu (State.dropElem s e) := by
  unfold State.dropElem
  repeat' first
    | with_reducible assumption | intro _ | with_reducible apply event_steady
    | with_reducible apply txDrop_steady | with_reducible apply steady_ite | with_reducible apply steady_foldl

theorem queueEth_steady (s : State) (e : TxElem) (n : Nat) (hst : Steady tb qu s) :
    SteadyOpt tb qu (s.queueEth e n) := by
  induction n generalizing s with
  | zero => exact .ite (.some (dropElem_steady _ _ hst)) .none
  | succ n ih =>
    unfold State.queueEth
    refine .ite (.some (modNet_steady _ _ hst)) ?_
    split
    · exact .ite (.some (dropElem_steady _ _ hst)) .none
    · exact ih _ (dropElem_steady _ _ (modNet_steady _ _ hst))

theorem setCan_steady (s : State) (c : Nat) (q : List CanFrame) (hst : Steady tb qu s) :
    Steady tb qu (State.setCan s c q) := by
  unfold State.setCan
  repeat' first
    | with_reducible assumption | intro _ | with_reducible apply modNet_steady

theorem dropFrame_steady (s : State) (f : CanFrame) (hst : Steady tb qu s) :
    Steady tb qu (State.dropFrame s f) := by
  unfold State.dropFrame
  repeat' first
    | with_reducible assumption | intro _ | with_reducible apply event_steady | with_reducible apply txDrop_steady
    | with_reducible apply steady_ite | with_reducible apply steadyOut_next | split

theorem queueCan_steady (s : State) (c : Nat) (fs : List CanFrame) (n : Nat) (hst : Steady tb qu s) :
    SteadyOpt tb qu (s.queueCan c fs n) := by
  induction n generalizing s with
  | zero => exact .none
  | succ n ih =>
    unfold State.queueCan
    have hd := steady_foldl (fs.take 1) hst fun _ x h => dropFrame_steady _ x h
    refine .ite (.some hd) (.ite (.some (setCan_steady _ _ _ hst)) ?_)
    split
    · exact .ite (.some hd) .none
    · exact ih _ (dropFrame_steady _ _ (setCan_steady _ _ _ hst))

theorem queueElem_steady (s : State) (e : TxElem) (hst : Steady tb qu s) : SteadyOpt tb qu (s.queueElem e) := by
  unfold State.queueElem
  split
  · exact queueEth_steady _ _ _ hst
  · exact .ite (queueEth_steady _ _ _ hst) (queueCan_steady _ _ _ _ hst)

theorem queueAll_steady (s : State) (es : List TxElem) (hst : Steady tb qu s) :
    SteadyOpt tb qu (s.queueAll es) := by
  induction es generalizing s with
  | nil => exact .some hst
  | cons e es ih =>
    unfold State.queueAll
    split
    · exact .none
    · rename_i h
      exact ih _ ((queueElem_steady _ _ hst).steady _ h)

theorem sendElem_steady (s : State) (e : TxElem) (hst : Steady tb qu s) : Steady tb qu (s.sendElem e) :=
  (queueElem_steady _ _ hst).getD (dropElem_steady _ _ hst)

theorem sendTo_steady (s : State) (a typ : Nat) (bytes : List Byte) (hst : Steady tb qu s) :
    Steady tb qu (State.sendTo s a typ bytes) := by
  unfold State.sendTo
  repeat' first
    | with_reducible assumption | intro _ | with_reducible apply sendElem_steady
    | with_reducible apply txDrop_steady | with_reducible apply steady_ite

theorem msgDrops_steady (s : State) (t : Txn) (hst : Steady tb qu s) :
    Steady tb qu (State.msgDrops s t) := by
  unfold State.msgDrops
  repeat' first
    | with_reducible assumption | intro _ | with_reducible apply txDrop_steady | with_reducible apply steady_ite
    | with_reducible apply steadyOut_next | split

theorem netTake_steady (s : State) (t : Txn) (hst : Steady tb qu s) : SteadyOpt tb qu (s.netTake t) :=
  .ite (queueAll_steady _ _ (msgDrops_steady _ _ hst)) (.some hst)

theorem sendHart_steady (s : State) (term : Nat) (dev : Byte) (v : HartVar) (t : Stamp) (hst : Steady tb qu s) :
    Steady tb qu (State.sendHart s term dev v t) := by
  unfold State.sendHart
  repeat' first
    | with_reducible assumption | intro _ | with_reducible apply sendTo_steady
    | with_reducible apply steady_ite | with_reducible apply steady_foldl

theorem sendHello_steady (s : State) (a : Nat) (hst : Steady tb qu s) :
    Steady tb qu (State.sendHello s a) := by
  unfold State.sendHello
  repeat' first
    | with_reducible assumption | intro _ | with_reducible apply sendElem_steady
    | with_reducible apply modAssoc_steady | with_reducible apply steady_ite

theorem helloAtOnce_steady (s : State) (a : Nat) (hst : Steady tb qu s) :
    Steady tb qu (State.helloAtOnce s a) := by
  unfold State.helloAtOnce
  repeat' first
    | with_reducible assumption | intro _ | with_reducible apply sendHello_steady
    | with_reducible apply modAssoc_steady | with_reducible apply steady_ite | with_reducible apply steadyOut_next
    | split

theorem abortXfer_steady (s : State) (hst : Steady tb qu s) :
    Steady tb qu (State.abortXfer s) := by
  unfold State.abortXfer
  repeat' first
    | with_reducible assumption | intro _ | with_reducible apply setFld_steady | with_reducible apply event_steady
    | with_reducible apply steady_ite | (simp only [steady_mk, steady_mkCore])

theorem leaveUp_steady (s : State) (a : Nat) (hst : Steady tb qu s) :
    Steady tb qu (State.leaveUp s a) := by
  unfold State.leaveUp
  repeat' first
    | with_reducible assumption | intro _ | with_reducible apply modAssoc_steady | with_reducible apply event_steady
    | with_reducible apply setFld_steady | with_reducible apply abortXfer_steady | with_reducible apply steady_ite
    | (simp only [steady_mk, steady_mkCore]) | with_reducible apply steadyOut_next | split

theorem setAssoc_steady (s : State) (a st ver : Nat) (hst : Steady tb qu s) :
    Steady tb qu (State.setAssoc s a st ver) := by
  unfold State.setAssoc
  repeat' first
    | with_reducible assumption | intro _ | with_reducible apply setFld_steady
    | with_reducible apply leaveUp_steady | with_reducible apply event_steady | with_reducible apply send_steady
    | with_reducible apply steady_ite

theorem assocDown_steady (s : State) (a : Nat) (hst : Steady tb qu s) :
    Steady tb qu (State.assocDown s a) := by
  unfold State.assocDown
  repeat' first
    | with_reducible assumption | intro _ | with_reducible apply setAssoc_steady
    | with_reducible apply modAssoc_steady

theorem takeHello_steady (s : State) (a : Nat) (e : RxElem) (hst : Steady tb qu s) :
    Steady tb qu (State.takeHello s a e) := by
  unfold State.takeHello
  repeat' first
    | with_reducible assumption | intro _ | with_reducible apply modAssoc_steady
    | with_reducible apply setFld_steady | with_reducible apply setAssoc_steady
    | with_reducible apply helloAtOnce_steady | with_reducible apply steady_ite

theorem skip_steady (s : State) (hst : Steady tb qu s) :
    Steady tb qu (State.skip s) := by
  unfold State.skip
  repeat' first
    | with_reducible assumption | intro _ | with_reducible apply satInc_steady

theorem takeElem_steady (s : State) (a : Option Nat) (isLocal : Bool) (mac : Nat) (e : Nat × Nat × List Byte) (hst : Steady tb qu s) :
    Steady tb qu (State.takeElem s a isLocal mac e) := by
  unfold State.takeElem
  repeat' first
    | with_reducible assumption | intro _ | with_reducible apply satInc_steady | with_reducible apply modNet_steady
    | with_reducible apply skip_steady | with_reducible apply steady_ite | with_reducible apply steadyOut_next | split

theorem showNodes_steady (s : State) (hst : Steady tb qu s) :
    Steady tb qu (State.showNodes s) := by
  unfold State.showNodes
  repeat' first
    | with_reducible assumption | intro _ | with_reducible apply modNet_steady
    | with_reducible apply setFld_steady

theorem noteNode_steady (s : State) (mac : Nat) (hst : Steady tb qu s) :
    Steady tb qu (State.noteNode s mac) := by
  unfold State.noteNode
  repeat' first
    | with_reducible assumption | intro _ | with_reducible apply modNet_steady
    | with_reducible apply showNodes_steady

theorem takeFrame_steady (s : State) (mac : Nat) (b : List Byte) (hst : Steady tb qu s) :
    Steady tb qu (State.takeFrame s mac b) := by
  unfold State.takeFrame
  repeat' first
    | with_reducible assumption | intro _ | with_reducible apply takeElem_steady
    | with_reducible apply skip_steady | with_reducible apply steady_ite | with_reducible apply steady_foldl

theorem validFrame_steady (s : State) (p mac ethertype : Nat) (tr : Option PrpTrailer) (b : List Byte) (hst : Steady tb qu s) :
    Steady tb qu (State.validFrame s p mac ethertype tr b) := by
  unfold State.validFrame
  repeat' first
    | with_reducible assumption | intro _ | with_reducible apply inc_steady | with_reducible apply setBit_steady
    | with_reducible apply noteNode_steady | with_reducible apply takeFrame_steady
    | with_reducible apply satInc_steady | with_reducible apply modNet_steady | with_reducible apply steady_ite
    | with_reducible apply steadyOut_next | split

theorem execEthFrameReceive_steady (port : EthPort) (fcsOk : Bool) (src : BitVec 48) (ethertype : BitVec 16) (trailer : Option PrpTrailer) (body : List Byte) (s : State) (hst : Steady tb qu s) :
    SteadyOut tb qu (execEthFrameReceive port fcsOk src ethertype trailer body s) := by
  unfold execEthFrameReceive
  repeat' first
    | with_reducible assumption | intro _ | with_reducible apply validFrame_steady
    | with_reducible apply satInc_steady | with_reducible apply steady_ite | with_reducible apply steadyOut_next

theorem execPrpSupervision_steady (s : State) (hst : Steady tb qu s) :
    SteadyOut tb qu (execPrpSupervision s) := by
  unfold execPrpSupervision
  repeat' first
    | with_reducible assumption | intro _ | with_reducible apply modNet_steady | with_reducible apply showNodes_steady
    | with_reducible apply steady_ite | with_reducible apply steadyOut_next

theorem execPathLost_steady (port : EthPort) (s : State) (hst : Steady tb qu s) :
    SteadyOut tb qu (execPathLost port s) := by
  unfold execPathLost
  repeat' first
    | with_reducible assumption | intro _ | with_reducible apply setBit_steady | with_reducible apply event_steady
    | with_reducible apply report_steady | with_reducible apply steady_ite | with_reducible apply steadyOut_next

theorem execLinkChange_steady (port : EthPort) (up low : Bool) (s : State) (hst : Steady tb qu s) :
    SteadyOut tb qu (execLinkChange port up low s) := by
  unfold execLinkChange
  repeat' first
    | with_reducible assumption | intro _ | with_reducible apply setBit_steady | with_reducible apply steady_ite
    | with_reducible apply steadyOut_next

theorem pcfgWritten_steady (s : State) (p : Nat) (hst : Steady tb qu s) :
    Steady tb qu (State.pcfgWritten s p) := by
  unfold State.pcfgWritten
  repeat' first
    | with_reducible assumption | intro _ | with_reducible apply setBit_steady
    | with_reducible apply dropElem_steady | with_reducible apply modNet_steady
    | with_reducible apply steady_ite | with_reducible apply steady_foldl

theorem canDiscard_steady (s : State) (c : Nat) (hst : Steady tb qu s) :
    Steady tb qu (State.canDiscard s c) := by
  unfold State.canDiscard
  repeat' first
    | with_reducible assumption | intro _ | with_reducible apply satInc_steady

theorem canElem_steady (s : State) (c src : Nat) (b : List Byte) (hst : Steady tb qu s) :
    Steady tb qu (State.canElem s c src b) := by
  unfold State.canElem
  repeat' first
    | with_reducible assumption | intro _ | with_reducible apply canDiscard_steady
    | with_reducible apply takeElem_steady | with_reducible apply steady_ite

theorem setPiece_steady (s : State) (c src typ : Nat) (x : Option Partial) (hst : Steady tb qu s) :
    Steady tb qu (State.setPiece s c src typ x) := by
  unfold State.setPiece
  repeat' first
    | with_reducible assumption | intro _ | with_reducible apply modNet_steady

theorem canSegment_steady (s : State) (c src typ seg tog : Nat) (b : List Byte) (hst : Steady tb qu s) :
    Steady tb qu (State.canSegment s c src typ seg tog b) := by
  unfold State.canSegment
  repeat' first
    | with_reducible assumption | intro _ | with_reducible apply setPiece_steady
    | with_reducible apply canDiscard_steady | with_reducible apply canElem_steady | with_reducible apply steady_ite
    | with_reducible apply steadyOut_next | split

theorem execCanFrameReceive_steady (c : CanPort) (ext : Bool) (id : BitVec 29) (data : List Byte) (s : State) (hst : Steady tb qu s) :
    SteadyOut tb qu (execCanFrameReceive c ext id data s) := by
  unfold execCanFrameReceive
  repeat' first
    | with_reducible assumption | intro _ | with_reducible apply canDiscard_steady | with_reducible apply inc_steady
    | with_reducible apply canElem_steady | with_reducible apply canSegment_steady | with_reducible apply steady_ite
    | with_reducible apply steadyOut_next

theorem dropCanQueue_steady (s : State) (c : Nat) (hst : Steady tb qu s) :
    Steady tb qu (State.dropCanQueue s c) := by
  unfold State.dropCanQueue
  repeat' first
    | with_reducible assumption | intro _ | with_reducible apply dropFrame_steady
    | with_reducible apply setCan_steady | with_reducible apply steady_ite | with_reducible apply steady_foldl

theorem execBusOff_steady (c : CanPort) (s : State) (hst : Steady tb qu s) :
    SteadyOut tb qu (execBusOff c s) := by
  unfold execBusOff
  repeat' first
    | with_reducible assumption | intro _ | with_reducible apply setFld_steady | with_reducible apply event_steady
    | with_reducible apply report_steady | with_reducible apply dropCanQueue_steady | with_reducible apply steady_ite
    | with_reducible apply steadyOut_next

theorem canActive_steady (s : State) (c : Nat) (hst : Steady tb qu s) :
    Steady tb qu (State.canActive s c) := by
  unfold State.canActive
  repeat' first
    | with_reducible assumption | intro _ | with_reducible apply setReg_steady

theorem execBusOffRecovery_steady (c : CanPort) (s : State) (hst : Steady tb qu s) :
    SteadyOut tb qu (execBusOffRecovery c s) := by
  unfold execBusOffRecovery
  repeat' first
    | with_reducible assumption | intro _ | with_reducible apply canActive_steady | with_reducible apply steady_ite
    | with_reducible apply steadyOut_next

theorem ccfgWritten_steady (s : State) (c : Nat) (old : Word) (hst : Steady tb qu s) :
    Steady tb qu (State.ccfgWritten s c old) := by
  unfold State.ccfgWritten
  repeat' first
    | with_reducible assumption | intro _ | with_reducible apply dropCanQueue_steady
    | with_reducible apply setReg_steady | with_reducible apply canActive_steady
    | with_reducible apply steady_ite

theorem frameSent_steady (s : State) (k : TxElem) (b : List Byte) (hst : Steady tb qu s) :
    Steady tb qu (State.frameSent s k b) := by
  unfold State.frameSent
  repeat' first
    | with_reducible assumption | intro _ | with_reducible apply modNet_steady | with_reducible apply modAssoc_steady
    | with_reducible apply steady_ite | with_reducible apply steadyOut_next | split

theorem ethSent_steady (s : State) (hst : Steady tb qu s) :
    Steady tb qu (State.ethSent s) := by
  unfold State.ethSent
  repeat' first
    | with_reducible assumption | intro _ | with_reducible apply modNet_steady | with_reducible apply frameSent_steady
    | with_reducible apply steady_ite | with_reducible apply steadyOut_next | split

theorem canSent_steady (s : State) (c : Nat) (hst : Steady tb qu s) :
    Steady tb qu (State.canSent s c) := by
  unfold State.canSent
  repeat' first
    | with_reducible assumption | intro _ | with_reducible apply setCan_steady | with_reducible apply modNet_steady
    | with_reducible apply steady_ite | with_reducible apply steadyOut_next | split

theorem execTransmissionComplete_steady (medium : Fin 3) (s : State) (hst : Steady tb qu s) :
    SteadyOut tb qu (execTransmissionComplete medium s) := by
  unfold execTransmissionComplete
  repeat' first
    | with_reducible assumption | intro _ | with_reducible apply ethSent_steady | with_reducible apply canSent_steady
    | with_reducible apply steady_ite | with_reducible apply steadyOut_next

theorem modJnl_steady (s : State) (g : JnlSt → JnlSt) (hst : Steady tb qu s) :
    Steady tb qu (State.modJnl s g) := by
  unfold State.modJnl
  repeat' first
    | with_reducible assumption | intro _ | with_reducible apply steady_ite | (simp only [steady_mk, steady_mkCore])

theorem setIndex_steady (s : State) (ix : List IndexEntry) (hst : Steady tb qu s) :
    Steady tb qu (State.setIndex s ix) := by
  unfold State.setIndex
  repeat' first
    | with_reducible assumption | intro _ | with_reducible apply modJnl_steady
    | with_reducible apply setFld_steady

theorem showLive_steady (s : State) (hst : Steady tb qu s) :
    Steady tb qu (State.showLive s) := by
  unfold State.showLive
  repeat' first
    | with_reducible assumption | intro _ | with_reducible apply setReg_steady

theorem showSegs_steady (s : State) (hst : Steady tb qu s) :
    Steady tb qu (State.showSegs s) := by
  unfold State.showSegs
  repeat' first
    | with_reducible assumption | intro _ | with_reducible apply setFld_steady | with_reducible apply steady_ite
    | (simp only [steady_mk, steady_mkCore]) | with_reducible apply steadyOut_next | split

theorem modSeg_steady (s : State) (k : Nat) (g : JSeg → JSeg) (hst : Steady tb qu s) :
    Steady tb qu (State.modSeg s k g) := by
  unfold State.modSeg
  repeat' first
    | with_reducible assumption | intro _ | with_reducible apply modJnl_steady

theorem countProg_steady (s : State) (n : Nat) (hst : Steady tb qu s) :
    Steady tb qu (State.countProg s n) := by
  unfold State.countProg
  repeat' first
    | with_reducible assumption | intro _ | with_reducible apply setPair_steady

theorem openSeg_steady (s : State) (k typ comp q : Nat) (hst : Steady tb qu s) :
    Steady tb qu (State.openSeg s k typ comp q) := by
  unfold State.openSeg
  repeat' first
    | with_reducible assumption | intro _ | with_reducible apply programBytes_steady
    | with_reducible apply countProg_steady | with_reducible apply modJnl_steady
    | with_reducible apply showSeg_steady | with_reducible apply showSegs_steady

theorem placeGroup_steady {s t : State} {len n a : Nat} (h : s.placeGroup len n = some (t, a))
    (hst : Steady tb qu s) : Steady tb qu t := by
  unfold State.placeGroup at h
  dsimp only at h
  split at h
  · cases h; exact hst
  · split at h
    · cases h
    · split at h
      · cases h
      · cases h; exact openSeg_steady _ _ _ _ _ hst

theorem offer_steady (s : State) (g : JGroup) (hst : Steady tb qu s) :
    Steady tb qu (State.offer s g) := by
  unfold State.offer
  repeat' first
    | with_reducible assumption | intro _ | with_reducible apply modJnl_steady

theorem showCaddy_steady (s : State) (hst : Steady tb qu s) :
    Steady tb qu (State.showCaddy s) := by
  unfold State.showCaddy
  repeat' first
    | with_reducible assumption | intro _ | with_reducible apply setFld_steady

theorem enterCaddy_steady (s : State) (g : JGroup) (hst : Steady tb qu s) :
    Steady tb qu (State.enterCaddy s g) := by
  unfold State.enterCaddy
  repeat' first
    | with_reducible assumption | intro _ | with_reducible apply modJnl_steady
    | with_reducible apply setPair_steady | with_reducible apply showCaddy_steady

theorem becomeFull_steady (s : State) (hst : Steady tb qu s) :
    Steady tb qu (State.becomeFull s) := by
  unfold State.becomeFull
  repeat' first
    | with_reducible assumption | intro _ | with_reducible apply setFld_steady
    | with_reducible apply event_steady | with_reducible apply report_steady | with_reducible apply steady_ite

theorem countRefused_steady (s : State) (v : Verdict) (hst : Steady tb qu s) :
    Steady tb qu (State.countRefused s v) := by
  unfold State.countRefused
  repeat' first
    | with_reducible assumption | intro _ | with_reducible apply becomeFull_steady
    | with_reducible apply event_steady | with_reducible apply satInc_steady
    | with_reducible apply report_steady | with_reducible apply steady_ite

theorem raiseMax_steady (s : State) (t : Stamp) (hst : Steady tb qu s) :
    Steady tb qu (State.raiseMax s t) := by
  unfold State.raiseMax
  repeat' first
    | with_reducible assumption | intro _ | with_reducible apply setPair_steady
    | with_reducible apply steady_ite

theorem freeFlash_steady (s : State) (k : Nat) (hst : Steady tb qu s) :
    Steady tb qu (State.freeFlash s k) := by
  unfold State.freeFlash
  repeat' first
    | with_reducible assumption | intro _ | with_reducible apply setFlash_steady | with_reducible apply steady_ite
    | (simp only [steady_mk, steady_mkCore])

theorem programGroup_steady (s : State) (g : JGroup) (q at_ : Nat) (hst : Steady tb qu s) :
    Steady tb qu (State.programGroup s g q at_) := by
  unfold State.programGroup
  repeat' first
    | with_reducible assumption | intro _ | with_reducible apply programBytes_steady
    | with_reducible apply countProg_steady | with_reducible apply modSeg_steady
    | with_reducible apply raiseMax_steady | with_reducible apply setIndex_steady
    | with_reducible apply steady_ite | with_reducible apply steady_foldl

theorem programFailed_steady (s : State) (at_ : Nat) (hst : Steady tb qu s) :
    Steady tb qu (State.programFailed s at_) := by
  unfold State.programFailed
  repeat' first
    | with_reducible assumption | intro _ | with_reducible apply freeFlash_steady
    | with_reducible apply countProg_steady | with_reducible apply modSeg_steady
    | with_reducible apply event_steady | with_reducible apply raise_steady

theorem showComp_steady (s : State) (hst : Steady tb qu s) :
    Steady tb qu (State.showComp s) := by
  unfold State.showComp
  repeat' first
    | with_reducible assumption | intro _ | with_reducible apply setFld_steady

theorem modComp_steady (s : State) (g : Compaction → Compaction) (hst : Steady tb qu s) :
    Steady tb qu (State.modComp s g) := by
  unfold State.modComp
  repeat' first
    | with_reducible assumption | intro _ | with_reducible apply modJnl_steady
    | with_reducible apply showComp_steady

theorem copyOne_steady {s t : State} {n a : Nat} {cur : Option Nat} {r : Nat × Nat × Nat}
    (h : s.copyOne n cur r = some (t, a)) (hst : Steady tb qu s) : Steady tb qu t := by
  unfold State.copyOne at h
  dsimp only at h
  split at h
  · cases h; exact hst
  · split at h
    · cases h
    · split at h
      · cases h
      · cases h; exact openSeg_steady _ _ _ _ _ hst

theorem planCopies_steady {rs : List (Nat × Nat × Nat)} {s t : State} {n : Nat} {cur : Option Nat}
    {ps : List (Nat × Nat × Nat)} (h : s.planCopies n rs cur = some (t, ps)) (hst : Steady tb qu s) :
    Steady tb qu t := by
  induction rs generalizing s cur t ps with
  | nil => cases h; exact hst
  | cons r rs ih =>
    unfold State.planCopies at h
    split at h
    · cases h
    · rename_i h1
      dsimp only at h
      split at h
      · cases h
      · rename_i h3
        cases h
        exact ih h3 (modSeg_steady _ _ _ (copyOne_steady h1 hst))

theorem programCopies_steady (s0 s : State) (ks : List Nat) (rs : List (Nat × Nat × Nat)) (ps : List (Nat × Nat × Nat)) (hst : Steady tb qu s0) (hst1 : Steady tb qu s) :
    Steady tb qu (State.programCopies s0 s ks rs ps) := by
  unfold State.programCopies
  repeat' first
    | with_reducible assumption | intro _ | with_reducible apply programBytes_steady
    | with_reducible apply countProg_steady | with_reducible apply modSeg_steady
    | with_reducible apply steady_ite | with_reducible apply steady_foldl

theorem moveIndex_steady (s : State) (hst : Steady tb qu s) :
    Steady tb qu (State.moveIndex s) := by
  unfold State.moveIndex
  repeat' first
    | with_reducible assumption | intro _ | with_reducible apply modJnl_steady

theorem beganCopying_steady (s : State) (hst : Steady tb qu s) :
    Steady tb qu (State.beganCopying s) := by
  unfold State.beganCopying
  repeat' first
    | with_reducible assumption | intro _ | with_reducible apply modComp_steady

theorem beganErasing_steady (s : State) (hst : Steady tb qu s) :
    Steady tb qu (State.beganErasing s) := by
  unfold State.beganErasing
  repeat' first
    | with_reducible assumption | intro _ | with_reducible apply moveIndex_steady
    | with_reducible apply modComp_steady | with_reducible apply setFld_steady | with_reducible apply steady_ite
    | with_reducible apply steady_foldl

theorem compactionEnded_steady (s : State) (hst : Steady tb qu s) :
    Steady tb qu (State.compactionEnded s) := by
  unfold State.compactionEnded
  repeat' first
    | with_reducible assumption | intro _ | with_reducible apply satInc_steady
    | with_reducible apply setFld_steady | with_reducible apply event_steady
    | with_reducible apply showLive_steady | with_reducible apply modComp_steady
    | with_reducible apply steady_ite

theorem jnlPowerFail_steady (s : State) (hst : Steady tb qu s) :
    Steady tb qu (State.jnlPowerFail s) := by
  unfold State.jnlPowerFail
  repeat' first
    | with_reducible assumption | intro _ | with_reducible apply setFld_steady
    | with_reducible apply steady_ite

theorem modUpd_steady (s : State) (g : UpdSt → UpdSt) (hst : Steady tb qu s) :
    Steady tb qu (State.modUpd s g) := by
  unfold State.modUpd
  repeat' first
    | with_reducible assumption | intro _ | with_reducible apply steady_ite | (simp only [steady_mk, steady_mkCore])

theorem putSlotByte_steady (s : State) (k i : Nat) (b : Byte) (hst : Steady tb qu s) :
    Steady tb qu (State.putSlotByte s k i b) := by
  unfold State.putSlotByte
  repeat' first
    | with_reducible assumption | intro _ | with_reducible apply setFlash_steady

theorem putSlot_steady (s : State) (k i : Nat) (bs : List Byte) (hst : Steady tb qu s) :
    Steady tb qu (State.putSlot s k i bs) := by
  unfold State.putSlot
  repeat' first
    | with_reducible assumption | intro _ | with_reducible apply putSlotByte_steady
    | with_reducible apply steady_ite | with_reducible apply steady_foldl

theorem setSlot_steady (s : State) (k st : Nat) (hst : Steady tb qu s) :
    Steady tb qu (State.setSlot s k st) := by
  unfold State.setSlot
  repeat' first
    | with_reducible assumption | intro _ | with_reducible apply setFld_steady

theorem clearSlot_steady (s : State) (k : Nat) (hst : Steady tb qu s) :
    Steady tb qu (State.clearSlot s k) := by
  unfold State.clearSlot
  repeat' first
    | with_reducible assumption | intro _ | with_reducible apply setSlot_steady
    | with_reducible apply setFld_steady | with_reducible apply setReg_steady | with_reducible apply steady_ite
    | with_reducible apply steady_foldl

theorem showImage_steady (s : State) (k : Nat) (b : List Byte) (hst : Steady tb qu s) :
    Steady tb qu (State.showImage s k b) := by
  unfold State.showImage
  repeat' first
    | with_reducible assumption | intro _ | with_reducible apply setFld_steady
    | with_reducible apply setReg_steady | with_reducible apply setSlot_steady | with_reducible apply steady_ite
    | with_reducible apply steady_foldl

theorem verifyAtStart_steady (s : State) (k : Nat) (hst : Steady tb qu s) :
    Steady tb qu (State.verifyAtStart s k) := by
  unfold State.verifyAtStart
  repeat' first
    | with_reducible assumption | intro _ | with_reducible apply clearSlot_steady
    | with_reducible apply setSlot_steady | with_reducible apply showImage_steady | with_reducible apply steady_ite
    | (simp only [steady_mk, steady_mkCore]) | with_reducible apply steadyOut_next | split

theorem setXfer_steady (s : State) (n : Nat) (hst : Steady tb qu s) :
    Steady tb qu (State.setXfer s n) := by
  unfold State.setXfer
  repeat' first
    | with_reducible assumption | intro _ | with_reducible apply setFld_steady

theorem openXfer_steady (s : State) (kind len master : Nat) (assoc : Option Nat) (number : Nat) (hst : Steady tb qu s) :
    Steady tb qu (State.openXfer s kind len master assoc number) := by
  unfold State.openXfer
  repeat' first
    | with_reducible assumption | intro _ | with_reducible apply modUpd_steady
    | with_reducible apply setXfer_steady | with_reducible apply setFld_steady
    | with_reducible apply setReg_steady | with_reducible apply clearSlot_steady

theorem imgStat_steady (s : State) (a number state reason next : Nat) (hst : Steady tb qu s) :
    Steady tb qu (State.imgStat s a number state reason next) := by
  unfold State.imgStat
  repeat' first
    | with_reducible assumption | intro _ | with_reducible apply sendTo_steady

theorem tellXfer_steady (s : State) (x : Transfer) (state reason : Nat) (hst : Steady tb qu s) :
    Steady tb qu (State.tellXfer s x state reason) := by
  unfold State.tellXfer
  repeat' first
    | with_reducible assumption | intro _ | with_reducible apply imgStat_steady | with_reducible apply event_steady
    | with_reducible apply steady_ite | with_reducible apply steadyOut_next | split

theorem execSlotEraseDone_steady (s : State) (hst : Steady tb qu s) :
    SteadyOut tb qu (execSlotEraseDone s) := by
  unfold execSlotEraseDone
  repeat' first
    | with_reducible assumption | intro _ | with_reducible apply eraseSegment_steady
    | with_reducible apply modUpd_steady | with_reducible apply setXfer_steady | with_reducible apply tellXfer_steady
    | with_reducible apply steady_ite | with_reducible apply steady_foldl | with_reducible apply steadyOut_next
    | with_reducible apply steadyOut_ite | split

theorem xferData_steady (s : State) (x : Transfer) (bs : List Byte) (hst : Steady tb qu s) :
    Steady tb qu (State.xferData s x bs) := by
  unfold State.xferData
  repeat' first
    | with_reducible assumption | intro _ | with_reducible apply putSlot_steady
    | with_reducible apply setSlot_steady | with_reducible apply modUpd_steady
    | with_reducible apply setReg_steady

theorem closeXfer_steady (s : State) (x : Transfer) (hst : Steady tb qu s) :
    Steady tb qu (State.closeXfer s x) := by
  unfold State.closeXfer
  repeat' first
    | with_reducible assumption | intro _ | with_reducible apply modUpd_steady
    | with_reducible apply setXfer_steady | with_reducible apply steady_ite

theorem endXfer_steady (s : State) (x : Transfer) (hst : Steady tb qu s) :
    Steady tb qu (State.endXfer s x) := by
  unfold State.endXfer
  repeat' first
    | with_reducible assumption | intro _ | with_reducible apply abortXfer_steady
    | with_reducible apply tellXfer_steady

theorem execVerificationDone_steady (s : State) (hst : Steady tb qu s) :
    SteadyOut tb qu (execVerificationDone s) := by
  unfold execVerificationDone
  repeat' first
    | with_reducible assumption | intro _ | with_reducible apply modUpd_steady | with_reducible apply showImage_steady
    | with_reducible apply setXfer_steady | with_reducible apply event_steady | with_reducible apply tellXfer_steady
    | with_reducible apply setSlot_steady | with_reducible apply setFld_steady | with_reducible apply setReg_steady
    | with_reducible apply steady_ite | (simp only [steady_mk, steady_mkCore]) | with_reducible apply steadyOut_next
    | split

theorem setAct_steady (s : State) (a : Option Activation) (hst : Steady tb qu s) :
    Steady tb qu (State.setAct s a) := by
  unfold State.setAct
  repeat' first
    | with_reducible assumption | intro _ | with_reducible apply modUpd_steady
    | with_reducible apply setFld_steady

theorem offerAct_steady (s : State) (k phase : Nat) (hst : Steady tb qu s) :
    Steady tb qu (State.offerAct s k phase) := by
  unfold State.offerAct
  repeat' first
    | with_reducible assumption | intro _ | with_reducible apply offer_steady

theorem activate_steady (s : State) (kind : Nat) (rollback : Bool) (hst : Steady tb qu s) :
    Steady tb qu (State.activate s kind rollback) := by
  unfold State.activate
  repeat' first
    | with_reducible assumption | intro _ | with_reducible apply setFld_steady | with_reducible apply event_steady
    | with_reducible apply setReg_steady | with_reducible apply setAct_steady | with_reducible apply offerAct_steady
    | with_reducible apply steady_ite | (simp only [steady_mk, steady_mkCore]) | with_reducible apply steadyOut_next
    | split

theorem noImage_steady (s : State) (hst : Steady tb qu s) :
    Steady tb qu (State.noImage s) := by
  unfold State.noImage
  repeat' first
    | with_reducible assumption | intro _ | with_reducible apply modUpd_steady | with_reducible apply event_steady
    | with_reducible apply report_steady | with_reducible apply steady_ite | (simp only [steady_mk, steady_mkCore])

theorem fallBack_steady (s : State) (a : Activation) (hst : Steady tb qu s) :
    Steady tb qu (State.fallBack s a) := by
  unfold State.fallBack
  repeat' first
    | with_reducible assumption | intro _ | with_reducible apply offerAct_steady | with_reducible apply setAct_steady
    | with_reducible apply noImage_steady | with_reducible apply steady_ite | (simp only [steady_mk, steady_mkCore])

theorem makeActive_steady (s : State) (k : Nat) (hst : Steady tb qu s) :
    Steady tb qu (State.makeActive s k) := by
  unfold State.makeActive
  repeat' first
    | with_reducible assumption | intro _ | with_reducible apply setSlot_steady | with_reducible apply modUpd_steady
    | with_reducible apply steady_ite | with_reducible apply steadyOut_next | split

theorem loadCode_steady (s : State) (im : Image) (hst : Steady tb qu s) :
    Steady tb qu (State.loadCode s im) := by
  unfold State.loadCode
  repeat' first
    | with_reducible assumption | intro _ | with_reducible apply setReg_steady
    | with_reducible apply setFld_steady | with_reducible apply steady_ite | with_reducible apply steady_foldl
    | with_reducible apply steady_filter | with_reducible apply steady_lanesMap

theorem firstRx_steady {s t : State} {a typ : Nat} {e : RxElem} (h : s.firstRx a typ = some (e, t))
    (hst : Steady tb qu s) : Steady tb qu t := by
  unfold State.firstRx at h
  split at h
  · cases h
  · cases h; exact modNet_steady _ _ hst

theorem onElem_steady (s : State) (a typ least : Nat) (g : State → RxElem → State) (hst : Steady tb qu s)
    (hg : ∀ s e, Steady tb qu s → Steady tb qu (g s e)) : Steady tb qu (s.onElem a typ least g) := by
  unfold State.onElem
  split
  · exact hst
  · rename_i h
    have := firstRx_steady h hst
    exact steady_ite (hg _ _ this) (skip_steady _ this)

theorem deliver_steady (s : State) (e : RxElem) (v : TWord) (aux : Nat) (pay : List (BitVec 64)) (hst : Steady tb qu s) :
    Steady tb qu (State.deliver s e v aux pay) := by
  unfold State.deliver
  repeat' first
    | with_reducible assumption | intro _ | with_reducible apply send_steady
    | with_reducible apply skip_steady | with_reducible apply steady_ite

theorem execPoint_steady (a : Assoc) (s : State) (hst : Steady tb qu s) :
    SteadyOut tb qu (execPoint a s) := by
  unfold execPoint
  repeat' first
    | with_reducible assumption | intro _ | with_reducible apply onElem_steady | with_reducible apply deliver_steady
    | with_reducible apply steady_ite | with_reducible apply steadyOut_next

theorem execAckElement_steady (a : Assoc) (s : State) (hst : Steady tb qu s) :
    SteadyOut tb qu (execAckElement a s) := by
  unfold execAckElement
  repeat' first
    | with_reducible assumption | intro _ | with_reducible apply onElem_steady | with_reducible apply deliver_steady
    | with_reducible apply steady_ite | with_reducible apply steadyOut_next

theorem execAnswerElement_steady (a : Assoc) (s : State) (hst : Steady tb qu s) :
    SteadyOut tb qu (execAnswerElement a s) := by
  unfold execAnswerElement
  repeat' first
    | with_reducible assumption | intro _ | with_reducible apply onElem_steady | with_reducible apply deliver_steady
    | with_reducible apply steady_ite | with_reducible apply steadyOut_next

theorem execMsg_steady (a : Assoc) (s : State) (hst : Steady tb qu s) :
    SteadyOut tb qu (execMsg a s) := by
  unfold execMsg
  repeat' first
    | with_reducible assumption | intro _ | with_reducible apply onElem_steady | with_reducible apply deliver_steady
    | with_reducible apply steady_ite | with_reducible apply steadyOut_next

theorem execSubscribe_steady (a : Assoc) (s : State) (hst : Steady tb qu s) :
    SteadyOut tb qu (execSubscribe a s) := by
  unfold execSubscribe
  repeat' first
    | with_reducible assumption | intro _ | with_reducible apply onElem_steady | with_reducible apply modAssoc_steady
    | with_reducible apply setFld_steady | with_reducible apply steady_ite | with_reducible apply steadyOut_next

theorem execHello_steady (a : Assoc) (s : State) (hst : Steady tb qu s) : SteadyOut tb qu (execHello a s) := by
  refine steadyOut_next ?_
  split
  · exact hst
  · rename_i h
    have := firstRx_steady h hst
    exact steady_ite this (steady_ite (takeHello_steady _ _ _ this) (skip_steady _ this))

theorem sendResp_steady (s : State) (a : Nat) (r : RegResp) (hst : Steady tb qu s) :
    Steady tb qu (State.sendResp s a r) := by
  unfold State.sendResp
  repeat' first
    | with_reducible assumption | intro _ | with_reducible apply sendTo_steady

theorem keepResp_steady (s : State) (a : Nat) (r : RegResp) (hst : Steady tb qu s) :
    Steady tb qu (State.keepResp s a r) := by
  unfold State.keepResp
  repeat' first
    | with_reducible assumption | intro _ | with_reducible apply modAssoc_steady
    | with_reducible apply sendResp_steady

theorem countDenied_steady (s : State) (hst : Steady tb qu s) :
    Steady tb qu (State.countDenied s) := by
  unfold State.countDenied
  repeat' first
    | with_reducible assumption | intro _ | with_reducible apply satInc_steady

theorem regRequest_steady (s : State) (e : RxElem) (write : Bool) (hst : Steady tb qu s) :
    Steady tb qu (State.regRequest s e write) := by
  unfold State.regRequest
  repeat' first
    | with_reducible assumption | intro _ | with_reducible apply sendResp_steady
    | with_reducible apply countDenied_steady | with_reducible apply keepResp_steady
    | with_reducible apply modNet_steady | with_reducible apply steady_ite | (simp only [steady_mk, steady_mkCore])
    | with_reducible apply steadyOut_next | split

theorem execRegRd_steady (a : Assoc) (s : State) (hst : Steady tb qu s) :
    SteadyOut tb qu (execRegRd a s) := by
  unfold execRegRd
  repeat' first
    | with_reducible assumption | intro _ | with_reducible apply onElem_steady
    | with_reducible apply regRequest_steady | with_reducible apply steady_ite | with_reducible apply steadyOut_next

theorem execRegWr_steady (a : Assoc) (s : State) (hst : Steady tb qu s) :
    SteadyOut tb qu (execRegWr a s) := by
  unfold execRegWr
  repeat' first
    | with_reducible assumption | intro _ | with_reducible apply onElem_steady
    | with_reducible apply regRequest_steady | with_reducible apply steady_ite | with_reducible apply steadyOut_next

theorem execImgOpen_steady (a : Assoc) (s : State) (hst : Steady tb qu s) :
    SteadyOut tb qu (execImgOpen a s) := by
  unfold execImgOpen
  repeat' first
    | with_reducible assumption | intro _ | with_reducible apply onElem_steady | with_reducible apply imgStat_steady
    | with_reducible apply openXfer_steady | with_reducible apply tellXfer_steady | with_reducible apply steady_ite
    | (simp only [steady_mk, steady_mkCore]) | with_reducible apply steadyOut_next | split

theorem execImgData_steady (a : Assoc) (s : State) (hst : Steady tb qu s) :
    SteadyOut tb qu (execImgData a s) := by
  unfold execImgData
  repeat' first
    | with_reducible assumption | intro _ | with_reducible apply onElem_steady | with_reducible apply xferData_steady
    | with_reducible apply imgStat_steady | with_reducible apply steady_ite | with_reducible apply steadyOut_next
    | split

theorem execImgClose_steady (a : Assoc) (s : State) (hst : Steady tb qu s) :
    SteadyOut tb qu (execImgClose a s) := by
  unfold execImgClose
  repeat' first
    | with_reducible assumption | intro _ | with_reducible apply onElem_steady | with_reducible apply closeXfer_steady
    | with_reducible apply endXfer_steady | with_reducible apply steady_ite | with_reducible apply steadyOut_next
    | split

theorem execImgTimeout_steady (s : State) (hst : Steady tb qu s) :
    SteadyOut tb qu (execImgTimeout s) := by
  unfold execImgTimeout
  repeat' first
    | with_reducible assumption | intro _ | with_reducible apply endXfer_steady | with_reducible apply steady_ite
    | with_reducible apply steadyOut_next | split

theorem execHelloTimer_steady (a : Assoc) (s : State) (hst : Steady tb qu s) :
    SteadyOut tb qu (execHelloTimer a s) := by
  unfold execHelloTimer
  repeat' first
    | with_reducible assumption | intro _ | with_reducible apply sendHello_steady | with_reducible apply steady_ite
    | with_reducible apply steadyOut_next

theorem execAssociationTimeout_steady (a : Assoc) (s : State) (hst : Steady tb qu s) :
    SteadyOut tb qu (execAssociationTimeout a s) := by
  unfold execAssociationTimeout
  repeat' first
    | with_reducible assumption | intro _ | with_reducible apply assocDown_steady | with_reducible apply steady_ite
    | with_reducible apply steadyOut_next

theorem acfgWrite_steady (s : State) (a : Nat) (w : Word) (hst : Steady tb qu s) :
    Steady tb qu (State.acfgWrite s a w) := by
  unfold State.acfgWrite
  repeat' first
    | with_reducible assumption | intro _ | with_reducible apply assocDown_steady
    | with_reducible apply setReg_steady | with_reducible apply sendHello_steady
    | with_reducible apply steady_ite

theorem allDown_steady (s : State) (hst : Steady tb qu s) :
    Steady tb qu (State.allDown s) := by
  unfold State.allDown
  repeat' first
    | with_reducible assumption | intro _ | with_reducible apply assocDown_steady
    | with_reducible apply steady_ite | with_reducible apply steady_foldl

theorem execPtpAnnounce_steady (p : EthPort) (d : PtpData) (utcValid : Bool) (utcOfs : BitVec 16) (s : State) (hst : Steady tb qu s) :
    SteadyOut tb qu (execPtpAnnounce p d utcValid utcOfs s) := by
  unfold execPtpAnnounce
  repeat' first
    | with_reducible assumption | intro _ | with_reducible apply modNet_steady | with_reducible apply setFld_steady
    | with_reducible apply setReg_steady | with_reducible apply setBit_steady | with_reducible apply steady_ite
    | with_reducible apply steadyOut_next

theorem execPtpDelayResponse_steady (ns : BitVec 32) (s : State) (hst : Steady tb qu s) :
    SteadyOut tb qu (execPtpDelayResponse ns s) := by
  unfold execPtpDelayResponse
  repeat' first
    | with_reducible assumption | intro _ | with_reducible apply setReg_steady | with_reducible apply steady_ite
    | with_reducible apply steadyOut_next

theorem setValid_steady (s : State) (v : Bool) (hst : Steady tb qu s) :
    Steady tb qu (State.setValid s v) := by
  unfold State.setValid
  repeat' first
    | with_reducible assumption | intro _ | with_reducible apply setBit_steady
    | with_reducible apply event_steady | with_reducible apply steady_ite

theorem moveOfs_steady (s : State) (theta : Int) (hst : Steady tb qu s) :
    Steady tb qu (State.moveOfs s theta) := by
  unfold State.moveOfs
  repeat' first
    | with_reducible assumption | intro _ | with_reducible apply setPair_steady

theorem setRate_steady (s : State) (ppb : Int) (hst : Steady tb qu s) :
    Steady tb qu (State.setRate s ppb) := by
  unfold State.setRate
  repeat' first
    | with_reducible assumption | intro _ | with_reducible apply setReg_steady

theorem setDisc_steady (s : State) (on : Bool) (hst : Steady tb qu s) :
    Steady tb qu (State.setDisc s on) := by
  unfold State.setDisc
  repeat' first
    | with_reducible assumption | intro _ | with_reducible apply setBit_steady

theorem acquire_steady (s : State) (theta : Int) (hst : Steady tb qu s) :
    Steady tb qu (State.acquire s theta) := by
  unfold State.acquire
  repeat' first
    | with_reducible assumption | intro _ | with_reducible apply moveOfs_steady
    | with_reducible apply setFld_steady | with_reducible apply setValid_steady
    | with_reducible apply modNet_steady

theorem countGood_steady (s : State) (theta : Int) (hst : Steady tb qu s) :
    Steady tb qu (State.countGood s theta) := by
  unfold State.countGood
  repeat' first
    | with_reducible assumption | intro _ | with_reducible apply modNet_steady
    | with_reducible apply setFld_steady | with_reducible apply setValid_steady
    | with_reducible apply event_steady | with_reducible apply steady_ite

theorem syncLocked_steady (s : State) (theta : Int) (hst : Steady tb qu s) :
    Steady tb qu (State.syncLocked s theta) := by
  unfold State.syncLocked
  repeat' first
    | with_reducible assumption | intro _ | with_reducible apply modNet_steady
    | with_reducible apply acquire_steady | with_reducible apply event_steady
    | with_reducible apply report_steady | with_reducible apply steady_ite

theorem execPtpSync_steady (p : EthPort) (ident theta : BitVec 64) (rate : BitVec 32) (s : State) (hst : Steady tb qu s) :
    SteadyOut tb qu (execPtpSync p ident theta rate s) := by
  unfold execPtpSync
  repeat' first
    | with_reducible assumption | intro _ | with_reducible apply setFld_steady | with_reducible apply setReg_steady
    | with_reducible apply setRate_steady | with_reducible apply setDisc_steady | with_reducible apply acquire_steady
    | with_reducible apply syncLocked_steady | with_reducible apply countGood_steady | with_reducible apply steady_ite
    | with_reducible apply steadyOut_next | split

theorem execSyncLoss_steady (both : Bool) (s : State) (hst : Steady tb qu s) :
    SteadyOut tb qu (execSyncLoss both s) := by
  unfold execSyncLoss
  repeat' first
    | with_reducible assumption | intro _ | with_reducible apply setFld_steady | with_reducible apply setValid_steady
    | with_reducible apply modNet_steady | with_reducible apply steady_ite | with_reducible apply steadyOut_next

theorem execHoldoverExpiry_steady (s : State) (hst : Steady tb qu s) :
    SteadyOut tb qu (execHoldoverExpiry s) := by
  unfold execHoldoverExpiry
  repeat' first
    | with_reducible assumption | intro _ | with_reducible apply setFld_steady | with_reducible apply setValid_steady
    | with_reducible apply setRate_steady | with_reducible apply setDisc_steady | with_reducible apply modNet_steady
    | with_reducible apply steady_ite | with_reducible apply steadyOut_next

theorem execRtcShipSet_steady (s : State) (hst : Steady tb qu s) :
    SteadyOut tb qu (execRtcShipSet s) := by
  unfold execRtcShipSet
  repeat' first
    | with_reducible assumption | intro _ | with_reducible apply stageTime_steady
    | with_reducible apply commitTime_steady | with_reducible apply steady_ite | with_reducible apply steadyOut_next
    | split

theorem sendCanAll_steady (s : State) (c typ : Nat) (b : List Byte) (hst : Steady tb qu s) :
    Steady tb qu (State.sendCanAll s c typ b) := by
  unfold State.sendCanAll
  repeat' first
    | with_reducible assumption | intro _ | with_reducible apply queueCan_steady | with_reducible apply event_steady
    | with_reducible apply steady_ite | with_reducible apply steadyOut_next | with_reducible apply SteadyOpt.getD

theorem execTimeElementTimer_steady (s : State) (hst : Steady tb qu s) :
    SteadyOut tb qu (execTimeElementTimer s) := by
  unfold execTimeElementTimer
  repeat' first
    | with_reducible assumption | intro _ | with_reducible apply sendTo_steady
    | with_reducible apply sendCanAll_steady | with_reducible apply steady_ite | with_reducible apply steady_foldl
    | with_reducible apply steadyOut_next | with_reducible apply steadyOut_ite | split

end Sys2Proof.Laws
end

