-- ==== Sys2Proof/Laws/SteadyRecords.lean ====
section
/-! SUPPORT. Steadiness of the journal port, the panel, resets, faults, the supply and the lamp room: one lemma for each operation and each
meaning. -/

set_option Elab.async false

namespace Sys2Proof.Laws

open Sys2Proof.Machine

set_option linter.unusedSimpArgs false
set_option linter.unusedVariables false

variable {tb : Stamp} {qu : List Instr}


theorem eccCorrected_steady (s : State) (at_ : Nat) (hst : Steady tb qu s) :
    Steady tb qu (State.eccCorrected s at_) := by
  unfold State.eccCorrected
  repeat' first
    | with_reducible assumption | intro _ | with_reducible apply event_steady
    | with_reducible apply raise_steady

theorem pendInterrupt_steady (s : State) (n : Nat) (hst : Steady tb qu s) :
    Steady tb qu (State.pendInterrupt s n) := by
  unfold State.pendInterrupt
  repeat' first
    | with_reducible assumption | intro _ | with_reducible apply steady_ite | (simp only [steady_mk, steady_mkCore])

theorem showRecord_steady (s : State) (e : IndexEntry) (hst : Steady tb qu s) :
    Steady tb qu (State.showRecord s e) := by
  unfold State.showRecord
  repeat' first
    | with_reducible assumption | intro _ | with_reducible apply setReg_steady
    | with_reducible apply setFld_steady | with_reducible apply setPair_steady | with_reducible apply steady_ite
    | with_reducible apply steady_foldl

theorem look_steady (s : State) (found : Option IndexEntry) (corr : Bool) (hst : Steady tb qu s) :
    Steady tb qu (State.look s found corr) := by
  unfold State.look
  repeat' first
    | with_reducible assumption | intro _ | with_reducible apply setFld_steady
    | with_reducible apply showRecord_steady | with_reducible apply eccCorrected_steady
    | with_reducible apply pendInterrupt_steady | with_reducible apply steady_ite
    | with_reducible apply steadyOut_next | split

theorem lookWritten_steady (s : State) (w : Word) (corr : Bool) (hst : Steady tb qu s) :
    Steady tb qu (State.lookWritten s w corr) := by
  unfold State.lookWritten
  repeat' first
    | with_reducible assumption | intro _ | with_reducible apply look_steady

theorem setWriter_steady (s : State) (m : Nat) (w : WriterSt) (hst : Steady tb qu s) :
    Steady tb qu (State.setWriter s m w) := by
  unfold State.setWriter
  repeat' first
    | with_reducible assumption | intro _ | with_reducible apply modJnl_steady
    | with_reducible apply setBit_steady | with_reducible apply setFld_steady

theorem setResult_steady (s : State) (m r : Nat) (hst : Steady tb qu s) :
    Steady tb qu (State.setResult s m r) := by
  unfold State.setResult
  repeat' first
    | with_reducible assumption | intro _ | with_reducible apply setFld_steady

theorem offerMaster_steady (s : State) (m : Nat) (rs : List JRec) (hst : Steady tb qu s) :
    Steady tb qu (State.offerMaster s m rs) := by
  unfold State.offerMaster
  repeat' first
    | with_reducible assumption | intro _ | with_reducible apply setResult_steady
    | with_reducible apply offer_steady | with_reducible apply steady_ite

theorem groupOpen_steady (s : State) (m : Nat) (hst : Steady tb qu s) :
    Steady tb qu (State.groupOpen s m) := by
  unfold State.groupOpen
  repeat' first
    | with_reducible assumption | intro _ | with_reducible apply setWriter_steady
    | with_reducible apply steady_ite

theorem append_steady (s : State) (m : Nat) (hst : Steady tb qu s) :
    Steady tb qu (State.append s m) := by
  unfold State.append
  repeat' first
    | with_reducible assumption | intro _ | with_reducible apply groupOpen_steady
    | with_reducible apply setWriter_steady | with_reducible apply offerMaster_steady
    | with_reducible apply steady_ite

theorem groupClose_steady (s : State) (m : Nat) (hst : Steady tb qu s) :
    Steady tb qu (State.groupClose s m) := by
  unfold State.groupClose
  repeat' first
    | with_reducible assumption | intro _ | with_reducible apply groupOpen_steady
    | with_reducible apply setWriter_steady | with_reducible apply offerMaster_steady
    | with_reducible apply steady_ite

theorem wcmdWritten_steady (s : State) (m : Nat) (w : Word) (hst : Steady tb qu s) :
    Steady tb qu (State.wcmdWritten s m w) := by
  unfold State.wcmdWritten
  repeat' first
    | with_reducible assumption | intro _ | with_reducible apply groupOpen_steady
    | with_reducible apply append_steady | with_reducible apply groupClose_steady
    | with_reducible apply steady_ite

theorem fcmdWritten_steady (s : State) (w : Word) (hst : Steady tb qu s) :
    Steady tb qu (State.fcmdWritten s w) := by
  unfold State.fcmdWritten
  repeat' first
    | with_reducible assumption | intro _ | with_reducible apply modJnl_steady
    | with_reducible apply setBit_steady

theorem rawEnds_steady (s : State) (r : Nat) (hst : Steady tb qu s) :
    Steady tb qu (State.rawEnds s r) := by
  unfold State.rawEnds
  repeat' first
    | with_reducible assumption | intro _ | with_reducible apply modJnl_steady
    | with_reducible apply setBit_steady | with_reducible apply setFld_steady

theorem flashError_steady (s : State) (at_ : Nat) (hst : Steady tb qu s) :
    Steady tb qu (State.flashError s at_) := by
  unfold State.flashError
  repeat' first
    | with_reducible assumption | intro _ | with_reducible apply event_steady
    | with_reducible apply raise_steady

theorem evrForget_steady (s : State) (seg : Nat) (hst : Steady tb qu s) :
    Steady tb qu (State.evrForget s seg) := by
  unfold State.evrForget
  repeat' first
    | with_reducible assumption | intro _ | with_reducible apply modEvr_steady
    | with_reducible apply steady_ite

theorem execRawFlashDone_steady (ok : Bool) (s : State) (hst : Steady tb qu s) :
    SteadyOut tb qu (execRawFlashDone ok s) := by
  unfold execRawFlashDone
  repeat' first
    | with_reducible assumption | intro _ | with_reducible apply setReg_steady | with_reducible apply rawEnds_steady
    | with_reducible apply setFlash_steady | with_reducible apply freeFlash_steady
    | with_reducible apply flashError_steady | with_reducible apply eraseSegment_steady
    | with_reducible apply evrForget_steady | with_reducible apply showSeg_steady | with_reducible apply modJnl_steady
    | with_reducible apply steady_ite | with_reducible apply steady_foldl | with_reducible apply steadyOut_next
    | with_reducible apply steadyOut_ite | split

theorem countCorrupt_steady (s : State) (n : Nat) (hst : Steady tb qu s) :
    Steady tb qu (State.countCorrupt s n) := by
  unfold State.countCorrupt
  repeat' first
    | with_reducible assumption | intro _ | with_reducible apply event_steady
    | with_reducible apply satAdd_steady | with_reducible apply steady_ite | with_reducible apply steady_foldl

theorem formatJournal_steady (s : State) (hst : Steady tb qu s) :
    Steady tb qu (State.formatJournal s) := by
  unfold State.formatJournal
  repeat' first
    | with_reducible assumption | intro _ | with_reducible apply eraseSegment_steady
    | with_reducible apply setFld_steady | with_reducible apply steady_ite | with_reducible apply steady_foldl

theorem showHeaders_steady (s : State) (hst : Steady tb qu s) :
    Steady tb qu (State.showHeaders s) := by
  unfold State.showHeaders
  repeat' first
    | with_reducible assumption | intro _ | with_reducible apply showSeg_steady
    | with_reducible apply steady_ite | with_reducible apply steady_foldl

theorem recoverScan_steady (s : State) (hst : Steady tb qu s) :
    Steady tb qu (State.recoverScan s) := by
  unfold State.recoverScan
  repeat' first
    | with_reducible assumption | intro _ | with_reducible apply countCorrupt_steady
    | with_reducible apply setFld_steady | with_reducible apply event_steady
    | with_reducible apply eraseSegment_steady | with_reducible apply modJnl_steady
    | with_reducible apply setIndex_steady | with_reducible apply showLive_steady
    | with_reducible apply showSegs_steady | with_reducible apply showComp_steady
    | with_reducible apply steady_ite | with_reducible apply steady_foldl

theorem execJournalRecovery_steady (corr : Bool) (s : State) (hst : Steady tb qu s) :
    SteadyOut tb qu (execJournalRecovery corr s) := by
  unfold execJournalRecovery
  repeat' first
    | with_reducible assumption | intro _ | with_reducible apply showHeaders_steady
    | with_reducible apply event_steady | with_reducible apply report_steady
    | with_reducible apply formatJournal_steady | with_reducible apply recoverScan_steady
    | with_reducible apply steady_ite | with_reducible apply steadyOut_next

theorem endRecovery_steady (s : State) (ms : Nat) (hst : Steady tb qu s) :
    Steady tb qu (State.endRecovery s ms) := by
  unfold State.endRecovery
  repeat' first
    | with_reducible assumption | intro _ | with_reducible apply setPair_steady | with_reducible apply setFld_steady
    | with_reducible apply modJnl_steady | with_reducible apply event_steady | with_reducible apply steady_ite
    | with_reducible apply steadyOut_next | split

theorem modPanel_steady (s : State) (g : PanelSt → PanelSt) (hst : Steady tb qu s) :
    Steady tb qu (State.modPanel s g) := by
  unfold State.modPanel
  repeat' first
    | with_reducible assumption | intro _ | with_reducible apply steady_ite | (simp only [steady_mk, steady_mkCore])

theorem modSegment_steady (s : State) (n : Nat) (g : PanelSeg → PanelSeg) (hst : Steady tb qu s) :
    Steady tb qu (State.modSegment s n g) := by
  unfold State.modSegment
  repeat' first
    | with_reducible assumption | intro _ | with_reducible apply modPanel_steady

theorem panelEvent_steady (s : State) (code n : Nat) (hst : Steady tb qu s) :
    Steady tb qu (State.panelEvent s code n) := by
  unfold State.panelEvent
  repeat' first
    | with_reducible assumption | intro _ | with_reducible apply send_steady

theorem panelFault_steady (s : State) (f : Fld) (k inst : Nat) (hst : Steady tb qu s) :
    Steady tb qu (State.panelFault s f k inst) := by
  unfold State.panelFault
  repeat' first
    | with_reducible assumption | intro _ | with_reducible apply event_steady
    | with_reducible apply raise_steady

theorem waveCommitted_steady (s : State) (hst : Steady tb qu s) :
    Steady tb qu (State.waveCommitted s) := by
  unfold State.waveCommitted
  repeat' first
    | with_reducible assumption | intro _ | with_reducible apply modPanel_steady
    | with_reducible apply event_steady | with_reducible apply steady_ite

theorem applyTable_steady (s : State) (hst : Steady tb qu s) :
    Steady tb qu (State.applyTable s) := by
  unfold State.applyTable
  repeat' first
    | with_reducible assumption | intro _ | with_reducible apply setReg_steady | with_reducible apply setFld_steady
    | with_reducible apply modPanel_steady | with_reducible apply steady_ite | with_reducible apply steady_foldl
    | with_reducible apply steadyOut_next | with_reducible apply steadyOut_ite | split

theorem panelRecord_steady (s : State) (kind : Nat) (o : JOrigin) (payload : List Word) (hst : Steady tb qu s) :
    Steady tb qu (State.panelRecord s kind o payload) := by
  unfold State.panelRecord
  repeat' first
    | with_reducible assumption | intro _ | with_reducible apply offer_steady

theorem showIntent_steady (s : State) (hst : Steady tb qu s) :
    Steady tb qu (State.showIntent s) := by
  unfold State.showIntent
  repeat' first
    | with_reducible assumption | intro _ | with_reducible apply setBit_steady

theorem postIntent_steady (s : State) (phase : Nat) (hst : Steady tb qu s) :
    Steady tb qu (State.postIntent s phase) := by
  unfold State.postIntent
  repeat' first
    | with_reducible assumption | intro _ | with_reducible apply panelRecord_steady
    | with_reducible apply modPanel_steady | with_reducible apply showIntent_steady

theorem intentCommitted_steady (s : State) (hst : Steady tb qu s) :
    Steady tb qu (State.intentCommitted s) := by
  unfold State.intentCommitted
  repeat' first
    | with_reducible assumption | intro _ | with_reducible apply modPanel_steady
    | with_reducible apply showIntent_steady

theorem intentRefused_steady (s : State) (hst : Steady tb qu s) :
    Steady tb qu (State.intentRefused s) := by
  unfold State.intentRefused
  repeat' first
    | with_reducible assumption | intro _ | with_reducible apply modPanel_steady
    | with_reducible apply showIntent_steady | with_reducible apply panelFault_steady

theorem setTarget_steady (s : State) (n level : Nat) (hst : Steady tb qu s) :
    Steady tb qu (State.setTarget s n level) := by
  unfold State.setTarget
  repeat' first
    | with_reducible assumption | intro _ | with_reducible apply modSegment_steady

theorem drive_steady (s : State) (n : Nat) (plus : Bool) (k : Nat) (hst : Steady tb qu s) :
    Steady tb qu (State.drive s n plus k) := by
  unfold State.drive
  repeat' first
    | with_reducible assumption | intro _ | with_reducible apply setReg_steady
    | with_reducible apply modSegment_steady

theorem setRun_steady (s : State) (n : Nat) (r : Option PanelRun) (hst : Steady tb qu s) :
    Steady tb qu (State.setRun s n r) := by
  unfold State.setRun
  repeat' first
    | with_reducible assumption | intro _ | with_reducible apply modSegment_steady

theorem settleSeg_steady (s : State) (n : Nat) (r : PanelRun) (hst : Steady tb qu s) :
    Steady tb qu (State.settleSeg s n r) := by
  unfold State.settleSeg
  repeat' first
    | with_reducible assumption | intro _ | with_reducible apply setRun_steady
    | with_reducible apply modSegment_steady | with_reducible apply panelEvent_steady
    | with_reducible apply steady_ite

theorem balanceTick_steady (s : State) (n : Nat) (r : PanelRun) (plus : Bool) (hst : Steady tb qu s) :
    Steady tb qu (State.balanceTick s n r plus) := by
  unfold State.balanceTick
  repeat' first
    | with_reducible assumption | intro _ | with_reducible apply settleSeg_steady
    | with_reducible apply drive_steady | with_reducible apply steady_ite

theorem waveTick_steady (s : State) (n : Nat) (r : PanelRun) (plus : Bool) (hst : Steady tb qu s) :
    Steady tb qu (State.waveTick s n r plus) := by
  unfold State.waveTick
  repeat' first
    | with_reducible assumption | intro _ | with_reducible apply setRun_steady
    | with_reducible apply panelFault_steady | with_reducible apply drive_steady
    | with_reducible apply steady_ite

theorem boundary_steady (s : State) (n : Nat) (r : PanelRun) (hst : Steady tb qu s) :
    Steady tb qu (State.boundary s n r) := by
  unfold State.boundary
  repeat' first
    | with_reducible assumption | intro _ | with_reducible apply setRun_steady
    | with_reducible apply event_steady | with_reducible apply satInc_steady
    | with_reducible apply panelEvent_steady | with_reducible apply steady_ite

theorem noteDriven_steady (s : State) (hst : Steady tb qu s) :
    Steady tb qu (State.noteDriven s) := by
  unfold State.noteDriven
  repeat' first
    | with_reducible assumption | intro _ | with_reducible apply modPanel_steady
    | with_reducible apply steady_ite

theorem tickSegment_steady (s : State) (n : Nat) (hst : Steady tb qu s) :
    Steady tb qu (State.tickSegment s n) := by
  unfold State.tickSegment
  repeat' first
    | with_reducible assumption | intro _ | with_reducible apply boundary_steady
    | with_reducible apply modSegment_steady | with_reducible apply noteDriven_steady
    | with_reducible apply balanceTick_steady | with_reducible apply waveTick_steady | with_reducible apply steady_ite
    | (simp only [steady_mk, steady_mkCore]) | with_reducible apply steadyOut_next | split

theorem showSegment_steady (s : State) (n : Nat) (hst : Steady tb qu s) :
    Steady tb qu (State.showSegment s n) := by
  unfold State.showSegment
  repeat' first
    | with_reducible assumption | intro _ | with_reducible apply setFld_steady
    | with_reducible apply setReg_steady

theorem showLight_steady (s : State) (hst : Steady tb qu s) :
    Steady tb qu (State.showLight s) := by
  unfold State.showLight
  repeat' first
    | with_reducible assumption | intro _ | with_reducible apply setBit_steady

theorem showPanel_steady (s : State) (hst : Steady tb qu s) :
    Steady tb qu (State.showPanel s) := by
  unfold State.showPanel
  repeat' first
    | with_reducible assumption | intro _ | with_reducible apply showSegment_steady
    | with_reducible apply setFld_steady | with_reducible apply showLight_steady
    | with_reducible apply steady_ite | with_reducible apply steady_foldl

theorem setPhase_steady (s : State) (p : Nat) (hst : Steady tb qu s) :
    Steady tb qu (State.setPhase s p) := by
  unfold State.setPhase
  repeat' first
    | with_reducible assumption | intro _ | with_reducible apply setFld_steady

theorem panelTarget_steady (s : State) (n level tag : Nat) (hst : Steady tb qu s) :
    Steady tb qu (State.panelTarget s n level tag) := by
  unfold State.panelTarget
  repeat' first
    | with_reducible assumption | intro _ | with_reducible apply modPanel_steady

theorem takeTargets_steady (s : State) (hst : Steady tb qu s) :
    Steady tb qu (State.takeTargets s).1 := by
  unfold State.takeTargets
  repeat' first
    | with_reducible assumption | intro _ | with_reducible apply modSegment_steady
    | with_reducible apply modPanel_steady | with_reducible apply steady_ite | with_reducible apply steady_ite_1
    | with_reducible apply steady_foldl

theorem beginUpdate_steady (s : State) (hst : Steady tb qu s) :
    Steady tb qu (State.beginUpdate s) := by
  unfold State.beginUpdate
  repeat' first
    | with_reducible assumption | intro _ | with_reducible apply setBit_steady
    | with_reducible apply modPanel_steady | with_reducible apply setTarget_steady
    | with_reducible apply panelEvent_steady | with_reducible apply postIntent_steady

theorem endUpdate_steady (s : State) (hst : Steady tb qu s) :
    Steady tb qu (State.endUpdate s) := by
  unfold State.endUpdate
  repeat' first
    | with_reducible assumption | intro _ | with_reducible apply setBit_steady
    | with_reducible apply event_steady | with_reducible apply satInc_steady
    | with_reducible apply panelEvent_steady | with_reducible apply postIntent_steady
    | with_reducible apply setTarget_steady

theorem updateTick_steady (s : State) (changed : Bool) (hst : Steady tb qu s) :
    Steady tb qu (State.updateTick s changed) := by
  unfold State.updateTick
  repeat' first
    | with_reducible assumption | intro _ | with_reducible apply endUpdate_steady
    | with_reducible apply postIntent_steady | with_reducible apply beginUpdate_steady
    | with_reducible apply steady_ite

theorem passTick_steady (s : State) (hst : Steady tb qu s) :
    Steady tb qu (State.passTick s) := by
  unfold State.passTick
  repeat' first
    | with_reducible assumption | intro _ | with_reducible apply modPanel_steady
    | with_reducible apply postIntent_steady | with_reducible apply steady_ite

theorem coldTick_steady (s : State) (hst : Steady tb qu s) :
    Steady tb qu (State.coldTick s) := by
  unfold State.coldTick
  repeat' first
    | with_reducible assumption | intro _ | with_reducible apply modPanel_steady
    | with_reducible apply panelFault_steady | with_reducible apply panelEvent_steady
    | with_reducible apply steady_ite

theorem recoveryTick_steady (s : State) (hst : Steady tb qu s) :
    Steady tb qu (State.recoveryTick s) := by
  unfold State.recoveryTick
  repeat' first
    | with_reducible assumption | intro _ | with_reducible apply setPhase_steady
    | with_reducible apply event_steady | with_reducible apply panelEvent_steady
    | with_reducible apply steady_ite

theorem execRefreshTick_steady (vp vn : BitVec 16) (s : State) (hst : Steady tb qu s) :
    SteadyOut tb qu (execRefreshTick vp vn s) := by
  unfold execRefreshTick
  repeat' first
    | with_reducible assumption | intro _ | with_reducible apply modPanel_steady
    | with_reducible apply takeTargets_steady | with_reducible apply setPhase_steady
    | with_reducible apply showPanel_steady | with_reducible apply applyTable_steady
    | with_reducible apply recoveryTick_steady | with_reducible apply coldTick_steady
    | with_reducible apply updateTick_steady | with_reducible apply passTick_steady
    | with_reducible apply tickSegment_steady | with_reducible apply steady_ite | with_reducible apply steady_foldl
    | with_reducible apply steadyOut_next

theorem execPanelTempRead_steady (temp : BitVec 16) (ok : Bool) (s : State) (hst : Steady tb qu s) :
    SteadyOut tb qu (execPanelTempRead temp ok s) := by
  unfold execPanelTempRead
  repeat' first
    | with_reducible assumption | intro _ | with_reducible apply setBit_steady | with_reducible apply modPanel_steady
    | with_reducible apply setFld_steady | with_reducible apply panelFault_steady | with_reducible apply steady_ite
    | with_reducible apply steadyOut_next

theorem execReassertPass_steady (s : State) (hst : Steady tb qu s) :
    SteadyOut tb qu (execReassertPass s) := by
  unfold execReassertPass
  repeat' first
    | with_reducible assumption | intro _ | with_reducible apply modPanel_steady | with_reducible apply steady_ite
    | with_reducible apply steadyOut_next

theorem postStress_steady (s : State) (hst : Steady tb qu s) :
    Steady tb qu (State.postStress s) := by
  unfold State.postStress
  repeat' first
    | with_reducible assumption | intro _ | with_reducible apply panelRecord_steady

theorem execStressRecord_steady (s : State) (hst : Steady tb qu s) :
    SteadyOut tb qu (execStressRecord s) := by
  unfold execStressRecord
  repeat' first
    | with_reducible assumption | intro _ | with_reducible apply postStress_steady | with_reducible apply steady_ite
    | with_reducible apply steadyOut_next

theorem execRailFault_steady (s : State) (hst : Steady tb qu s) :
    SteadyOut tb qu (execRailFault s) := by
  unfold execRailFault
  repeat' first
    | with_reducible assumption | intro _ | with_reducible apply modPanel_steady
    | with_reducible apply panelFault_steady | with_reducible apply steady_ite | with_reducible apply steadyOut_next

theorem execSegFault_steady (n : Segment) (s : State) (hst : Steady tb qu s) :
    SteadyOut tb qu (execSegFault n s) := by
  unfold execSegFault
  repeat' first
    | with_reducible assumption | intro _ | with_reducible apply modSegment_steady
    | with_reducible apply panelFault_steady | with_reducible apply showPanel_steady | with_reducible apply steady_ite
    | with_reducible apply steadyOut_next

theorem dropRuns_steady (s : State) (hst : Steady tb qu s) :
    Steady tb qu (State.dropRuns s) := by
  unfold State.dropRuns
  repeat' first
    | with_reducible assumption | intro _ | with_reducible apply modPanel_steady

theorem panelCtrlWritten_steady (s : State) (old : Nat) (hst : Steady tb qu s) :
    Steady tb qu (State.panelCtrlWritten s old) := by
  unfold State.panelCtrlWritten
  repeat' first
    | with_reducible assumption | intro _ | with_reducible apply setBit_steady
    | with_reducible apply dropRuns_steady | with_reducible apply setPhase_steady
    | with_reducible apply showPanel_steady | with_reducible apply steady_ite

theorem panelFromJournal_steady (s : State) (hst : Steady tb qu s) :
    Steady tb qu (State.panelFromJournal s) := by
  unfold State.panelFromJournal
  repeat' first
    | with_reducible assumption | intro _ | with_reducible apply setFld_steady
    | with_reducible apply modSegment_steady | with_reducible apply panelFault_steady
    | with_reducible apply steady_ite | with_reducible apply steady_foldl | with_reducible apply steadyOut_next
    | with_reducible apply steadyOut_ite | split

theorem checkTable_steady (s : State) (hst : Steady tb qu s) :
    Steady tb qu (State.checkTable s) := by
  unfold State.checkTable
  repeat' first
    | with_reducible assumption | intro _ | with_reducible apply modPanel_steady | with_reducible apply steady_ite
    | with_reducible apply steadyOut_next | split

theorem restoreStress_steady (s : State) (hst : Steady tb qu s) :
    Steady tb qu (State.restoreStress s) := by
  unfold State.restoreStress
  repeat' first
    | with_reducible assumption | intro _ | with_reducible apply setReg_steady | with_reducible apply modPanel_steady
    | with_reducible apply steady_ite | with_reducible apply steady_foldl | with_reducible apply steadyOut_next
    | with_reducible apply steadyOut_ite | split

theorem execPanelClearEnd_steady (s : State) (hst : Steady tb qu s) :
    SteadyOut tb qu (execPanelClearEnd s) := by
  unfold execPanelClearEnd
  repeat' first
    | with_reducible assumption | intro _ | with_reducible apply setFld_steady
    | with_reducible apply panelFromJournal_steady | with_reducible apply checkTable_steady
    | with_reducible apply restoreStress_steady | with_reducible apply modPanel_steady
    | with_reducible apply setPhase_steady | with_reducible apply showPanel_steady | with_reducible apply steady_ite
    | with_reducible apply steadyOut_next

theorem panelInputLoss_steady (s : State) (hst : Steady tb qu s) :
    Steady tb qu (State.panelInputLoss s) := by
  unfold State.panelInputLoss
  repeat' first
    | with_reducible assumption | intro _ | with_reducible apply postIntent_steady
    | with_reducible apply setPhase_steady | with_reducible apply modPanel_steady
    | with_reducible apply event_steady | with_reducible apply showPanel_steady
    | with_reducible apply showLight_steady | with_reducible apply steady_ite

theorem execPanelPowerDown_steady (s : State) (hst : Steady tb qu s) :
    SteadyOut tb qu (execPanelPowerDown s) := by
  unfold execPanelPowerDown
  repeat' first
    | with_reducible assumption | intro _ | with_reducible apply panelRecord_steady
    | with_reducible apply postStress_steady | with_reducible apply modPanel_steady
    | with_reducible apply setPhase_steady | with_reducible apply showPanel_steady | with_reducible apply steady_ite
    | with_reducible apply steadyOut_next

theorem showUnkeyed_steady (s : State) (hst : Steady tb qu s) :
    Steady tb qu (State.showUnkeyed s) := by
  unfold State.showUnkeyed
  repeat' first
    | with_reducible assumption | intro _ | with_reducible apply setBit_steady

theorem swf_inits (l : List KeepBlock) (m : List (Nat × TWord)) (h : swf (fun _ => TWord.zero) m = true) :
    swf (fun _ => TWord.zero)
      (l.foldl (fun m x => sputs TWord.zero m x.addr (x.vals.map fun v => ⟨v, x.tag⟩)) m) = true := by
  induction l generalizing m with
  | nil => exact h
  | cons x l ih => exact ih _ (swf_sputs _ h)

theorem lampClear_steady (s : State) (hst : Steady tb qu s) : Steady tb qu s.lampClear := by
  unfold State.lampClear
  have h1 : Steady tb qu { s with
      regs := s.regs.filter fun p => !lampReg p.1 || lampKept p.1
      core := { Core.reset with rom := s.core.rom }
      mgs := { MgsSt.reset with nodeLoaded := s.mgs.nodeLoaded, nodeAt := s.mgs.nodeAt, secondAt := s.mgs.secondAt } } :=
    Steady.of (swf_filter _ hst.regs) hst.flash ⟨rfl, rfl⟩ hst.lanes hst.pending hst.tbc
  exact showUnkeyed_steady _ (setAct_steady _ _ (setBit_steady _ _ _ _ (steady_ite (setReg_steady _ _ h1) h1)))

theorem bootSlot_steady (s : State) (k : Nat) (hst : Steady tb qu s) : Steady tb qu (s.bootSlot k) := by
  unfold State.bootSlot
  exact steady_mk.2 (modCore_steady hst fun _ => ⟨swf_inits _ _ rfl, swf_sfrom _ _⟩)

theorem rollBackTo_steady (s : State) (k : Nat) (hst : Steady tb qu s) :
    Steady tb qu (State.rollBackTo s k) := by
  unfold State.rollBackTo
  repeat' first
    | with_reducible assumption | intro _ | with_reducible apply setBit_steady
    | with_reducible apply setAct_steady | with_reducible apply offerAct_steady
    | with_reducible apply makeActive_steady | with_reducible apply bootSlot_steady

theorem bootFrom_steady (s : State) (k : Nat) (hst : Steady tb qu s) :
    Steady tb qu (State.bootFrom s k) := by
  unfold State.bootFrom
  repeat' first
    | with_reducible assumption | intro _ | with_reducible apply bootSlot_steady
    | with_reducible apply rollBackTo_steady | with_reducible apply steady_ite | with_reducible apply steadyOut_next
    | split

theorem lampRoomReset_steady (s : State) (forTrial : Bool) (hst : Steady tb qu s) :
    Steady tb qu (State.lampRoomReset s forTrial) := by
  unfold State.lampRoomReset
  repeat' first
    | with_reducible assumption | intro _ | with_reducible apply lampClear_steady | with_reducible apply satInc_steady
    | with_reducible apply endXfer_steady | with_reducible apply rollBackTo_steady
    | with_reducible apply bootFrom_steady | with_reducible apply steady_ite | with_reducible apply steadyOut_next
    | split

theorem execLampRoomReset_steady (s : State) (hst : Steady tb qu s) :
    SteadyOut tb qu (execLampRoomReset s) := by
  unfold execLampRoomReset
  repeat' first
    | with_reducible assumption | intro _ | with_reducible apply lampRoomReset_steady
    | with_reducible apply steady_ite | with_reducible apply steadyOut_next

theorem finishCaddy_steady (s : State) (hst : Steady tb qu s) :
    Steady tb qu (State.finishCaddy s) := by
  unfold State.finishCaddy
  repeat' first
    | with_reducible assumption | intro _ | with_reducible apply programGroup_steady | with_reducible apply steady_ite
    | with_reducible apply steady_foldl
    | (with_reducible refine placeGroup_steady ‹State.placeGroup _ _ _ = some (_, _)› ?_)
    | with_reducible apply steadyOut_next | with_reducible apply steadyOut_ite | split

theorem takeKey_steady (s : State) (key : Option (List Word)) (hst : Steady tb qu s) :
    Steady tb qu (State.takeKey s key) := by
  unfold State.takeKey
  repeat' first
    | with_reducible assumption | intro _ | with_reducible apply setReg_steady | with_reducible apply setBit_steady
    | with_reducible apply steady_ite | with_reducible apply steady_foldl | with_reducible apply steadyOut_next
    | with_reducible apply steadyOut_ite | split

theorem keepFaults_steady (s0 s : State) (hst : Steady tb qu s0) (hst1 : Steady tb qu s) :
    Steady tb qu (State.keepFaults s0 s) := by
  unfold State.keepFaults
  repeat' first
    | with_reducible assumption | intro _ | with_reducible apply setBit_steady | with_reducible apply setFld_steady
    | with_reducible apply steady_ite | (simp only [steady_mk, steady_mkCore])

theorem keepPanel_steady (s0 s : State) (hst : Steady tb qu s0) (hst1 : Steady tb qu s) :
    Steady tb qu (State.keepPanel s0 s) := by
  unfold State.keepPanel
  repeat' first
    | with_reducible assumption | intro _ | with_reducible apply dropRuns_steady | with_reducible apply steady_ite
    | (simp only [steady_mk, steady_mkCore])

theorem resetBlocks_steady (s : State) (kept : Bool) (hst : Steady tb qu s) : Steady tb qu (s.resetBlocks kept) :=
  Steady.of (swf_filter _ hst.regs) hst.flash ⟨rfl, rfl⟩ ⟨rfl, fun ln h => by
    simp only [State.resetBlocks, State.reset, List.mem_replicate] at h; rw [h.2]; rfl⟩ hst.pending
    (.inr rfl)

theorem nodeReset_steady (s : State) (cause : Nat) (hst : Steady tb qu s) :
    Steady tb qu (State.nodeReset s cause) := by
  unfold State.nodeReset
  repeat' first
    | with_reducible assumption | intro _ | with_reducible apply finishCaddy_steady
    | with_reducible apply resetBlocks_steady | with_reducible apply takeKey_steady
    | with_reducible apply keepPanel_steady | with_reducible apply keepFaults_steady
    | with_reducible apply setReg_steady | with_reducible apply setFld_steady | with_reducible apply setBit_steady
    | with_reducible apply steady_ite | (simp only [steady_mk, steady_mkCore])

theorem modFlt_steady (s : State) (g : FltSt → FltSt) (hst : Steady tb qu s) :
    Steady tb qu (State.modFlt s g) := by
  unfold State.modFlt
  repeat' first
    | with_reducible assumption | intro _ | with_reducible apply steady_ite | (simp only [steady_mk, steady_mkCore])

theorem classEffects_steady (s : State) (c : Nat) (hst : Steady tb qu s) :
    Steady tb qu (State.classEffects s c) := by
  unfold State.classEffects
  repeat' first
    | with_reducible assumption | intro _ | with_reducible apply satInc_steady
    | with_reducible apply event_steady | with_reducible apply setBit_steady | with_reducible apply steady_ite

theorem resetRequest_steady (s : State) (hst : Steady tb qu s) :
    Steady tb qu (State.resetRequest s) := by
  unfold State.resetRequest
  repeat' first
    | with_reducible assumption | intro _ | with_reducible apply setBit_steady
    | with_reducible apply event_steady | with_reducible apply modFlt_steady
    | with_reducible apply satInc_steady | with_reducible apply nodeReset_steady
    | with_reducible apply steady_ite

theorem safeReaction_steady (s : State) (c : Nat) (hst : Steady tb qu s) :
    Steady tb qu (State.safeReaction s c) := by
  unfold State.safeReaction
  repeat' first
    | with_reducible assumption | intro _ | with_reducible apply safeOn_steady
    | with_reducible apply steady_ite

theorem faultArrives_steady (s : State) (e : ErrRec) (hst : Steady tb qu s) :
    Steady tb qu (State.faultArrives s e) := by
  unfold State.faultArrives
  repeat' first
    | with_reducible assumption | intro _ | with_reducible apply satInc_steady
    | with_reducible apply safeReaction_steady | with_reducible apply classEffects_steady
    | with_reducible apply event_steady | with_reducible apply resetRequest_steady
    | with_reducible apply modFlt_steady | with_reducible apply steady_ite

theorem execErrorArrival_steady (s : State) (hst : Steady tb qu s) :
    SteadyOut tb qu (execErrorArrival s) := by
  unfold execErrorArrival
  repeat' first
    | with_reducible assumption | intro _ | with_reducible apply modFlt_steady
    | with_reducible apply faultArrives_steady | with_reducible apply steady_ite | with_reducible apply steadyOut_next
    | split

theorem captureFault_steady (s : State) (e : ErrRec) (hst : Steady tb qu s) :
    Steady tb qu (State.captureFault s e) := by
  unfold State.captureFault
  repeat' first
    | with_reducible assumption | intro _ | with_reducible apply setReg_steady
    | with_reducible apply setBit_steady | with_reducible apply modFlt_steady | with_reducible apply steady_ite
    | with_reducible apply steady_foldl

theorem faultNotice_steady (s : State) (e : ErrRec) (first : Bool) (hst : Steady tb qu s) :
    Steady tb qu (State.faultNotice s e first) := by
  unfold State.faultNotice
  repeat' first
    | with_reducible assumption | intro _ | with_reducible apply modFlt_steady
    | with_reducible apply send_steady | with_reducible apply satInc_steady | with_reducible apply steady_ite

theorem faultEnters_steady (s : State) (e : ErrRec) (hst : Steady tb qu s) :
    Steady tb qu (State.faultEnters s e) := by
  unfold State.faultEnters
  repeat' first
    | with_reducible assumption | intro _ | with_reducible apply modFlt_steady
    | with_reducible apply captureFault_steady | with_reducible apply classEffects_steady
    | with_reducible apply faultNotice_steady | with_reducible apply evrEvent_steady
    | with_reducible apply resetRequest_steady | with_reducible apply steady_ite

theorem execFaultEntry_steady (s : State) (hst : Steady tb qu s) :
    SteadyOut tb qu (execFaultEntry s) := by
  unfold execFaultEntry
  repeat' first
    | with_reducible assumption | intro _ | with_reducible apply modFlt_steady
    | with_reducible apply faultEnters_steady | with_reducible apply steady_ite | with_reducible apply steadyOut_next
    | split

theorem execCollectorSelfCheck_steady (parityOk alone : Bool) (s : State) (hst : Steady tb qu s) :
    SteadyOut tb qu (execCollectorSelfCheck parityOk alone s) := by
  unfold execCollectorSelfCheck
  repeat' first
    | with_reducible assumption | intro _ | with_reducible apply safeOn_steady | with_reducible apply report_steady
    | with_reducible apply steady_ite | with_reducible apply steadyOut_next

theorem safeKeyWritten_steady (s : State) (w : Word) (hst : Steady tb qu s) :
    Steady tb qu (State.safeKeyWritten s w) := by
  unfold State.safeKeyWritten
  repeat' first
    | with_reducible assumption | intro _ | with_reducible apply safeOff_steady
    | with_reducible apply steady_ite

theorem fltCtrlWritten_steady (s : State) (w : Word) (hst : Steady tb qu s) :
    Steady tb qu (State.fltCtrlWritten s w) := by
  unfold State.fltCtrlWritten
  repeat' first
    | with_reducible assumption | intro _ | with_reducible apply setBit_steady
    | with_reducible apply modFlt_steady | with_reducible apply steady_ite

theorem fltStatusWritten_steady (s : State) (cur w : Word) (hst : Steady tb qu s) :
    Steady tb qu (State.fltStatusWritten s cur w) := by
  unfold State.fltStatusWritten
  repeat' first
    | with_reducible assumption | intro _ | with_reducible apply setBit_steady
    | with_reducible apply steady_ite

theorem eraseAhead_steady (s : State) (p : Nat) (hst : Steady tb qu s) :
    Steady tb qu (State.eraseAhead s p) := by
  unfold State.eraseAhead
  repeat' first
    | with_reducible assumption | intro _ | with_reducible apply eraseSegment_steady
    | with_reducible apply modEvr_steady | with_reducible apply steady_ite

theorem countFirst_steady (s : State) (hst : Steady tb qu s) :
    Steady tb qu (State.countFirst s) := by
  unfold State.countFirst
  repeat' first
    | with_reducible assumption | intro _ | with_reducible apply setFld_steady

theorem writeFirst_steady (s : State) (bs : List Byte) (q : Nat) (hst : Steady tb qu s) :
    Steady tb qu (State.writeFirst s bs q) := by
  unfold State.writeFirst
  repeat' first
    | with_reducible assumption | intro _ | with_reducible apply programBytes_steady
    | with_reducible apply modEvr_steady | with_reducible apply countFirst_steady | with_reducible apply steady_ite
    | with_reducible apply steadyOut_next | split

theorem writeRecord_steady (s : State) (e : EvrEntry) (hst : Steady tb qu s) :
    Steady tb qu (State.writeRecord s e) := by
  unfold State.writeRecord
  repeat' first
    | with_reducible assumption | intro _ | with_reducible apply keepRepeat_steady
    | with_reducible apply eraseAhead_steady | with_reducible apply programBytes_steady
    | with_reducible apply writeFirst_steady | with_reducible apply setReg_steady
    | with_reducible apply modEvr_steady | with_reducible apply event_steady

theorem execEventRecordWrite_steady (s : State) (hst : Steady tb qu s) :
    SteadyOut tb qu (execEventRecordWrite s) := by
  unfold execEventRecordWrite
  repeat' first
    | with_reducible assumption | intro _ | with_reducible apply writeRecord_steady
    | with_reducible apply modEvr_steady | with_reducible apply countQueued_steady | with_reducible apply steady_ite
    | with_reducible apply steadyOut_next | split

theorem swtrigWritten_steady (s : State) (w : Word) (hst : Steady tb qu s) :
    Steady tb qu (State.swtrigWritten s w) := by
  unfold State.swtrigWritten
  repeat' first
    | with_reducible assumption | intro _ | with_reducible apply evrEvent_steady

theorem wendRead_steady (s : State) (m : Nat) (hst : Steady tb qu s) :
    Steady tb qu (State.wendRead s m) := by
  unfold State.wendRead
  repeat' first
    | with_reducible assumption | intro _ | with_reducible apply setFld_steady
    | with_reducible apply steady_ite

theorem clearConfirmed_steady (s : State) (area : Nat) (hst : Steady tb qu s) :
    Steady tb qu (State.clearConfirmed s area) := by
  unfold State.clearConfirmed
  repeat' first
    | with_reducible assumption | intro _ | with_reducible apply noteTime_steady
    | with_reducible apply modEvr_steady | with_reducible apply setFld_steady
    | with_reducible apply countQueued_steady

theorem clearWritten_steady (s : State) (w : Word) (hst : Steady tb qu s) :
    Steady tb qu (State.clearWritten s w) := by
  unfold State.clearWritten
  repeat' first
    | with_reducible assumption | intro _ | with_reducible apply modEvr_steady
    | with_reducible apply clearConfirmed_steady | with_reducible apply steady_ite

theorem execEvrClearDisarm_steady (s : State) (hst : Steady tb qu s) :
    SteadyOut tb qu (execEvrClearDisarm s) := by
  unfold execEvrClearDisarm
  repeat' first
    | with_reducible assumption | intro _ | with_reducible apply modEvr_steady | with_reducible apply steady_ite
    | with_reducible apply steadyOut_next

theorem execEvrClearDone_steady (s : State) (hst : Steady tb qu s) :
    SteadyOut tb qu (execEvrClearDone s) := by
  unfold execEvrClearDone
  repeat' first
    | with_reducible assumption | intro _ | with_reducible apply eraseSegment_steady
    | with_reducible apply modEvr_steady | with_reducible apply countFirst_steady | with_reducible apply setFld_steady
    | with_reducible apply event_steady | with_reducible apply steady_ite | with_reducible apply steady_foldl
    | with_reducible apply steadyOut_next | with_reducible apply steadyOut_ite | split

theorem execEvrScan_steady (s : State) (hst : Steady tb qu s) :
    SteadyOut tb qu (execEvrScan s) := by
  unfold execEvrScan
  repeat' first
    | with_reducible assumption | intro _ | with_reducible apply event_steady | with_reducible apply satAdd_steady
    | with_reducible apply setReg_steady | with_reducible apply modEvr_steady | with_reducible apply countFirst_steady
    | with_reducible apply setFld_steady | with_reducible apply steady_ite | with_reducible apply steady_foldl
    | with_reducible apply steadyOut_next

theorem evrPowerFail_steady (s : State) (hst : Steady tb qu s) :
    Steady tb qu (State.evrPowerFail s) := by
  unfold State.evrPowerFail
  repeat' first
    | with_reducible assumption | intro _ | with_reducible apply keepRepeat_steady
    | with_reducible apply setFld_steady

theorem modSup_steady (s : State) (g : SupSt → SupSt) (hst : Steady tb qu s) :
    Steady tb qu (State.modSup s g) := by
  unfold State.modSup
  repeat' first
    | with_reducible assumption | intro _ | with_reducible apply steady_ite | (simp only [steady_mk, steady_mkCore])

theorem modMgs_steady (s : State) (g : MgsSt → MgsSt) (hst : Steady tb qu s) :
    Steady tb qu (State.modMgs s g) := by
  unfold State.modMgs
  repeat' first
    | with_reducible assumption | intro _ | with_reducible apply steady_ite | (simp only [steady_mk, steady_mkCore])

theorem setStage_steady (s : State) (n : Nat) (hst : Steady tb qu s) :
    Steady tb qu (State.setStage s n) := by
  unfold State.setStage
  repeat' first
    | with_reducible assumption | intro _ | with_reducible apply setFld_steady

theorem supplyEvent_steady (s : State) (code v : Nat) (hst : Steady tb qu s) :
    Steady tb qu (State.supplyEvent s code v) := by
  unfold State.supplyEvent
  repeat' first
    | with_reducible assumption | intro _ | with_reducible apply send_steady
    | with_reducible apply evrEvent_steady

theorem outRecord_steady (s : State) (stamp : Stamp) (hst : Steady tb qu s) :
    Steady tb qu (State.outRecord s stamp) := by
  unfold State.outRecord
  repeat' first
    | with_reducible assumption | intro _ | with_reducible apply offer_steady
    | with_reducible apply modField_steady | with_reducible apply steady_ite

theorem postNode_steady (s : State) (hst : Steady tb qu s) :
    Steady tb qu (State.postNode s) := by
  unfold State.postNode
  repeat' first
    | with_reducible assumption | intro _ | with_reducible apply offer_steady
    | with_reducible apply modMgs_steady

theorem markPresent_steady (s : State) (x : SupplyInput) (v : BitVec 16) (hst : Steady tb qu s) :
    Steady tb qu (State.markPresent s x v) := by
  unfold State.markPresent
  repeat' first
    | with_reducible assumption | intro _ | with_reducible apply setBit_steady
    | with_reducible apply setFld_steady | with_reducible apply modSup_steady

theorem execInputPresent_steady (x : SupplyInput) (v : BitVec 16) (s : State) (hst : Steady tb qu s) :
    SteadyOut tb qu (execInputPresent x v s) := by
  unfold execInputPresent
  repeat' first
    | with_reducible assumption | intro _ | with_reducible apply nodeReset_steady
    | with_reducible apply markPresent_steady | with_reducible apply modSup_steady
    | with_reducible apply setStage_steady | with_reducible apply event_steady
    | with_reducible apply supplyEvent_steady | with_reducible apply steady_ite | with_reducible apply steadyOut_next

theorem execInputLost_steady (x : SupplyInput) (v : BitVec 16) (s : State) (hst : Steady tb qu s) :
    SteadyOut tb qu (execInputLost x v s) := by
  unfold execInputLost
  repeat' first
    | with_reducible assumption | intro _ | with_reducible apply setBit_steady | with_reducible apply setFld_steady
    | with_reducible apply event_steady | with_reducible apply report_steady | with_reducible apply supplyEvent_steady
    | with_reducible apply steady_ite | with_reducible apply steadyOut_next

theorem execInputHandover_steady (s : State) (hst : Steady tb qu s) :
    SteadyOut tb qu (execInputHandover s) := by
  unfold execInputHandover
  repeat' first
    | with_reducible assumption | intro _ | with_reducible apply setBit_steady | with_reducible apply steady_ite
    | with_reducible apply steadyOut_next

theorem shedLoads_steady (s : State) (hst : Steady tb qu s) :
    Steady tb qu (State.shedLoads s) := by
  unfold State.shedLoads
  repeat' first
    | with_reducible assumption | intro _ | with_reducible apply stopConverter_steady
    | with_reducible apply sourceOff_steady | with_reducible apply modField_steady
    | with_reducible apply abortModem_steady | with_reducible apply steady_ite
    | with_reducible apply steady_foldl

theorem execInputLoss_steady (hold : BitVec 16) (s : State) (hst : Steady tb qu s) :
    SteadyOut tb qu (execInputLoss hold s) := by
  unfold execInputLoss
  repeat' first
    | with_reducible assumption | intro _ | with_reducible apply setFld_steady | with_reducible apply setBit_steady
    | with_reducible apply modSup_steady | with_reducible apply shedLoads_steady
    | with_reducible apply supplyEvent_steady | with_reducible apply report_steady
    | with_reducible apply jnlPowerFail_steady | with_reducible apply evrPowerFail_steady
    | with_reducible apply outRecord_steady | with_reducible apply postNode_steady
    | with_reducible apply panelInputLoss_steady | with_reducible apply steady_ite
    | with_reducible apply steadyOut_next

theorem execHoldSwitchClose_steady (s : State) (hst : Steady tb qu s) :
    SteadyOut tb qu (execHoldSwitchClose s) := by
  unfold execHoldSwitchClose
  repeat' first
    | with_reducible assumption | intro _ | with_reducible apply setBit_steady | with_reducible apply setFld_steady
    | with_reducible apply steady_ite | with_reducible apply steadyOut_next

theorem execRide_steady (lowest : BitVec 16) (s : State) (hst : Steady tb qu s) :
    SteadyOut tb qu (execRide lowest s) := by
  unfold execRide
  repeat' first
    | with_reducible assumption | intro _ | with_reducible apply setBit_steady | with_reducible apply setFld_steady
    | with_reducible apply satInc_steady | with_reducible apply event_steady | with_reducible apply supplyEvent_steady
    | with_reducible apply steady_ite | with_reducible apply steadyOut_next

theorem execHoldReady_steady (v : BitVec 16) (s : State) (hst : Steady tb qu s) :
    SteadyOut tb qu (execHoldReady v s) := by
  unfold execHoldReady
  repeat' first
    | with_reducible assumption | intro _ | with_reducible apply setBit_steady | with_reducible apply setFld_steady
    | with_reducible apply event_steady | with_reducible apply supplyEvent_steady | with_reducible apply steady_ite
    | with_reducible apply steadyOut_next

theorem execHoldLow_steady (v : BitVec 16) (s : State) (hst : Steady tb qu s) :
    SteadyOut tb qu (execHoldLow v s) := by
  unfold execHoldLow
  repeat' first
    | with_reducible assumption | intro _ | with_reducible apply setBit_steady | with_reducible apply setFld_steady
    | with_reducible apply event_steady | with_reducible apply supplyEvent_steady | with_reducible apply steady_ite
    | with_reducible apply steadyOut_next

theorem holdReset_steady (s : State) (hst : Steady tb qu s) : Steady tb qu s.holdReset := by
  have h : Steady tb qu (s.keepPanel (s.resetBlocks true)) := keepPanel_steady _ _ hst (resetBlocks_steady _ _ hst)
  exact Steady.of (swf_filter _ hst.regs) h.flash h.core h.lanes h.pending h.tbc

theorem execLogicFailing_steady (hold : BitVec 16) (s : State) (hst : Steady tb qu s) :
    SteadyOut tb qu (execLogicFailing hold s) := by
  unfold execLogicFailing
  repeat' first
    | with_reducible assumption | intro _ | with_reducible apply closeGate_steady
    | with_reducible apply evrEvent_steady | with_reducible apply setFld_steady
    | with_reducible apply keepFaults_steady | with_reducible apply holdReset_steady | with_reducible apply steady_ite
    | with_reducible apply steadyOut_next

theorem execPowerReturn_steady (s : State) (hst : Steady tb qu s) :
    SteadyOut tb qu (execPowerReturn s) := by
  unfold execPowerReturn
  repeat' first
    | with_reducible assumption | intro _ | with_reducible apply nodeReset_steady | with_reducible apply steady_ite
    | with_reducible apply steadyOut_next

theorem execPowerOn_steady (s : State) (hst : Steady tb qu s) :
    SteadyOut tb qu (execPowerOn s) := by
  unfold execPowerOn
  repeat' first
    | with_reducible assumption | intro _ | with_reducible apply nodeReset_steady | with_reducible apply steady_ite
    | with_reducible apply steadyOut_next

theorem execPowerGood_steady (fldExt : Bool) (s : State) (hst : Steady tb qu s) :
    SteadyOut tb qu (execPowerGood fldExt s) := by
  unfold execPowerGood
  repeat' first
    | with_reducible assumption | intro _ | with_reducible apply setBit_steady | with_reducible apply setStage_steady
    | with_reducible apply steady_ite | with_reducible apply steadyOut_next

theorem execLogicRailOut_steady (rail : Fin 4) (s : State) (hst : Steady tb qu s) :
    SteadyOut tb qu (execLogicRailOut rail s) := by
  unfold execLogicRailOut
  repeat' first
    | with_reducible assumption | intro _ | with_reducible apply setBit_steady | with_reducible apply modSup_steady
    | with_reducible apply report_steady | with_reducible apply steady_ite | with_reducible apply steadyOut_next

theorem execBrownout_steady (s : State) (hst : Steady tb qu s) :
    SteadyOut tb qu (execBrownout s) := by
  unfold execBrownout
  repeat' first
    | with_reducible assumption | intro _ | with_reducible apply setBit_steady | with_reducible apply modSup_steady
    | with_reducible apply nodeReset_steady | with_reducible apply steady_ite | with_reducible apply steadyOut_next

theorem fieldLimit_steady (s : State) (now : Bool) (ifld : BitVec 16) (hst : Steady tb qu s) :
    Steady tb qu (State.fieldLimit s now ifld) := by
  unfold State.fieldLimit
  repeat' first
    | with_reducible assumption | intro _ | with_reducible apply setBit_steady
    | with_reducible apply setFld_steady | with_reducible apply event_steady
    | with_reducible apply report_steady | with_reducible apply supplyEvent_steady
    | with_reducible apply steady_ite

theorem execFldIlimBegin_steady (ifld : BitVec 16) (s : State) (hst : Steady tb qu s) :
    SteadyOut tb qu (execFldIlimBegin ifld s) := by
  unfold execFldIlimBegin
  repeat' first
    | with_reducible assumption | intro _ | with_reducible apply fieldLimit_steady | with_reducible apply steady_ite
    | with_reducible apply steadyOut_next

theorem execFldIlimEnd_steady (ifld : BitVec 16) (s : State) (hst : Steady tb qu s) :
    SteadyOut tb qu (execFldIlimEnd ifld s) := by
  unfold execFldIlimEnd
  repeat' first
    | with_reducible assumption | intro _ | with_reducible apply fieldLimit_steady | with_reducible apply steady_ite
    | with_reducible apply steadyOut_next

theorem clocksUp_steady (s : State) (hst : Steady tb qu s) :
    Steady tb qu (State.clocksUp s) := by
  unfold State.clocksUp
  repeat' first
    | with_reducible assumption | intro _ | with_reducible apply setStage_steady
    | with_reducible apply steady_ite

theorem execFuseSensingEnd_steady (ok : Bool) (s : State) (hst : Steady tb qu s) :
    SteadyOut tb qu (execFuseSensingEnd ok s) := by
  unfold execFuseSensingEnd
  repeat' first
    | with_reducible assumption | intro _ | with_reducible apply setBit_steady | with_reducible apply modSup_steady
    | with_reducible apply showUnkeyed_steady | with_reducible apply report_steady
    | with_reducible apply clocksUp_steady | with_reducible apply steady_ite | with_reducible apply steadyOut_next

theorem execPllLock_steady (s : State) (hst : Steady tb qu s) :
    SteadyOut tb qu (execPllLock s) := by
  unfold execPllLock
  repeat' first
    | with_reducible assumption | intro _ | with_reducible apply setBit_steady | with_reducible apply clocksUp_steady
    | with_reducible apply steady_ite | with_reducible apply steadyOut_next

theorem execCrystalFail_steady (s : State) (hst : Steady tb qu s) :
    SteadyOut tb qu (execCrystalFail s) := by
  unfold execCrystalFail
  repeat' first
    | with_reducible assumption | intro _ | with_reducible apply setBit_steady | with_reducible apply report_steady
    | with_reducible apply steady_ite | with_reducible apply steadyOut_next

theorem execXtalRetry_steady (s : State) (hst : Steady tb qu s) :
    SteadyOut tb qu (execXtalRetry s) := by
  unfold execXtalRetry
  repeat' first
    | with_reducible assumption | intro _ | with_reducible apply event_steady | with_reducible apply steady_ite
    | with_reducible apply steadyOut_next

theorem retrimIsland_steady (s : State) (i : Nat) (hst : Steady tb qu s) :
    Steady tb qu (State.retrimIsland s i) := by
  unfold State.retrimIsland
  repeat' first
    | with_reducible assumption | intro _ | with_reducible apply nextFree_steady
    | with_reducible apply setFld_steady | with_reducible apply satInc_steady
    | with_reducible apply event_steady

theorem islandFails_steady (s : State) (i : Nat) (hst : Steady tb qu s) :
    Steady tb qu (State.islandFails s i) := by
  unfold State.islandFails
  repeat' first
    | with_reducible assumption | intro _ | with_reducible apply setFld_steady
    | with_reducible apply report_steady

theorem measureIsland_steady (s : State) (i : Nat) (edge : Bool) (err : BitVec 16) (hst : Steady tb qu s) :
    Steady tb qu (State.measureIsland s i edge err) := by
  unfold State.measureIsland
  repeat' first
    | with_reducible assumption | intro _ | with_reducible apply islandFails_steady
    | with_reducible apply setFld_steady | with_reducible apply retrimIsland_steady
    | with_reducible apply report_steady | with_reducible apply steady_ite

theorem measureTally_steady (s : State) (d : Nat → BitVec 16) (hst : Steady tb qu s) :
    Steady tb qu (State.measureTally s d) := by
  unfold State.measureTally
  repeat' first
    | with_reducible assumption | intro _ | with_reducible apply retrimIsland_steady
    | with_reducible apply setBit_steady | with_reducible apply report_steady
    | with_reducible apply islandFails_steady | with_reducible apply steady_ite | with_reducible apply steadyOut_next
    | split

theorem execIslandClockMeasure_steady (i : Fin 16) (edge : Bool) (err : BitVec 16) (dcos : List (BitVec 16)) (s : State) (hst : Steady tb qu s) :
    SteadyOut tb qu (execIslandClockMeasure i edge err dcos s) := by
  unfold execIslandClockMeasure
  repeat' first
    | with_reducible assumption | intro _ | with_reducible apply setFld_steady
    | with_reducible apply measureTally_steady | with_reducible apply islandFails_steady
    | with_reducible apply measureIsland_steady | with_reducible apply steady_ite
    | with_reducible apply steadyOut_next

theorem execPinReset_steady (s : State) (hst : Steady tb qu s) :
    SteadyOut tb qu (execPinReset s) := by
  unfold execPinReset
  repeat' first
    | with_reducible assumption | intro _ | with_reducible apply nodeReset_steady | with_reducible apply modSup_steady
    | with_reducible apply setStage_steady | with_reducible apply steady_ite | with_reducible apply steadyOut_next

theorem execResetRelease_steady (s : State) (hst : Steady tb qu s) :
    SteadyOut tb qu (execResetRelease s) := by
  unfold execResetRelease
  repeat' first
    | with_reducible assumption | intro _ | with_reducible apply modSup_steady | with_reducible apply setStage_steady
    | with_reducible apply steady_ite | with_reducible apply steadyOut_next

theorem rstWritten_steady (s : State) (w : Word) (hst : Steady tb qu s) :
    Steady tb qu (State.rstWritten s w) := by
  unfold State.rstWritten
  repeat' first
    | with_reducible assumption | intro _ | with_reducible apply nodeReset_steady
    | with_reducible apply steady_ite

theorem releasesResume_steady (s : State) (hst : Steady tb qu s) :
    Steady tb qu (State.releasesResume s) := by
  unfold State.releasesResume
  repeat' first
    | with_reducible assumption | intro _ | with_reducible apply modMgs_steady | with_reducible apply setStage_steady
    | with_reducible apply setPair_steady | with_reducible apply steady_ite | (simp only [steady_mk, steady_mkCore])

theorem readyWritten_steady (s : State) (hst : Steady tb qu s) :
    Steady tb qu (State.readyWritten s) := by
  unfold State.readyWritten
  repeat' first
    | with_reducible assumption | intro _ | with_reducible apply releasesResume_steady
    | with_reducible apply steady_ite

theorem execReadyTimeout_steady (s : State) (hst : Steady tb qu s) :
    SteadyOut tb qu (execReadyTimeout s) := by
  unfold execReadyTimeout
  repeat' first
    | with_reducible assumption | intro _ | with_reducible apply event_steady | with_reducible apply report_steady
    | with_reducible apply releasesResume_steady | with_reducible apply steady_ite
    | with_reducible apply steadyOut_next

theorem wdogWritten_steady (s : State) (w : Word) (hst : Steady tb qu s) :
    Steady tb qu (State.wdogWritten s w) := by
  unfold State.wdogWritten
  repeat' first
    | with_reducible assumption | intro _ | with_reducible apply modMgs_steady
    | with_reducible apply satInc_steady | with_reducible apply steady_ite

theorem execWatchdogExpiry_steady (s : State) (hst : Steady tb qu s) :
    SteadyOut tb qu (execWatchdogExpiry s) := by
  unfold execWatchdogExpiry
  repeat' first
    | with_reducible assumption | intro _ | with_reducible apply event_steady | with_reducible apply report_steady
    | with_reducible apply lampRoomReset_steady | with_reducible apply steady_ite
    | with_reducible apply steadyOut_next

theorem showWatch_steady (s : State) (hst : Steady tb qu s) :
    Steady tb qu (State.showWatch s) := by
  unfold State.showWatch
  repeat' first
    | with_reducible assumption | intro _ | with_reducible apply setReg_steady

theorem watchWrite_steady (s : State) (m a : Nat) (hst : Steady tb qu s) :
    Steady tb qu (State.watchWrite s m a) := by
  unfold State.watchWrite
  repeat' first
    | with_reducible assumption | intro _ | with_reducible apply event_steady
    | with_reducible apply report_steady | with_reducible apply modMgs_steady
    | with_reducible apply showWatch_steady | with_reducible apply steady_ite

theorem popWritten_steady (s : State) (w : Word) (hst : Steady tb qu s) :
    Steady tb qu (State.popWritten s w) := by
  unfold State.popWritten
  repeat' first
    | with_reducible assumption | intro _ | with_reducible apply modMgs_steady
    | with_reducible apply showWatch_steady | with_reducible apply steady_ite

theorem skipRestore_steady (s : State) (hst : Steady tb qu s) :
    Steady tb qu (State.skipRestore s) := by
  unfold State.skipRestore
  repeat' first
    | with_reducible assumption | intro _ | with_reducible apply satInc_steady
    | with_reducible apply event_steady

theorem saveWritten_steady (s : State) (w : Word) (hst : Steady tb qu s) :
    Steady tb qu (State.saveWritten s w) := by
  unfold State.saveWritten
  repeat' first
    | with_reducible assumption | intro _ | with_reducible apply offer_steady
    | with_reducible apply setBit_steady | with_reducible apply steady_ite

theorem checkTemp_steady (s : State) (k : Nat) (t : BitVec 16) (hst : Steady tb qu s) :
    Steady tb qu (State.checkTemp s k t) := by
  unfold State.checkTemp
  repeat' first
    | with_reducible assumption | intro _ | with_reducible apply event_steady
    | with_reducible apply report_steady | with_reducible apply modMgs_steady | with_reducible apply steady_ite

theorem checkRail_steady (s : State) (r v : Nat) (hst : Steady tb qu s) :
    Steady tb qu (State.checkRail s r v) := by
  unfold State.checkRail
  repeat' first
    | with_reducible assumption | intro _ | with_reducible apply event_steady
    | with_reducible apply report_steady | with_reducible apply modMgs_steady | with_reducible apply steady_ite

theorem execSensorSample_steady (temps tsw vmon : List (BitVec 16)) (vfld ifld : BitVec 16) (s : State) (hst : Steady tb qu s) :
    SteadyOut tb qu (execSensorSample temps tsw vmon vfld ifld s) := by
  unfold execSensorSample
  repeat' first
    | with_reducible assumption | intro _ | with_reducible apply setFld_steady | with_reducible apply checkTemp_steady
    | with_reducible apply checkRail_steady | with_reducible apply steady_ite | with_reducible apply steady_foldl
    | with_reducible apply steadyOut_next

theorem execNodeRecord_steady (s : State) (hst : Steady tb qu s) :
    SteadyOut tb qu (execNodeRecord s) := by
  unfold execNodeRecord
  repeat' first
    | with_reducible assumption | intro _ | with_reducible apply postNode_steady | with_reducible apply setPair_steady
    | with_reducible apply setReg_steady | with_reducible apply modMgs_steady | with_reducible apply steady_ite
    | with_reducible apply steadyOut_next

theorem hcmdWritten_steady (s : State) (m : Nat) (w : Word) (hst : Steady tb qu s) :
    Steady tb qu (State.hcmdWritten s m w) := by
  unfold State.hcmdWritten
  repeat' first
    | with_reducible assumption | intro _ | with_reducible apply send_steady
    | with_reducible apply setFld_steady

theorem hcmdPosted_steady (s : State) (r : InRec) (hst : Steady tb qu s) :
    Steady tb qu (State.hcmdPosted s r) := by
  unfold State.hcmdPosted
  repeat' first
    | with_reducible assumption | intro _ | with_reducible apply satInc_steady
    | with_reducible apply setFld_steady | with_reducible apply steady_ite

/-- A keep store in canonical form. -/
def KeepOk (m : KeepMap) : Prop := swf (fun _ => TWord.zero) m = true

theorem keepOk_put {m : KeepMap} (h : KeepOk m) (a : Nat) (v : TWord) : KeepOk (m.put a v) :=
  swf_sput (d := fun _ => TWord.zero) h

theorem keepOk_putVal {m : KeepMap} (h : KeepOk m) (a n : Nat) : KeepOk (m.putVal a n) := keepOk_put h _ _

theorem keepOk_foldl {β : Type} {f : KeepMap → β → KeepMap} (l : List β) {m : KeepMap} (h : KeepOk m)
    (hf : ∀ m x, KeepOk m → KeepOk (f m x)) : KeepOk (l.foldl f m) := by
  induction l generalizing m with
  | nil => exact h
  | cons x l ih => exact ih (hf _ _ h)

theorem keepOk_putRec {m : KeepMap} (h : KeepOk m) (base : Nat) (offs : List Nat) (tags : Nat) (ws : List Word) :
    KeepOk (m.putRec base offs tags ws) := keepOk_foldl _ h fun _ _ h => keepOk_put h _ _

theorem keepOk_ite {c : Prop} [Decidable c] {x y : KeepMap} (hx : KeepOk x) (hy : KeepOk y) :
    KeepOk (if c then x else y) := by split <;> assumption

theorem keepOk_restoreOne (im : Image) {m : KeepMap} (h : KeepOk m) (e : IndexEntry) (b : List Byte) :
    KeepOk (im.restoreOne m e b) := by
  unfold Image.restoreOne
  dsimp only
  split
  · exact keepOk_putRec h _ _ _ _
  · exact keepOk_putRec h _ _ _ _
  · exact keepOk_putRec h _ _ _ _
  · exact keepOk_put (keepOk_foldl _ (keepOk_putRec h _ _ _ _) fun _ _ h => keepOk_put h _ _) _ _
  · exact keepOk_putRec h _ _ _ _
  · exact h

theorem keepOk_restored (s : State) (im : Image) : KeepOk (s.restoredKeep im) := by
  unfold State.restoredKeep
  refine keepOk_foldl _ (keepOk_foldl _ (keepOk_foldl _ (keepOk_foldl _ (swf_inits _ _ rfl)
    fun _ _ h => keepOk_restoreOne _ h _ _) fun _ _ h => keepOk_put (keepOk_put (keepOk_putVal h _ _) _ _) _ _)
    fun m g h => ?_) fun _ _ h => keepOk_ite (keepOk_putVal (keepOk_putVal h _ _) _ _) h
  unfold Image.adjustGroup
  exact keepOk_ite (keepOk_putVal (keepOk_putVal h _ _) _ _) (keepOk_putVal h _ _)

theorem writeKeep_steady (s : State) (hst : Steady tb qu s) : Steady tb qu s.writeKeep := by
  unfold State.writeKeep
  split
  · exact hst
  · with_reducible apply steady_lanesMap hst
    exact fun _ _ => keepOk_restored _ _

theorem setLaneState_steady (s : State) (l n : Nat) (hst : Steady tb qu s) :
    Steady tb qu (State.setLaneState s l n) := by
  unfold State.setLaneState
  repeat' first
    | with_reducible assumption | intro _ | with_reducible apply setFld_steady

theorem execActivationLanesStopped_steady (s : State) (hst : Steady tb qu s) :
    SteadyOut tb qu (execActivationLanesStopped s) := by
  unfold execActivationLanesStopped
  repeat' first
    | with_reducible assumption | intro _ | with_reducible apply setLaneState_steady
    | with_reducible apply setAct_steady | with_reducible apply steady_ite | with_reducible apply steady_foldl
    | with_reducible apply steadyOut_next | with_reducible apply steadyOut_ite | split

theorem lanesStage_steady (s : State) (hst : Steady tb qu s) :
    Steady tb qu (State.lanesStage s) := by
  unfold State.lanesStage
  repeat' first
    | with_reducible assumption | intro _ | with_reducible apply setStage_steady
    | with_reducible apply steady_ite

theorem execCodeLoadDone_steady (agree : Bool) (s : State) (hst : Steady tb qu s) :
    SteadyOut tb qu (execCodeLoadDone agree s) := by
  unfold execCodeLoadDone
  repeat' first
    | with_reducible assumption | intro _ | with_reducible apply loadCode_steady
    | with_reducible apply lanesStage_steady | with_reducible apply setAct_steady
    | with_reducible apply fallBack_steady | with_reducible apply modUpd_steady | with_reducible apply steady_ite
    | with_reducible apply steadyOut_next | split

theorem closeAct_steady (s : State) (a : Activation) (hst : Steady tb qu s) :
    Steady tb qu (State.closeAct s a) := by
  unfold State.closeAct
  repeat' first
    | with_reducible assumption | intro _ | with_reducible apply setAct_steady
    | with_reducible apply offerAct_steady | with_reducible apply steady_ite

theorem noteRestore_steady (s : State) (hst : Steady tb qu s) :
    Steady tb qu (State.noteRestore s) := by
  unfold State.noteRestore
  repeat' first
    | with_reducible assumption | intro _ | with_reducible apply steady_ite | (simp only [steady_mk, steady_mkCore])

theorem execKeepWriteDone_steady (ok : Bool) (s : State) (hst : Steady tb qu s) :
    SteadyOut tb qu (execKeepWriteDone ok s) := by
  unfold execKeepWriteDone
  repeat' first
    | with_reducible assumption | intro _ | with_reducible apply noteRestore_steady
    | with_reducible apply writeKeep_steady | with_reducible apply closeAct_steady
    | with_reducible apply fallBack_steady | with_reducible apply modUpd_steady | with_reducible apply steady_ite
    | with_reducible apply steadyOut_next | split

theorem actCommitted_steady (s : State) (subj phase : Nat) (hst : Steady tb qu s) :
    Steady tb qu (State.actCommitted s subj phase) := by
  unfold State.actCommitted
  repeat' first
    | with_reducible assumption | intro _ | with_reducible apply event_steady | with_reducible apply report_steady
    | with_reducible apply setAct_steady | with_reducible apply setBit_steady
    | with_reducible apply lampRoomReset_steady | with_reducible apply makeActive_steady
    | with_reducible apply steady_ite | with_reducible apply steadyOut_next | split

theorem actRefused_steady (s : State) (subj phase : Nat) (hst : Steady tb qu s) :
    Steady tb qu (State.actRefused s subj phase) := by
  unfold State.actRefused
  repeat' first
    | with_reducible assumption | intro _ | with_reducible apply offerAct_steady | with_reducible apply setAct_steady
    | with_reducible apply event_steady | with_reducible apply steady_ite | (simp only [steady_mk, steady_mkCore])
    | with_reducible apply steadyOut_next | split

theorem actReleased_steady (s : State) (hst : Steady tb qu s) :
    Steady tb qu (State.actReleased s) := by
  unfold State.actReleased
  repeat' first
    | with_reducible assumption | intro _ | with_reducible apply setAct_steady | with_reducible apply event_steady
    | with_reducible apply report_steady | with_reducible apply steady_ite | with_reducible apply steadyOut_next
    | split

theorem execTrialExpiry_steady (s : State) (hst : Steady tb qu s) :
    SteadyOut tb qu (execTrialExpiry s) := by
  unfold execTrialExpiry
  repeat' first
    | with_reducible assumption | intro _ | with_reducible apply lampRoomReset_steady
    | with_reducible apply steady_ite | with_reducible apply steadyOut_next | split

theorem updCmdWritten_steady (s : State) (m : Nat) (w : Word) (hst : Steady tb qu s) :
    Steady tb qu (State.updCmdWritten s m w) := by
  unfold State.updCmdWritten
  repeat' first
    | with_reducible assumption | intro _ | with_reducible apply setXfer_steady | with_reducible apply setFld_steady
    | with_reducible apply openXfer_steady | with_reducible apply closeXfer_steady
    | with_reducible apply endXfer_steady | with_reducible apply activate_steady
    | with_reducible apply offerAct_steady | with_reducible apply setAct_steady | with_reducible apply steady_ite
    | (simp only [steady_mk, steady_mkCore]) | with_reducible apply steadyOut_next | split

theorem updDataWritten_steady (s : State) (w : Word) (hst : Steady tb qu s) :
    Steady tb qu (State.updDataWritten s w) := by
  unfold State.updDataWritten
  repeat' first
    | with_reducible assumption | intro _ | with_reducible apply xferData_steady | with_reducible apply steady_ite
    | with_reducible apply steadyOut_next | split

theorem keyWritten_steady (s : State) (w : Word) (hst : Steady tb qu s) :
    Steady tb qu (State.keyWritten s w) := by
  unfold State.keyWritten
  repeat' first
    | with_reducible assumption | intro _ | with_reducible apply modUpd_steady
    | with_reducible apply steady_ite

theorem execKeyProgrammingDone_steady (s : State) (hst : Steady tb qu s) :
    SteadyOut tb qu (execKeyProgrammingDone s) := by
  unfold execKeyProgrammingDone
  repeat' first
    | with_reducible assumption | intro _ | with_reducible apply modUpd_steady | with_reducible apply event_steady
    | with_reducible apply steady_ite | with_reducible apply steadyOut_next

theorem tellLane_steady (s : State) (thread v aux : Nat) (hst : Steady tb qu s) :
    Steady tb qu (State.tellLane s thread v aux) := by
  unfold State.tellLane
  repeat' first
    | with_reducible assumption | intro _ | with_reducible apply send_steady

theorem tellCommit_steady (s : State) (o : JOrigin) (q : Nat) (hst : Steady tb qu s) :
    Steady tb qu (State.tellCommit s o q) := by
  unfold State.tellCommit
  repeat' first
    | with_reducible assumption | intro _ | with_reducible apply tellLane_steady
    | with_reducible apply setResult_steady | with_reducible apply setReg_steady
    | with_reducible apply pendInterrupt_steady | with_reducible apply setBit_steady
    | with_reducible apply setFld_steady | with_reducible apply intentCommitted_steady
    | with_reducible apply actCommitted_steady | with_reducible apply beganCopying_steady
    | with_reducible apply beganErasing_steady | with_reducible apply steady_ite | with_reducible apply steadyOut_next
    | split

theorem tellRefusal_steady (s : State) (o : JOrigin) (hst : Steady tb qu s) :
    Steady tb qu (State.tellRefusal s o) := by
  unfold State.tellRefusal
  repeat' first
    | with_reducible assumption | intro _ | with_reducible apply tellLane_steady
    | with_reducible apply setResult_steady | with_reducible apply pendInterrupt_steady
    | with_reducible apply setBit_steady | with_reducible apply setFld_steady
    | with_reducible apply intentRefused_steady | with_reducible apply actRefused_steady
    | with_reducible apply steady_ite | with_reducible apply steadyOut_next | split

theorem execJournalGroupAccept_steady (s : State) (hst : Steady tb qu s) :
    SteadyOut tb qu (execJournalGroupAccept s) := by
  unfold execJournalGroupAccept
  repeat' first
    | with_reducible assumption | intro _ | with_reducible apply modJnl_steady
    | with_reducible apply enterCaddy_steady | with_reducible apply countRefused_steady
    | with_reducible apply tellRefusal_steady | with_reducible apply steady_ite | with_reducible apply steadyOut_next
    | split

theorem imageEvents_steady (s : State) (g : JGroup) (hst : Steady tb qu s) :
    Steady tb qu (State.imageEvents s g) := by
  unfold State.imageEvents
  repeat' first
    | with_reducible assumption | intro _ | with_reducible apply evrEvent_steady
    | with_reducible apply steady_ite | with_reducible apply steady_foldl

theorem execGroupCommit_steady (verified : Bool) (s : State) (hst : Steady tb qu s) :
    SteadyOut tb qu (execGroupCommit verified s) := by
  unfold execGroupCommit
  repeat' first
    | with_reducible assumption | intro _ | with_reducible apply programGroup_steady
    | with_reducible apply modJnl_steady | with_reducible apply showCaddy_steady
    | with_reducible apply imageEvents_steady | with_reducible apply tellCommit_steady
    | with_reducible apply programFailed_steady | with_reducible apply steady_ite
    | (with_reducible refine placeGroup_steady ‹State.placeGroup _ _ _ = some (_, _)› ?_)
    | with_reducible apply steadyOut_next | split

theorem execCompactionStart_steady (s : State) (hst : Steady tb qu s) :
    SteadyOut tb qu (execCompactionStart s) := by
  unfold execCompactionStart
  repeat' first
    | with_reducible assumption | intro _ | with_reducible apply modComp_steady | with_reducible apply modJnl_steady
    | with_reducible apply enterCaddy_steady | with_reducible apply steady_ite | with_reducible apply steadyOut_next

theorem execCompactionCopyEnd_steady (s : State) (hst : Steady tb qu s) :
    SteadyOut tb qu (execCompactionCopyEnd s) := by
  unfold execCompactionCopyEnd
  repeat' first
    | with_reducible assumption | intro _ | with_reducible apply programCopies_steady
    | with_reducible apply modComp_steady | with_reducible apply enterCaddy_steady | with_reducible apply steady_ite
    | (with_reducible refine planCopies_steady ‹State.planCopies _ _ _ _ = some (_, _)› ?_)
    | (simp only [steady_mk, steady_mkCore]) | with_reducible apply steadyOut_next | split

theorem leaveFull_steady (s : State) (hst : Steady tb qu s) :
    Steady tb qu (State.leaveFull s) := by
  unfold State.leaveFull
  repeat' first
    | with_reducible assumption | intro _ | with_reducible apply setFld_steady
    | with_reducible apply steady_ite

theorem victimDone_steady (s : State) (k : Nat) (hst : Steady tb qu s) :
    Steady tb qu (State.victimDone s k) := by
  unfold State.victimDone
  repeat' first
    | with_reducible assumption | intro _ | with_reducible apply modJnl_steady
    | with_reducible apply modComp_steady | with_reducible apply showSegs_steady
    | with_reducible apply leaveFull_steady | with_reducible apply compactionEnded_steady
    | with_reducible apply steady_ite

theorem execSegmentEraseEnd_steady (ok : Bool) (s : State) (hst : Steady tb qu s) :
    SteadyOut tb qu (execSegmentEraseEnd ok s) := by
  unfold execSegmentEraseEnd
  repeat' first
    | with_reducible assumption | intro _ | with_reducible apply eraseSegment_steady
    | with_reducible apply victimDone_steady | with_reducible apply flashError_steady
    | with_reducible apply showSeg_steady | with_reducible apply modJnl_steady | with_reducible apply steady_ite
    | with_reducible apply steadyOut_next | split

/-- The timebase starts at a value of its own. -/
theorem startTbc_steady (s : State) (hst : Steady tb qu s) : ∃ b, Steady b qu s.startTbc := by
  refine ⟨BitVec.ofNat 64 ((s.pair A.jnlMaxstampLo / second + 2) * second), ?_⟩
  unfold State.startTbc
  with_reducible apply event_steady
  with_reducible apply setBit_steady
  with_reducible apply setPair_steady
  exact Steady.of hst.regs hst.flash hst.core hst.lanes hst.pending (.inl rfl)

theorem readKept_steady (s : State) (hst : Steady tb qu s) :
    Steady tb qu (State.readKept s) := by
  unfold State.readKept
  repeat' first
    | with_reducible assumption | intro _ | with_reducible apply modField_steady

theorem startManagement_steady (s : State) (hst : Steady tb qu s) :
    Steady tb qu (State.startManagement s) := by
  unfold State.startManagement
  repeat' first
    | with_reducible assumption | intro _ | with_reducible apply makeActive_steady
    | with_reducible apply bootFrom_steady | with_reducible apply rollBackTo_steady | with_reducible apply steady_ite
    | with_reducible apply steadyOut_next | split

theorem startLane_steady (s : State) (hst : Steady tb qu s) :
    Steady tb qu (State.startLane s) := by
  unfold State.startLane
  repeat' first
    | with_reducible assumption | intro _ | with_reducible apply fallBack_steady | with_reducible apply noImage_steady
    | with_reducible apply setAct_steady | with_reducible apply makeActive_steady | with_reducible apply modUpd_steady
    | with_reducible apply steady_ite | (simp only [steady_mk, steady_mkCore]) | with_reducible apply steadyOut_next
    | split

theorem execRecoveryDone_steady (ms boot : BitVec 16) (s : State) (hst : Steady tb qu s) :
    ∃ b, SteadyOut b qu (execRecoveryDone ms boot s) := by
  obtain ⟨b, h⟩ := startTbc_steady _ (endRecovery_steady s ms.toNat hst)
  unfold execRecoveryDone
  split
  · exact ⟨tb, steadyOut_next hst⟩
  · refine ⟨b, steadyOut_next ?_⟩
    with_reducible apply setStage_steady
    with_reducible apply modSup_steady
    with_reducible apply evrEvent_steady
    with_reducible apply startLane_steady
    with_reducible apply startManagement_steady
    with_reducible apply readKept_steady
    exact steady_foldl _ (steady_ite (jnlPowerFail_steady _ h) h) fun _ _ h => verifyAtStart_steady _ _ h

end Sys2Proof.Laws
end

