-- ==== Sys2Proof/Laws/SteadySteps.lean ====
section
/-! SUPPORT. Steadiness of the tally, the releases, the management bus, the core, the hand-on and the host SPI: one lemma for each operation and each
meaning. -/

set_option Elab.async false

namespace Sys2Proof.Laws

open Sys2Proof.Machine

set_option linter.unusedSimpArgs false
set_option linter.unusedVariables false

variable {tb : Stamp} {qu : List Instr}


theorem modTly_steady (s : State) (g : Tally → Tally) (hst : Steady tb qu s) :
    Steady tb qu (State.modTly s g) := by
  unfold State.modTly
  repeat' first
    | with_reducible assumption | intro _ | with_reducible apply steady_ite
    | with_reducible apply steady_foldl | with_reducible apply steady_filter
    | with_reducible apply steady_lanesMap | (simp only [steady_mk, steady_mkCore])

theorem showMode_steady (s : State) (hst : Steady tb qu s) :
    Steady tb qu (State.showMode s) := by
  unfold State.showMode
  repeat' first
    | with_reducible assumption | intro _ | with_reducible apply setFld_steady
    | with_reducible apply steady_ite

theorem showWindows_steady (s : State) (k : Nat) (hst : Steady tb qu s) :
    Steady tb qu (State.showWindows s k) := by
  unfold State.showWindows
  repeat' first
    | with_reducible assumption | intro _ | with_reducible apply setFld_steady
    | with_reducible apply steady_ite | with_reducible apply steady_foldl

theorem tallyEvent_steady (s : State) (flag : Fld) (lane : Nat) (f : Stamp) (hst : Steady tb qu s) :
    Steady tb qu (State.tallyEvent s flag lane f) := by
  unfold State.tallyEvent
  repeat' first
    | with_reducible assumption | intro _ | with_reducible apply event_steady
    | with_reducible apply evrEvent_steady

theorem outVote_steady (s : State) (l : LaneId) (cause k : Nat) (f : Stamp) (hst : Steady tb qu s) :
    Steady tb qu (State.outVote s l cause k f) := by
  unfold State.outVote
  repeat' first
    | with_reducible assumption | intro _ | with_reducible apply satInc_steady
    | with_reducible apply setFld_steady | with_reducible apply setReg_steady
    | with_reducible apply modTly_steady | with_reducible apply tallyEvent_steady
    | with_reducible apply event_steady | with_reducible apply raise_steady | with_reducible apply steady_ite

theorem retire_steady (s : State) (l : LaneId) (f : Stamp) (hst : Steady tb qu s) :
    Steady tb qu (State.retire s l f) := by
  unfold State.retire
  repeat' first
    | with_reducible assumption | intro _ | with_reducible apply modTly_steady | with_reducible apply setFld_steady
    | with_reducible apply setLaneState_steady | with_reducible apply tallyEvent_steady
    | with_reducible apply raise_steady | with_reducible apply steady_ite | with_reducible apply steadyOut_next
    | split

theorem dispose_steady (s : State) (l : LaneId) (cause : Nat) (pair : List LaneId) (split : Bool) (f : Stamp) (hst : Steady tb qu s) :
    Steady tb qu (State.dispose s l cause pair split f) := by
  unfold State.dispose
  repeat' first
    | with_reducible assumption | intro _ | with_reducible apply retire_steady | with_reducible apply modTly_steady
    | with_reducible apply steady_ite | with_reducible apply steadyOut_next | split

theorem abandonRepair_steady (s : State) (f : Stamp) (hst : Steady tb qu s) :
    Steady tb qu (State.abandonRepair s f) := by
  unfold State.abandonRepair
  repeat' first
    | with_reducible assumption | intro _ | with_reducible apply event_steady | with_reducible apply retire_steady
    | with_reducible apply steady_ite | with_reducible apply steadyOut_next | split

theorem tellThreadFaults_steady (s : State) (v : List LaneId) (f : Stamp) (hst : Steady tb qu s) :
    Steady tb qu (State.tellThreadFaults s v f) := by
  unfold State.tellThreadFaults
  repeat' first
    | with_reducible assumption | intro _ | with_reducible apply raise_steady
    | with_reducible apply steady_ite | with_reducible apply steady_foldl

theorem tellFull_steady (s : State) (v : List LaneId) (f : Stamp) (hst : Steady tb qu s) :
    Steady tb qu (State.tellFull s v f) := by
  unfold State.tellFull
  repeat' first
    | with_reducible assumption | intro _ | with_reducible apply event_steady
    | with_reducible apply raise_steady | with_reducible apply steady_ite | with_reducible apply steady_foldl

theorem splitFrame_steady (s : State) (held : Bool) (f : Stamp) (hst : Steady tb qu s) :
    Steady tb qu (State.splitFrame s held f) := by
  unfold State.splitFrame
  repeat' first
    | with_reducible assumption | intro _ | with_reducible apply setFld_steady
    | with_reducible apply tallyEvent_steady | with_reducible apply raise_steady
    | with_reducible apply safeOn_steady | with_reducible apply steady_ite

theorem handOver_steady (s : State) (items : List (Txn × Bool)) (k : Nat) (f : Stamp) (hst : Steady tb qu s) :
    Steady tb qu (State.handOver s items k f) := by
  unfold State.handOver
  repeat' first
    | with_reducible assumption | intro _ | with_reducible apply satAdd_steady
    | with_reducible apply send_steady | with_reducible apply modTly_steady
    | with_reducible apply setPair_steady | with_reducible apply lastPeak_steady
    | with_reducible apply steady_ite | with_reducible apply steady_foldl

theorem decideFrame_steady (s : State) (k : Nat) (f : Stamp) (hst : Steady tb qu s) :
    Steady tb qu (State.decideFrame s k f) := by
  unfold State.decideFrame
  repeat' first
    | with_reducible assumption | intro _ | with_reducible apply tellFull_steady
    | with_reducible apply tellThreadFaults_steady | with_reducible apply abandonRepair_steady
    | with_reducible apply outVote_steady | with_reducible apply modTly_steady
    | with_reducible apply dispose_steady | with_reducible apply splitFrame_steady
    | with_reducible apply handOver_steady | with_reducible apply steady_ite | with_reducible apply steady_foldl

theorem retireAsked_steady (s : State) (k : Nat) (f : Stamp) (hst : Steady tb qu s) :
    Steady tb qu (State.retireAsked s k f) := by
  unfold State.retireAsked
  repeat' first
    | with_reducible assumption | intro _ | with_reducible apply outVote_steady | with_reducible apply retire_steady
    | with_reducible apply steady_ite | with_reducible apply steadyOut_next | split

theorem flushOuts_steady (s : State) (hst : Steady tb qu s) :
    Steady tb qu (State.flushOuts s) := by
  unfold State.flushOuts
  repeat' first
    | with_reducible assumption | intro _ | with_reducible apply sendOut_steady | with_reducible apply modCell_steady
    | with_reducible apply steady_ite | with_reducible apply steady_foldl | with_reducible apply steadyOut_next
    | with_reducible apply steadyOut_ite | split

theorem execFrameSeam_steady (s : State) (hst : Steady tb qu s) :
    SteadyOut tb qu (execFrameSeam s) := by
  unfold execFrameSeam
  repeat' first
    | with_reducible assumption | intro _ | with_reducible apply decideFrame_steady
    | with_reducible apply retireAsked_steady | with_reducible apply showWindows_steady
    | with_reducible apply showMode_steady | with_reducible apply modTly_steady
    | with_reducible apply flushOuts_steady | with_reducible apply outRecord_steady
    | with_reducible apply modField_steady | with_reducible apply setReg_steady | with_reducible apply setPair_steady
    | with_reducible apply dedicSeam_steady | with_reducible apply steady_ite | with_reducible apply steady_foldl
    | (simp only [steady_mk, steady_mkCore]) | with_reducible apply steadyOut_next
    | with_reducible apply steadyOut_ite | split

theorem execInputArrival_steady (s : State) (hst : Steady tb qu s) :
    SteadyOut tb qu (execInputArrival s) := by
  unfold execInputArrival
  repeat' first
    | with_reducible assumption | intro _ | with_reducible apply modTly_steady | with_reducible apply setFld_steady
    | with_reducible apply hcmdPosted_steady | with_reducible apply steady_ite | with_reducible apply steadyOut_next
    | split

theorem carrySet_steady (s : State) (hst : Steady tb qu s) :
    Steady tb qu (State.carrySet s) := by
  unfold State.carrySet
  repeat' first
    | with_reducible assumption | intro _ | with_reducible apply modTly_steady

theorem noteLate_steady (s : State) (rs : List InRec) (hst : Steady tb qu s) :
    Steady tb qu (State.noteLate s rs) := by
  unfold State.noteLate
  repeat' first
    | with_reducible assumption | intro _ | with_reducible apply event_steady
    | with_reducible apply satInc_steady | with_reducible apply report_steady | with_reducible apply steady_ite
    | with_reducible apply steady_foldl

theorem execInputCut_steady (badA badB badC : Bool) (s : State) (hst : Steady tb qu s) :
    SteadyOut tb qu (execInputCut badA badB badC s) := by
  unfold execInputCut
  repeat' first
    | with_reducible assumption | intro _ | with_reducible apply noteLate_steady | with_reducible apply modTly_steady
    | with_reducible apply lastPeak_steady | with_reducible apply abandonRepair_steady
    | with_reducible apply splitFrame_steady | with_reducible apply carrySet_steady | with_reducible apply steady_ite
    | (simp only [steady_mk, steady_mkCore]) | with_reducible apply steadyOut_next

theorem lateLane_steady (s : State) (l : LaneId) (hst : Steady tb qu s) :
    Steady tb qu (State.lateLane s l) := by
  unfold State.lateLane
  repeat' first
    | with_reducible assumption | intro _ | with_reducible apply modLane_steady | with_reducible apply event_steady
    | with_reducible apply steady_ite | with_reducible apply steady_foldl | with_reducible apply steadyOut_next
    | with_reducible apply steadyOut_ite | (simp only [LaneSt.putThread, dropGroup_keep]; assumption)

theorem releaseLane_steady (s : State) (cmds : List ThreadCmd) (rs : List InRec) (powerFail : Bool) (l : LaneId) (hst : Steady tb qu s) :
    Steady tb qu (State.releaseLane s cmds rs powerFail l) := by
  unfold State.releaseLane
  repeat' first
    | with_reducible assumption | intro _ | with_reducible apply lateLane_steady | with_reducible apply modLane_steady
    | with_reducible apply setFld_steady | with_reducible apply lastPeak_steady
    | with_reducible apply setLaneState_steady | with_reducible apply completeFrame_steady
    | with_reducible apply steady_ite | with_reducible apply steady_filter | with_reducible apply steady_lanesMap
    | with_reducible apply steadyOut_next | (apply Steady.keepOf)

theorem repairRelease_steady (s : State) (r : Repair) (retrim : Bool) (hst : Steady tb qu s) :
    Steady tb qu (State.repairRelease s r retrim) := by
  unfold State.repairRelease
  repeat' first
    | with_reducible assumption | intro _ | with_reducible apply lateLane_steady
    | with_reducible apply setLaneState_steady | with_reducible apply setFld_steady
    | with_reducible apply modTly_steady | with_reducible apply retrimIsland_steady
    | with_reducible apply retire_steady | with_reducible apply steady_ite

theorem rejoin_steady (s : State) (r : Repair) (hst : Steady tb qu s) :
    Steady tb qu (State.rejoin s r) := by
  unfold State.rejoin
  repeat' first
    | with_reducible assumption | intro _ | with_reducible apply modLane_steady
    | with_reducible apply modTly_steady | with_reducible apply setFld_steady
    | with_reducible apply setLaneState_steady | with_reducible apply tallyEvent_steady

theorem repairStep_steady (s : State) (retrim : Bool) (hst : Steady tb qu s) :
    Steady tb qu (State.repairStep s retrim) := by
  unfold State.repairStep
  repeat' first
    | with_reducible assumption | intro _ | with_reducible apply repairRelease_steady
    | with_reducible apply rejoin_steady | with_reducible apply steady_ite | with_reducible apply steadyOut_next
    | split

theorem execRepairCopyEnd_steady (l : LaneId) (s : State) (hst : Steady tb qu s) :
    SteadyOut tb qu (execRepairCopyEnd l s) := by
  unfold execRepairCopyEnd
  repeat' first
    | with_reducible assumption | intro _ | with_reducible apply modLane_steady | with_reducible apply setReg_steady
    | with_reducible apply setFld_steady | with_reducible apply modTly_steady | with_reducible apply steady_ite
    | with_reducible apply steady_filter | with_reducible apply steady_lanesMap | with_reducible apply steadyOut_next
    | (apply Steady.keepOf) | split

theorem tlyCtrlWritten_steady (s : State) (w : Word) (hst : Steady tb qu s) :
    Steady tb qu (State.tlyCtrlWritten s w) := by
  unfold State.tlyCtrlWritten
  repeat' first
    | with_reducible assumption | intro _ | with_reducible apply modTly_steady | with_reducible apply setFld_steady
    | with_reducible apply steady_ite | with_reducible apply steadyOut_next | split

theorem inputOut_steady (s : State) (hst : Steady tb qu s) :
    Steady tb qu (State.inputOut s) := by
  unfold State.inputOut
  repeat' first
    | with_reducible assumption | intro _ | with_reducible apply setBit_steady
    | with_reducible apply modTly_steady | with_reducible apply outVote_steady | with_reducible apply steady_ite
    | with_reducible apply steady_foldl

theorem firstRelease_steady (s : State) (hst : Steady tb qu s) :
    Steady tb qu (State.firstRelease s) := by
  unfold State.firstRelease
  repeat' first
    | with_reducible assumption | intro _ | with_reducible apply setStage_steady
    | with_reducible apply setFld_steady | with_reducible apply modTly_steady | with_reducible apply steady_ite

theorem noteCarry_steady (s : State) (l : LaneId) (hst : Steady tb qu s) :
    Steady tb qu (State.noteCarry s l) := by
  unfold State.noteCarry
  repeat' first
    | with_reducible assumption | intro _ | with_reducible apply event_steady
    | with_reducible apply raise_steady

theorem execFrameRelease_steady (retrim : Bool) (s : State) (hst : Steady tb qu s) :
    SteadyOut tb qu (execFrameRelease retrim s) := by
  unfold execFrameRelease
  repeat' first
    | with_reducible assumption | intro _ | with_reducible apply carrySet_steady | with_reducible apply modTly_steady
    | with_reducible apply showMode_steady | with_reducible apply inputOut_steady
    | with_reducible apply repairStep_steady | with_reducible apply releaseLane_steady
    | with_reducible apply noteCarry_steady | with_reducible apply firstRelease_steady
    | with_reducible apply actReleased_steady | with_reducible apply steady_ite | with_reducible apply steady_foldl
    | (simp only [steady_mk, steady_mkCore]) | with_reducible apply steadyOut_next

theorem execHeartbeat_steady (l : LaneId) (ticks : BitVec 32) (s : State) (hst : Steady tb qu s) :
    SteadyOut tb qu (execHeartbeat l ticks s) := by
  unfold execHeartbeat
  repeat' first
    | with_reducible assumption | intro _ | with_reducible apply modTly_steady | with_reducible apply setFld_steady
    | with_reducible apply steady_ite | with_reducible apply steadyOut_next | split

theorem laneFails_steady (s : State) (l : LaneId) (f : LaneFault) (hst : Steady tb qu s) :
    Steady tb qu (State.laneFails s l f) := by
  unfold State.laneFails
  repeat' first
    | with_reducible assumption | intro _ | with_reducible apply modLane_steady

theorem execKeepScrub_steady (l : LaneId) (found : ScrubFind) (s : State) (hst : Steady tb qu s) :
    SteadyOut tb qu (execKeepScrub l found s) := by
  unfold execKeepScrub
  repeat' first
    | with_reducible assumption | intro _ | with_reducible apply satInc_steady | with_reducible apply event_steady
    | with_reducible apply raise_steady | with_reducible apply laneFails_steady | with_reducible apply steady_ite
    | with_reducible apply steadyOut_next | split

theorem storeReg_steady (s : State) (m a : Nat) (w : Word) (hst : Steady tb qu s) :
    Steady tb qu (State.storeReg s m a w) := by
  unfold State.storeReg
  repeat' first
    | with_reducible assumption | intro _ | with_reducible apply setReg_steady | with_reducible apply steady_ite
    | with_reducible apply steadyOut_next | split

theorem clearFlags_steady (s : State) (a : Nat) (w : Word) (hst : Steady tb qu s) :
    Steady tb qu (State.clearFlags s a w) := by
  unfold State.clearFlags
  repeat' first
    | with_reducible assumption | intro _ | with_reducible apply setReg_steady
    | with_reducible apply fltStatusWritten_steady | with_reducible apply steady_ite

theorem stageLow_steady (s : State) (m a : Nat) (w : Word) (hst : Steady tb qu s) :
    Steady tb qu (State.stageLow s m a w) := by
  unfold State.stageLow
  repeat' first
    | with_reducible assumption | intro _ | with_reducible apply steady_ite | (simp only [steady_mk, steady_mkCore])

theorem commitHigh_steady (s : State) (m a : Nat) (w : Word) (hst : Steady tb qu s) :
    Steady tb qu (State.commitHigh s m a w) := by
  unfold State.commitHigh
  repeat' first
    | with_reducible assumption | intro _ | with_reducible apply setReg_steady | with_reducible apply steady_ite
    | (simp only [steady_mk, steady_mkCore]) | with_reducible apply steadyOut_next | split

theorem trmWritten_steady (s : State) (m a : Nat) (w : Word) (hst : Steady tb qu s) :
    Steady tb qu (State.trmWritten s m a w) := by
  unfold State.trmWritten
  repeat' first
    | with_reducible assumption | intro _ | with_reducible apply storeReg_steady
    | with_reducible apply modeWritten_steady | with_reducible apply doWritten_steady
    | with_reducible apply loopWritten_steady | with_reducible apply steady_ite | with_reducible apply steadyOut_next
    | split

theorem excBlockWritten_steady (s : State) (m a : Nat) (w : Word) (hst : Steady tb qu s) :
    Steady tb qu (State.excBlockWritten s m a w) := by
  unfold State.excBlockWritten
  repeat' first
    | with_reducible assumption | intro _ | with_reducible apply excWritten_steady
    | with_reducible apply storeReg_steady | with_reducible apply calNow_steady
    | with_reducible apply steady_ite

theorem hrtWritten_steady (s : State) (m a : Nat) (w : Word) (hst : Steady tb qu s) :
    Steady tb qu (State.hrtWritten s m a w) := by
  unfold State.hrtWritten
  repeat' first
    | with_reducible assumption | intro _ | with_reducible apply mcmdWritten_steady
    | with_reducible apply storeReg_steady | with_reducible apply steady_ite

theorem seqCtrlWritten_steady (s : State) (w : Word) (hst : Steady tb qu s) :
    Steady tb qu (State.seqCtrlWritten s w) := by
  unfold State.seqCtrlWritten
  repeat' first
    | with_reducible assumption | intro _ | with_reducible apply copyWritten_steady
    | with_reducible apply commitWritten_steady | with_reducible apply steady_ite

theorem modKeep_steady (s : State) (g : List (Nat × TWord) → List (Nat × TWord)) (hst : Steady tb qu s)
    (hg : ∀ m, KeepOk m → KeepOk (g m)) : Steady tb qu (s.modKeep g) := by
  unfold State.modKeep
  with_reducible apply steady_lanesMap hst
  exact fun ln h => hg _ h

theorem laneWritten_steady (s : State) (a : Nat) (w : Word) (hst : Steady tb qu s) :
    Steady tb qu (s.laneWritten a w) := by
  unfold State.laneWritten
  refine steady_ite (steady_ite hst (steady_mk.2 hst)) (steady_ite ?_ ?_)
  · exact modKeep_steady _ _ hst fun m h => keepOk_foldl _ h fun m _ h => keepOk_put h _ _
  · exact modKeep_steady _ _ hst fun m h => keepOk_put h _ _

theorem trpWritten_steady (s : State) (m a : Nat) (w : Word) (hst : Steady tb qu s) :
    Steady tb qu (State.trpWritten s m a w) := by
  unfold State.trpWritten
  repeat' first
    | with_reducible assumption | intro _ | with_reducible apply resetTerms_steady
    | with_reducible apply storeReg_steady | with_reducible apply trpCfgWritten_steady
    | with_reducible apply steady_ite

theorem mgsWritten_steady (s : State) (m a : Nat) (w : Word) (hst : Steady tb qu s) :
    Steady tb qu (State.mgsWritten s m a w) := by
  unfold State.mgsWritten
  repeat' first
    | with_reducible assumption | intro _ | with_reducible apply storeReg_steady
    | with_reducible apply readyWritten_steady | with_reducible apply wdogWritten_steady
    | with_reducible apply hcmdWritten_steady | with_reducible apply saveWritten_steady
    | with_reducible apply popWritten_steady | with_reducible apply steady_ite

theorem jnlWritten_steady (s : State) (m a : Nat) (w : Word) (corr : Bool) (hst : Steady tb qu s) :
    Steady tb qu (State.jnlWritten s m a w corr) := by
  unfold State.jnlWritten
  repeat' first
    | with_reducible assumption | intro _ | with_reducible apply storeReg_steady
    | with_reducible apply modJnl_steady | with_reducible apply lookWritten_steady
    | with_reducible apply stageLow_steady | with_reducible apply commitHigh_steady
    | with_reducible apply wcmdWritten_steady | with_reducible apply fcmdWritten_steady
    | with_reducible apply steady_ite

theorem rtcWritten_steady (s : State) (m a : Nat) (w : Word) (hst : Steady tb qu s) :
    Steady tb qu (State.rtcWritten s m a w) := by
  unfold State.rtcWritten
  repeat' first
    | with_reducible assumption | intro _ | with_reducible apply commitTime_steady
    | with_reducible apply stageTime_steady | with_reducible apply fclrWritten_steady
    | with_reducible apply storeReg_steady | with_reducible apply steady_ite

theorem pnlWritten_steady (s : State) (m a : Nat) (w : Word) (hst : Steady tb qu s) :
    Steady tb qu (State.pnlWritten s m a w) := by
  unfold State.pnlWritten
  repeat' first
    | with_reducible assumption | intro _ | with_reducible apply storeReg_steady
    | with_reducible apply panelCtrlWritten_steady | with_reducible apply waveCommitted_steady
    | with_reducible apply steady_ite

theorem mdioRuns_steady (s : State) (w : Word) (hst : Steady tb qu s) :
    Steady tb qu (State.mdioRuns s w) := by
  unfold State.mdioRuns
  repeat' first
    | with_reducible assumption | intro _ | with_reducible apply nextFree_steady
    | with_reducible apply setFld_steady | with_reducible apply steady_ite

theorem netWritten_steady (s : State) (m a : Nat) (w : Word) (hst : Steady tb qu s) :
    Steady tb qu (State.netWritten s m a w) := by
  unfold State.netWritten
  repeat' first
    | with_reducible assumption | intro _ | with_reducible apply acfgWrite_steady
    | with_reducible apply storeReg_steady | with_reducible apply allDown_steady
    | with_reducible apply pcfgWritten_steady | with_reducible apply ccfgWritten_steady
    | with_reducible apply mdioRuns_steady | with_reducible apply steady_ite

theorem updWritten_steady (s : State) (m a : Nat) (w : Word) (hst : Steady tb qu s) :
    Steady tb qu (State.updWritten s m a w) := by
  unfold State.updWritten
  repeat' first
    | with_reducible assumption | intro _ | with_reducible apply updCmdWritten_steady
    | with_reducible apply updDataWritten_steady | with_reducible apply keyWritten_steady
    | with_reducible apply storeReg_steady | with_reducible apply steady_ite

theorem fltWritten_steady (s : State) (m a : Nat) (w : Word) (hst : Steady tb qu s) :
    Steady tb qu (State.fltWritten s m a w) := by
  unfold State.fltWritten
  repeat' first
    | with_reducible assumption | intro _ | with_reducible apply fltCtrlWritten_steady
    | with_reducible apply safeKeyWritten_steady | with_reducible apply storeReg_steady
    | with_reducible apply steady_ite

theorem blockWritten_steady (s : State) (m a : Nat) (w : Word) (corr : Bool) (hst : Steady tb qu s) :
    Steady tb qu (State.blockWritten s m a w corr) := by
  unfold State.blockWritten
  repeat' first
    | with_reducible assumption | intro _ | with_reducible apply rstWritten_steady
    | with_reducible apply storeReg_steady | with_reducible apply fltWritten_steady
    | with_reducible apply rtcWritten_steady | with_reducible apply swtrigWritten_steady
    | with_reducible apply clearWritten_steady | with_reducible apply jnlWritten_steady
    | with_reducible apply mgsWritten_steady | with_reducible apply trmWritten_steady
    | with_reducible apply toptWritten_steady | with_reducible apply excBlockWritten_steady
    | with_reducible apply asyWritten_steady | with_reducible apply hrtWritten_steady
    | with_reducible apply seqCtrlWritten_steady | with_reducible apply laneWritten_steady
    | with_reducible apply tlyCtrlWritten_steady | with_reducible apply trpWritten_steady
    | with_reducible apply pnlWritten_steady | with_reducible apply netWritten_steady
    | with_reducible apply updWritten_steady | with_reducible apply steady_ite

theorem regWritten_steady (s : State) (m a : Nat) (w : Word) (corr : Bool) (hst : Steady tb qu s) :
    Steady tb qu (State.regWritten s m a w corr) := by
  unfold State.regWritten
  repeat' first
    | with_reducible assumption | intro _ | with_reducible apply clearFlags_steady
    | with_reducible apply blockWritten_steady | with_reducible apply steady_ite
    | (simp only [steady_mk, steady_mkCore]) | with_reducible apply steadyOut_next | split

theorem configStage_steady (s : State) (a : Nat) (hst : Steady tb qu s) : Steady tb qu (State.configStage s a) := by
  unfold State.configStage
  repeat' first
    | with_reducible assumption | with_reducible apply setStage_steady | with_reducible apply steady_ite

theorem writeSeen_steady (s : State) (s0 : State) (m a : Nat) (hst : Steady tb qu s) (hst1 : Steady tb qu s0) :
    Steady tb qu (State.writeSeen s s0 m a) := by
  unfold State.writeSeen
  repeat' first
    | with_reducible assumption | intro _ | with_reducible apply watchWrite_steady
    | with_reducible apply configStage_steady
    | with_reducible apply steady_ite

theorem writeRefused_steady (s : State) (m : Nat) (addr : Word) (hst : Steady tb qu s) :
    Steady tb qu (State.writeRefused s m addr) := by
  unfold State.writeRefused
  repeat' first
    | with_reducible assumption | intro _ | with_reducible apply busError_steady
    | with_reducible apply skipRestore_steady | with_reducible apply steady_ite

theorem busWriteWith_steady (s : State) (m : Nat) (addr data : Word) (corr : Bool) (hst : Steady tb qu s) :
    Steady tb qu (State.busWriteWith s m addr data corr).1 := by
  unfold State.busWriteWith
  repeat' first
    | with_reducible assumption | intro _ | with_reducible apply regWritten_steady
    | with_reducible apply writeSeen_steady | with_reducible apply writeRefused_steady
    | with_reducible apply steady_ite | with_reducible apply steady_ite_1

theorem busWrite_steady (s : State) (m : Nat) (addr data : Word) (hst : Steady tb qu s) :
    Steady tb qu (State.busWrite s m addr data).1 := by
  unfold State.busWrite
  repeat' first
    | with_reducible assumption | intro _ | with_reducible apply busWriteWith_steady

theorem readEffect_steady (s : State) (m a : Nat) (hst : Steady tb qu s) :
    Steady tb qu (State.readEffect s m a) := by
  unfold State.readEffect
  repeat' first
    | with_reducible assumption | intro _ | with_reducible apply timeRead_steady
    | with_reducible apply wendRead_steady | with_reducible apply steady_ite

theorem busRead_steady (s : State) (m : Nat) (addr : Word) (hst : Steady tb qu s) :
    Steady tb qu (State.busRead s m addr).2.2 := by
  unfold State.busRead
  repeat' first
    | with_reducible assumption | intro _ | with_reducible apply readEffect_steady
    | with_reducible apply busError_steady | with_reducible apply steady_ite
    | with_reducible apply steady_ite_22

theorem masterWrite_steady (s : State) (m : Master) (a : Nat) (w : Word) (hst : Steady tb qu s) :
    SteadyOut tb qu (State.masterWrite s m a w) := by
  unfold State.masterWrite
  repeat' first
    | with_reducible assumption | intro _ | with_reducible apply busWrite_steady | with_reducible apply steady_ite
    | with_reducible apply steadyOut_next

theorem masterRead_steady (s : State) (m : Master) (a : Nat) (hst : Steady tb qu s) :
    SteadyOut tb qu (State.masterRead s m a) := by
  unfold State.masterRead
  repeat' first
    | with_reducible assumption | intro _ | with_reducible apply busRead_steady | with_reducible apply steady_ite
    | with_reducible apply steadyOut_next

theorem execRegisterWrite_steady (m : Master) (addr data : Word) (s : State) (hst : Steady tb qu s) :
    SteadyOut tb qu (execRegisterWrite m addr data s) := by
  unfold execRegisterWrite
  repeat' first
    | with_reducible assumption | intro _ | with_reducible apply masterWrite_steady

theorem execSqClearWrite_steady (m : Master) (addr data : Word) (s : State) (hst : Steady tb qu s) :
    SteadyOut tb qu (execSqClearWrite m addr data s) := by
  unfold execSqClearWrite
  repeat' first
    | with_reducible assumption | intro _ | with_reducible apply masterWrite_steady

theorem execLkFieldWrite_steady (m : Master) (addr data : Word) (s : State) (hst : Steady tb qu s) :
    SteadyOut tb qu (execLkFieldWrite m addr data s) := by
  unfold execLkFieldWrite
  repeat' first
    | with_reducible assumption | intro _ | with_reducible apply masterWrite_steady

theorem execStageLowWord_steady (m : Master) (addr data : Word) (s : State) (hst : Steady tb qu s) :
    SteadyOut tb qu (execStageLowWord m addr data s) := by
  unfold execStageLowWord
  repeat' first
    | with_reducible assumption | intro _ | with_reducible apply masterWrite_steady

theorem execCommitHighWord_steady (m : Master) (addr data : Word) (s : State) (hst : Steady tb qu s) :
    SteadyOut tb qu (execCommitHighWord m addr data s) := by
  unfold execCommitHighWord
  repeat' first
    | with_reducible assumption | intro _ | with_reducible apply masterWrite_steady

theorem execTrmModeWrite_steady (m : Master) (t : Term) (data : Word) (s : State) (hst : Steady tb qu s) :
    SteadyOut tb qu (execTrmModeWrite m t data s) := by
  unfold execTrmModeWrite
  repeat' first
    | with_reducible assumption | intro _ | with_reducible apply masterWrite_steady

theorem execParWrite_steady (m : Master) (t : Term) (data : Word) (s : State) (hst : Steady tb qu s) :
    SteadyOut tb qu (execParWrite m t data s) := by
  unfold execParWrite
  repeat' first
    | with_reducible assumption | intro _ | with_reducible apply masterWrite_steady

theorem execExcSrcWrite_steady (m : Master) (i : Source) (data : Word) (s : State) (hst : Steady tb qu s) :
    SteadyOut tb qu (execExcSrcWrite m i data s) := by
  unfold execExcSrcWrite
  repeat' first
    | with_reducible assumption | intro _ | with_reducible apply masterWrite_steady

theorem execMuxToptWrite_steady (m : Master) (t : Term) (rlead : Bool) (data : Word) (s : State) (hst : Steady tb qu s) :
    SteadyOut tb qu (execMuxToptWrite m t rlead data s) := by
  unfold execMuxToptWrite
  repeat' first
    | with_reducible assumption | intro _ | with_reducible apply masterWrite_steady

theorem execCalNow_steady (m : Master) (period : BitVec 16) (s : State) (hst : Steady tb qu s) :
    SteadyOut tb qu (execCalNow m period s) := by
  unfold execCalNow
  repeat' first
    | with_reducible assumption | intro _ | with_reducible apply masterWrite_steady

theorem execSelftest_steady (m : Master) (c : Conv) (s : State) (hst : Steady tb qu s) :
    SteadyOut tb qu (execSelftest m c s) := by
  unfold execSelftest
  repeat' first
    | with_reducible assumption | intro _ | with_reducible apply masterWrite_steady

theorem execAsyDisable_steady (m : Master) (c : Conv) (s : State) (hst : Steady tb qu s) :
    SteadyOut tb qu (execAsyDisable m c s) := by
  unfold execAsyDisable
  repeat' first
    | with_reducible assumption | intro _ | with_reducible apply masterWrite_steady

theorem execAsyEnable_steady (m : Master) (c : Conv) (s : State) (hst : Steady tb qu s) :
    SteadyOut tb qu (execAsyEnable m c s) := by
  unfold execAsyEnable
  repeat' first
    | with_reducible assumption | intro _ | with_reducible apply masterWrite_steady

theorem execModemConnect_steady (m : Master) (h : Modem) (data : Word) (s : State) (hst : Steady tb qu s) :
    SteadyOut tb qu (execModemConnect m h data s) := by
  unfold execModemConnect
  repeat' first
    | with_reducible assumption | intro _ | with_reducible apply masterWrite_steady

theorem execSend_steady (m : Master) (h : Modem) (s : State) (hst : Steady tb qu s) :
    SteadyOut tb qu (execSend m h s) := by
  unfold execSend
  repeat' first
    | with_reducible assumption | intro _ | with_reducible apply masterWrite_steady

theorem execAbort_steady (m : Master) (h : Modem) (s : State) (hst : Steady tb qu s) :
    SteadyOut tb qu (execAbort m h s) := by
  unfold execAbort
  repeat' first
    | with_reducible assumption | intro _ | with_reducible apply masterWrite_steady

theorem execRxClr_steady (m : Master) (h : Modem) (s : State) (hst : Steady tb qu s) :
    SteadyOut tb qu (execRxClr m h s) := by
  unfold execRxClr
  repeat' first
    | with_reducible assumption | intro _ | with_reducible apply masterWrite_steady

theorem execSeqCommit_steady (m : Master) (s : State) (hst : Steady tb qu s) :
    SteadyOut tb qu (execSeqCommit m s) := by
  unfold execSeqCommit
  repeat' first
    | with_reducible assumption | intro _ | with_reducible apply masterWrite_steady

theorem execSeqCopy_steady (m : Master) (s : State) (hst : Steady tb qu s) :
    SteadyOut tb qu (execSeqCopy m s) := by
  unfold execSeqCopy
  repeat' first
    | with_reducible assumption | intro _ | with_reducible apply masterWrite_steady

theorem execRetireLane_steady (m : Master) (l : LaneId) (s : State) (hst : Steady tb qu s) :
    SteadyOut tb qu (execRetireLane m l s) := by
  unfold execRetireLane
  repeat' first
    | with_reducible assumption | intro _ | with_reducible apply masterWrite_steady

theorem execReturnLane_steady (m : Master) (l : LaneId) (s : State) (hst : Steady tb qu s) :
    SteadyOut tb qu (execReturnLane m l s) := by
  unfold execReturnLane
  repeat' first
    | with_reducible assumption | intro _ | with_reducible apply masterWrite_steady

theorem execThreadHaltCommand_steady (m : Master) (at_ : BitVec 22) (t : ThreadId) (s : State) (hst : Steady tb qu s) :
    SteadyOut tb qu (execThreadHaltCommand m at_ t s) := by
  unfold execThreadHaltCommand
  repeat' first
    | with_reducible assumption | intro _ | with_reducible apply masterWrite_steady

theorem execThreadRunCommand_steady (m : Master) (t : ThreadId) (s : State) (hst : Steady tb qu s) :
    SteadyOut tb qu (execThreadRunCommand m t s) := by
  unfold execThreadRunCommand
  repeat' first
    | with_reducible assumption | intro _ | with_reducible apply masterWrite_steady

theorem execTrpReset_steady (m : Master) (terms : Word) (s : State) (hst : Steady tb qu s) :
    SteadyOut tb qu (execTrpReset m terms s) := by
  unfold execTrpReset
  repeat' first
    | with_reducible assumption | intro _ | with_reducible apply masterWrite_steady

theorem execTrpCfgWrite_steady (m : Master) (n : TripId) (data : Word) (s : State) (hst : Steady tb qu s) :
    SteadyOut tb qu (execTrpCfgWrite m n data s) := by
  unfold execTrpCfgWrite
  repeat' first
    | with_reducible assumption | intro _ | with_reducible apply masterWrite_steady

theorem execAckAlarm_steady (m : Master) (subject : BitVec 16) (s : State) (hst : Steady tb qu s) :
    SteadyOut tb qu (execAckAlarm m subject s) := by
  unfold execAckAlarm
  repeat' first
    | with_reducible assumption | intro _ | with_reducible apply masterWrite_steady

theorem execAckGroup_steady (m : Master) (subject : BitVec 16) (s : State) (hst : Steady tb qu s) :
    SteadyOut tb qu (execAckGroup m subject s) := by
  unfold execAckGroup
  repeat' first
    | with_reducible assumption | intro _ | with_reducible apply masterWrite_steady

theorem execAnswer_steady (m : Master) (subject : BitVec 16) (s : State) (hst : Steady tb qu s) :
    SteadyOut tb qu (execAnswer m subject s) := by
  unfold execAnswer
  repeat' first
    | with_reducible assumption | intro _ | with_reducible apply masterWrite_steady

theorem execDuty_steady (m : Master) (subject : BitVec 16) (s : State) (hst : Steady tb qu s) :
    SteadyOut tb qu (execDuty m subject s) := by
  unfold execDuty
  repeat' first
    | with_reducible assumption | intro _ | with_reducible apply masterWrite_steady

theorem execRoster_steady (m : Master) (subject : BitVec 16) (s : State) (hst : Steady tb qu s) :
    SteadyOut tb qu (execRoster m subject s) := by
  unfold execRoster
  repeat' first
    | with_reducible assumption | intro _ | with_reducible apply masterWrite_steady

theorem execUser_steady (m : Master) (code : Byte) (subject : BitVec 16) (s : State) (hst : Steady tb qu s) :
    SteadyOut tb qu (execUser m code subject s) := by
  unfold execUser
  repeat' first
    | with_reducible assumption | intro _ | with_reducible apply masterWrite_steady

theorem execCompactNow_steady (m : Master) (s : State) (hst : Steady tb qu s) :
    SteadyOut tb qu (execCompactNow m s) := by
  unfold execCompactNow
  repeat' first
    | with_reducible assumption | intro _ | with_reducible apply masterWrite_steady

theorem lookup_steady (s : State) (m : Master) (cmd : Word) (corr : Bool) (hst : Steady tb qu s) :
    SteadyOut tb qu (State.lookup s m cmd corr) := by
  unfold State.lookup
  repeat' first
    | with_reducible assumption | intro _ | with_reducible apply busWriteWith_steady | with_reducible apply steady_ite
    | with_reducible apply steadyOut_next

theorem execLookExact_steady (m : Master) (corr : Bool) (s : State) (hst : Steady tb qu s) :
    SteadyOut tb qu (execLookExact m corr s) := by
  unfold execLookExact
  repeat' first
    | with_reducible assumption | intro _ | with_reducible apply lookup_steady

theorem execLookNext_steady (m : Master) (corr : Bool) (s : State) (hst : Steady tb qu s) :
    SteadyOut tb qu (execLookNext m corr s) := by
  unfold execLookNext
  repeat' first
    | with_reducible assumption | intro _ | with_reducible apply lookup_steady

theorem execAppend_steady (m : Master) (s : State) (hst : Steady tb qu s) :
    SteadyOut tb qu (execAppend m s) := by
  unfold execAppend
  repeat' first
    | with_reducible assumption | intro _ | with_reducible apply masterWrite_steady

theorem execGopen_steady (m : Master) (s : State) (hst : Steady tb qu s) :
    SteadyOut tb qu (execGopen m s) := by
  unfold execGopen
  repeat' first
    | with_reducible assumption | intro _ | with_reducible apply masterWrite_steady

theorem execGclose_steady (m : Master) (s : State) (hst : Steady tb qu s) :
    SteadyOut tb qu (execGclose m s) := by
  unfold execGclose
  repeat' first
    | with_reducible assumption | intro _ | with_reducible apply masterWrite_steady

theorem execRawRead_steady (m : Master) (s : State) (hst : Steady tb qu s) :
    SteadyOut tb qu (execRawRead m s) := by
  unfold execRawRead
  repeat' first
    | with_reducible assumption | intro _ | with_reducible apply masterWrite_steady

theorem execRawProgram_steady (m : Master) (s : State) (hst : Steady tb qu s) :
    SteadyOut tb qu (execRawProgram m s) := by
  unfold execRawProgram
  repeat' first
    | with_reducible assumption | intro _ | with_reducible apply masterWrite_steady

theorem execRawErase_steady (m : Master) (s : State) (hst : Steady tb qu s) :
    SteadyOut tb qu (execRawErase m s) := by
  unfold execRawErase
  repeat' first
    | with_reducible assumption | intro _ | with_reducible apply masterWrite_steady

theorem execEvrSwtrig_steady (m : Master) (detail : BitVec 16) (s : State) (hst : Steady tb qu s) :
    SteadyOut tb qu (execEvrSwtrig m detail s) := by
  unfold execEvrSwtrig
  repeat' first
    | with_reducible assumption | intro _ | with_reducible apply masterWrite_steady

theorem execEvrClearArm_steady (m : Master) (area : BitVec 2) (s : State) (hst : Steady tb qu s) :
    SteadyOut tb qu (execEvrClearArm m area s) := by
  unfold execEvrClearArm
  repeat' first
    | with_reducible assumption | intro _ | with_reducible apply masterWrite_steady

theorem execEvrClearConfirm_steady (m : Master) (area : BitVec 2) (s : State) (hst : Steady tb qu s) :
    SteadyOut tb qu (execEvrClearConfirm m area s) := by
  unfold execEvrClearConfirm
  repeat' first
    | with_reducible assumption | intro _ | with_reducible apply masterWrite_steady

theorem execEvrWendRead_steady (m : Master) (s : State) (hst : Steady tb qu s) :
    SteadyOut tb qu (execEvrWendRead m s) := by
  unfold execEvrWendRead
  repeat' first
    | with_reducible assumption | intro _ | with_reducible apply masterRead_steady

theorem execRtcShadowFreeze_steady (m : Master) (field : TimeField) (s : State) (hst : Steady tb qu s) :
    SteadyOut tb qu (execRtcShadowFreeze m field s) := by
  unfold execRtcShadowFreeze
  repeat' first
    | with_reducible assumption | intro _ | with_reducible apply masterRead_steady

theorem execRtcYearRead_steady (m : Master) (s : State) (hst : Steady tb qu s) :
    SteadyOut tb qu (execRtcYearRead m s) := by
  unfold execRtcYearRead
  repeat' first
    | with_reducible assumption | intro _ | with_reducible apply masterRead_steady

theorem execRtcFieldStage_steady (m : Master) (field : TimeField) (data : Word) (s : State) (hst : Steady tb qu s) :
    SteadyOut tb qu (execRtcFieldStage m field data s) := by
  unfold execRtcFieldStage
  repeat' first
    | with_reducible assumption | intro _ | with_reducible apply masterWrite_steady

theorem execRtcCommit_steady (m : Master) (data : Word) (s : State) (hst : Steady tb qu s) :
    SteadyOut tb qu (execRtcCommit m data s) := by
  unfold execRtcCommit
  repeat' first
    | with_reducible assumption | intro _ | with_reducible apply masterWrite_steady

theorem execOsfClear_steady (m : Master) (s : State) (hst : Steady tb qu s) :
    SteadyOut tb qu (execOsfClear m s) := by
  unfold execOsfClear
  repeat' first
    | with_reducible assumption | intro _ | with_reducible apply masterWrite_steady

theorem execLbvClear_steady (m : Master) (s : State) (hst : Steady tb qu s) :
    SteadyOut tb qu (execLbvClear m s) := by
  unfold execLbvClear
  repeat' first
    | with_reducible assumption | intro _ | with_reducible apply masterWrite_steady

theorem execWaveCommit_steady (m : Master) (s : State) (hst : Steady tb qu s) :
    SteadyOut tb qu (execWaveCommit m s) := by
  unfold execWaveCommit
  repeat' first
    | with_reducible assumption | intro _ | with_reducible apply masterWrite_steady

theorem execPanelModeWrite_steady (m : Master) (data : Word) (s : State) (hst : Steady tb qu s) :
    SteadyOut tb qu (execPanelModeWrite m data s) := by
  unfold execPanelModeWrite
  repeat' first
    | with_reducible assumption | intro _ | with_reducible apply masterWrite_steady

theorem execPortDisable_steady (m : Master) (port : EthPort) (s : State) (hst : Steady tb qu s) :
    SteadyOut tb qu (execPortDisable m port s) := by
  unfold execPortDisable
  repeat' first
    | with_reducible assumption | intro _ | with_reducible apply masterWrite_steady

theorem execMdioAccess_steady (m : Master) (data : Word) (s : State) (hst : Steady tb qu s) :
    SteadyOut tb qu (execMdioAccess m data s) := by
  unfold execMdioAccess
  repeat' first
    | with_reducible assumption | intro _ | with_reducible apply masterWrite_steady

theorem execAssociationConfig_steady (m : Master) (a : Assoc) (data : Word) (s : State) (hst : Steady tb qu s) :
    SteadyOut tb qu (execAssociationConfig m a data s) := by
  unfold execAssociationConfig
  repeat' first
    | with_reducible assumption | intro _ | with_reducible apply masterWrite_steady

theorem execReady_steady (m : Master) (s : State) (hst : Steady tb qu s) :
    SteadyOut tb qu (execReady m s) := by
  unfold execReady
  repeat' first
    | with_reducible assumption | intro _ | with_reducible apply masterWrite_steady

theorem execWatchdogKick_steady (m : Master) (key : Word) (s : State) (hst : Steady tb qu s) :
    SteadyOut tb qu (execWatchdogKick m key s) := by
  unfold execWatchdogKick
  repeat' first
    | with_reducible assumption | intro _ | with_reducible apply masterWrite_steady

theorem execWqpop_steady (m : Master) (s : State) (hst : Steady tb qu s) :
    SteadyOut tb qu (execWqpop m s) := by
  unfold execWqpop
  repeat' first
    | with_reducible assumption | intro _ | with_reducible apply masterWrite_steady

theorem execSave_steady (m : Master) (n : BitVec 6) (s : State) (hst : Steady tb qu s) :
    SteadyOut tb qu (execSave m n s) := by
  unfold execSave
  repeat' first
    | with_reducible assumption | intro _ | with_reducible apply masterWrite_steady

theorem execOpenTransfer_steady (m : Master) (kind : BitVec 2) (s : State) (hst : Steady tb qu s) :
    SteadyOut tb qu (execOpenTransfer m kind s) := by
  unfold execOpenTransfer
  repeat' first
    | with_reducible assumption | intro _ | with_reducible apply masterWrite_steady

theorem execUpdDataWrite_steady (m : Master) (data : Word) (s : State) (hst : Steady tb qu s) :
    SteadyOut tb qu (execUpdDataWrite m data s) := by
  unfold execUpdDataWrite
  repeat' first
    | with_reducible assumption | intro _ | with_reducible apply masterWrite_steady

theorem execCloseTransfer_steady (m : Master) (s : State) (hst : Steady tb qu s) :
    SteadyOut tb qu (execCloseTransfer m s) := by
  unfold execCloseTransfer
  repeat' first
    | with_reducible assumption | intro _ | with_reducible apply masterWrite_steady

theorem execUpdAbort_steady (m : Master) (s : State) (hst : Steady tb qu s) :
    SteadyOut tb qu (execUpdAbort m s) := by
  unfold execUpdAbort
  repeat' first
    | with_reducible assumption | intro _ | with_reducible apply masterWrite_steady

theorem execActivate_steady (m : Master) (kind : BitVec 2) (s : State) (hst : Steady tb qu s) :
    SteadyOut tb qu (execActivate m kind s) := by
  unfold execActivate
  repeat' first
    | with_reducible assumption | intro _ | with_reducible apply masterWrite_steady

theorem execRollback_steady (m : Master) (kind : BitVec 2) (s : State) (hst : Steady tb qu s) :
    SteadyOut tb qu (execRollback m kind s) := by
  unfold execRollback
  repeat' first
    | with_reducible assumption | intro _ | with_reducible apply masterWrite_steady

theorem execConfirm_steady (m : Master) (s : State) (hst : Steady tb qu s) :
    SteadyOut tb qu (execConfirm m s) := by
  unfold execConfirm
  repeat' first
    | with_reducible assumption | intro _ | with_reducible apply masterWrite_steady

theorem execKey_steady (m : Master) (s : State) (hst : Steady tb qu s) :
    SteadyOut tb qu (execKey m s) := by
  unfold execKey
  repeat' first
    | with_reducible assumption | intro _ | with_reducible apply masterWrite_steady

theorem execSafeRelease_steady (m : Master) (s : State) (hst : Steady tb qu s) :
    SteadyOut tb qu (execSafeRelease m s) := by
  unfold execSafeRelease
  repeat' first
    | with_reducible assumption | intro _ | with_reducible apply masterWrite_steady

theorem execRearmF_steady (m : Master) (s : State) (hst : Steady tb qu s) :
    SteadyOut tb qu (execRearmF m s) := by
  unfold execRearmF
  repeat' first
    | with_reducible assumption | intro _ | with_reducible apply masterWrite_steady

theorem execRearmG_steady (m : Master) (s : State) (hst : Steady tb qu s) :
    SteadyOut tb qu (execRearmG m s) := by
  unfold execRearmG
  repeat' first
    | with_reducible assumption | intro _ | with_reducible apply masterWrite_steady

theorem execUnhold_steady (m : Master) (s : State) (hst : Steady tb qu s) :
    SteadyOut tb qu (execUnhold m s) := by
  unfold execUnhold
  repeat' first
    | with_reducible assumption | intro _ | with_reducible apply masterWrite_steady

theorem execFltStatusClear_steady (m : Master) (data : Word) (s : State) (hst : Steady tb qu s) :
    SteadyOut tb qu (execFltStatusClear m data s) := by
  unfold execFltStatusClear
  repeat' first
    | with_reducible assumption | intro _ | with_reducible apply masterWrite_steady

theorem execSoftReset_steady (m : Master) (s : State) (hst : Steady tb qu s) :
    SteadyOut tb qu (execSoftReset m s) := by
  unfold execSoftReset
  repeat' first
    | with_reducible assumption | intro _ | with_reducible apply masterWrite_steady

/-- A changed core whose keep memory and SRAM stay. -/
theorem steady_coreAs {s : State} {k : Core} (hst : Steady tb qu s) (h : k.keep = s.core.keep ∧ k.sram = s.core.sram) :
    Steady tb qu { s with core := k } := steady_core hst ⟨by rw [h.1]; exact hst.core.1, by rw [h.2]; exact hst.core.2⟩

theorem putCsr_core (k : Core) (t : Stamp) (n : Nat) (v : Word) :
    (k.putCsr t n v).keep = k.keep ∧ (k.putCsr t n v).sram = k.sram := by
  unfold Core.putCsr
  split <;> first | exact setMstat_core _ _ | exact ⟨rfl, rfl⟩

theorem execCsrr_steady (w : Who) (d : Reg) (csr : BitVec 18) (s : State) (hst : Steady tb qu s) :
    SteadyOut tb qu (execCsrr w d csr s) := by
  unfold execCsrr
  repeat' first
    | with_reducible assumption | intro _ | with_reducible apply issueM_steady | with_reducible apply steady_ite
    | with_reducible apply steadyOut_next | with_reducible apply SteadyEff.done | with_reducible apply SteadyEff.jump
    | with_reducible apply SteadyEff.turn | with_reducible apply SteadyEff.warn | with_reducible exact SteadyEff.stop
    | with_reducible exact SteadyEff.fault | with_reducible exact SteadyEff.priv | with_reducible exact SteadyEff.sys
    | with_reducible apply steadyEff_ite

theorem execCsrw_steady (w : Who) (d : Reg) (csr : BitVec 18) (s : State) (hst : Steady tb qu s) :
    SteadyOut tb qu (execCsrw w d csr s) :=
  steadyOut_next (issueM_steady _ _ _ _ hst fun _ _ h => steadyEff_ite .fault (.done (steady_coreAs h (putCsr_core _ _ _ _))))

theorem execEret_steady (w : Who) (s : State) (hst : Steady tb qu s) : SteadyOut tb qu (execEret w s) :=
  steadyOut_next (issueM_steady _ _ _ _ hst fun _ _ h => steadyEff_ite .priv (.jump (steady_coreAs h (setMstat_core _ _))))

theorem execWfi_steady (w : Who) (s : State) (hst : Steady tb qu s) :
    SteadyOut tb qu (execWfi w s) := by
  unfold execWfi
  repeat' first
    | with_reducible assumption | intro _ | with_reducible apply issueM_steady | with_reducible apply modCore_steady
    | with_reducible apply steady_ite | with_reducible apply steadyOut_next | with_reducible apply SteadyEff.done
    | with_reducible apply SteadyEff.jump | with_reducible apply SteadyEff.turn | with_reducible apply SteadyEff.warn
    | with_reducible exact SteadyEff.stop | with_reducible exact SteadyEff.fault | with_reducible exact SteadyEff.priv
    | with_reducible exact SteadyEff.sys | with_reducible apply steadyEff_ite | split | dsimp only | assumption

theorem execSys_steady (w : Who) (imm : BitVec 18) (s : State) (hst : Steady tb qu s) :
    SteadyOut tb qu (execSys w imm s) := by
  unfold execSys
  repeat' first
    | with_reducible assumption | intro _ | with_reducible apply issueM_steady | with_reducible apply steady_ite
    | with_reducible apply steadyOut_next | with_reducible apply SteadyEff.done | with_reducible apply SteadyEff.jump
    | with_reducible apply SteadyEff.turn | with_reducible apply SteadyEff.warn | with_reducible exact SteadyEff.stop
    | with_reducible exact SteadyEff.fault | with_reducible exact SteadyEff.priv | with_reducible exact SteadyEff.sys

theorem taken_core (k : Core) (n : Nat) : (k.taken n).keep = k.keep ∧ (k.taken n).sram = k.sram := by
  unfold Core.taken; split <;> exact ⟨rfl, rfl⟩

theorem execInterruptEntry_steady (s : State) (hst : Steady tb qu s) : SteadyOut tb qu (execInterruptEntry s) := by
  refine steadyOut_next ?_
  split
  · exact hst
  · refine steady_ite (steady_coreAs hst ?_) hst
    exact ⟨(taken_core _ _).1.trans (enter_core _ _ _ _ _).1, (taken_core _ _).2.trans (enter_core _ _ _ _ _).2⟩

theorem execTimerCompare_steady (s : State) (hst : Steady tb qu s) :
    SteadyOut tb qu (execTimerCompare s) := by
  unfold execTimerCompare
  repeat' first
    | with_reducible assumption | intro _ | with_reducible apply modCore_steady | with_reducible apply steady_ite
    | with_reducible apply steadyOut_next | split | dsimp only | assumption

theorem coreMemory_steady (s : State) (a : Int) (go : Eff) (hgo : SteadyEff tb qu go) :
    SteadyEff tb qu (s.coreMemory a go) := steadyEff_ite .fault hgo

theorem storeBytes_steady {s : State} (a : Int) (bs : List Byte) (hst : Steady tb qu s) :
    Steady tb qu (s.modCore fun k => k.storeBytes a bs) := modCore_steady hst fun h => ⟨h.1, swf_sputs _ h.2⟩

theorem execLdm_steady (w : Who) (d a : Reg) (imm : BitVec 18) (s : State) (hst : Steady tb qu s) :
    SteadyOut tb qu (execLdm w d a imm s) := by
  unfold execLdm
  repeat' first
    | with_reducible assumption | intro _ | with_reducible apply issueM_steady
    | with_reducible apply coreMemory_steady | with_reducible apply busError_steady
    | with_reducible apply busRead_steady | with_reducible apply steady_ite | with_reducible apply steadyOut_next
    | with_reducible apply SteadyEff.done | with_reducible apply SteadyEff.jump | with_reducible apply SteadyEff.turn
    | with_reducible apply SteadyEff.warn | with_reducible exact SteadyEff.stop | with_reducible exact SteadyEff.fault
    | with_reducible exact SteadyEff.priv | with_reducible exact SteadyEff.sys | with_reducible apply steadyEff_ite

theorem execStm_steady (w : Who) (d a : Reg) (imm : BitVec 18) (s : State) (hst : Steady tb qu s) :
    SteadyOut tb qu (execStm w d a imm s) := by
  unfold execStm
  repeat' first
    | with_reducible assumption | intro _ | with_reducible apply storeBytes_steady
    | with_reducible apply issueM_steady | with_reducible apply coreMemory_steady
    | with_reducible apply modCore_steady | with_reducible apply writeSeen_steady
    | with_reducible apply writeRefused_steady | with_reducible apply busWrite_steady
    | with_reducible apply steady_ite | with_reducible apply steadyOut_next | with_reducible apply SteadyEff.done
    | with_reducible apply SteadyEff.jump | with_reducible apply SteadyEff.turn | with_reducible apply SteadyEff.warn
    | with_reducible exact SteadyEff.stop | with_reducible exact SteadyEff.fault | with_reducible exact SteadyEff.priv
    | with_reducible exact SteadyEff.sys | with_reducible apply steadyEff_ite

theorem execLdb_steady (w : Who) (d a : Reg) (imm : BitVec 18) (s : State) (hst : Steady tb qu s) :
    SteadyOut tb qu (execLdb w d a imm s) := by
  unfold execLdb
  repeat' first
    | with_reducible assumption | intro _ | with_reducible apply issueM_steady
    | with_reducible apply coreMemory_steady | with_reducible apply busError_steady | with_reducible apply steady_ite
    | with_reducible apply steadyOut_next | with_reducible apply SteadyEff.done | with_reducible apply SteadyEff.jump
    | with_reducible apply SteadyEff.turn | with_reducible apply SteadyEff.warn | with_reducible exact SteadyEff.stop
    | with_reducible exact SteadyEff.fault | with_reducible exact SteadyEff.priv | with_reducible exact SteadyEff.sys
    | with_reducible apply steadyEff_ite

theorem execStb_steady (w : Who) (d a : Reg) (imm : BitVec 18) (s : State) (hst : Steady tb qu s) :
    SteadyOut tb qu (execStb w d a imm s) := by
  unfold execStb
  repeat' first
    | with_reducible assumption | intro _ | with_reducible apply storeBytes_steady
    | with_reducible apply issueM_steady | with_reducible apply coreMemory_steady
    | with_reducible apply modCore_steady | with_reducible apply busError_steady | with_reducible apply steady_ite
    | with_reducible apply steadyOut_next | with_reducible apply SteadyEff.done | with_reducible apply SteadyEff.jump
    | with_reducible apply SteadyEff.turn | with_reducible apply SteadyEff.warn | with_reducible exact SteadyEff.stop
    | with_reducible exact SteadyEff.fault | with_reducible exact SteadyEff.priv | with_reducible exact SteadyEff.sys
    | with_reducible apply steadyEff_ite

theorem execBcc_steady (w : Who) (cond : BitVec 4) (target : BitVec 16) (s : State) (hst : Steady tb qu s) :
    SteadyOut tb qu (execBcc w cond target s) := by
  unfold execBcc
  repeat' first
    | with_reducible assumption | intro _ | with_reducible apply issue_steady | with_reducible apply steady_ite
    | with_reducible apply steadyOut_next | with_reducible apply SteadyEff.done | with_reducible apply SteadyEff.jump
    | with_reducible apply SteadyEff.turn | with_reducible apply SteadyEff.warn | with_reducible exact SteadyEff.stop
    | with_reducible exact SteadyEff.fault | with_reducible exact SteadyEff.priv | with_reducible exact SteadyEff.sys
    | with_reducible apply steadyEff_ite

theorem execJal_steady (w : Who) (d : Reg) (target : BitVec 16) (s : State) (hst : Steady tb qu s) :
    SteadyOut tb qu (execJal w d target s) := by
  unfold execJal
  repeat' first
    | with_reducible assumption | intro _ | with_reducible apply issue_steady | with_reducible apply steady_ite
    | with_reducible apply steadyOut_next | with_reducible apply SteadyEff.done | with_reducible apply SteadyEff.jump

theorem execJr_steady (w : Who) (a : Reg) (s : State) (hst : Steady tb qu s) :
    SteadyOut tb qu (execJr w a s) := by
  unfold execJr
  repeat' first
    | with_reducible assumption | intro _ | with_reducible apply issue_steady | with_reducible apply steady_ite
    | with_reducible apply steadyOut_next | with_reducible apply SteadyEff.done | with_reducible apply SteadyEff.jump

theorem execLoop_steady (w : Who) (a : Reg) (lv : BitVec 2) (body max : BitVec 10) (s : State) (hst : Steady tb qu s) :
    SteadyOut tb qu (execLoop w a lv body max s) := by
  unfold execLoop
  repeat' first
    | with_reducible assumption | intro _ | with_reducible apply issue_steady | with_reducible apply steady_ite
    | with_reducible apply steadyOut_next | with_reducible apply SteadyEff.done | with_reducible apply SteadyEff.jump
    | with_reducible apply SteadyEff.turn | with_reducible apply SteadyEff.warn | with_reducible exact SteadyEff.stop
    | with_reducible exact SteadyEff.fault | with_reducible exact SteadyEff.priv | with_reducible exact SteadyEff.sys
    | with_reducible apply steadyEff_ite

theorem execLexit_steady (w : Who) (lv : BitVec 2) (target : BitVec 16) (s : State) (hst : Steady tb qu s) :
    SteadyOut tb qu (execLexit w lv target s) := by
  unfold execLexit
  repeat' first
    | with_reducible assumption | intro _ | with_reducible apply issue_steady | with_reducible apply steady_ite
    | with_reducible apply steadyOut_next | with_reducible apply SteadyEff.done | with_reducible apply SteadyEff.jump

theorem execNop_steady (w : Who) (s : State) (hst : Steady tb qu s) :
    SteadyOut tb qu (execNop w s) := by
  unfold execNop
  repeat' first
    | with_reducible assumption | intro _ | with_reducible apply issueCpu_steady

theorem execFend_steady (w : Who) (s : State) (hst : Steady tb qu s) :
    SteadyOut tb qu (execFend w s) := by
  unfold execFend
  repeat' first
    | with_reducible assumption | intro _ | with_reducible apply issueLanes_steady | with_reducible apply steady_ite
    | with_reducible apply steadyOut_next | with_reducible apply SteadyEff.done | with_reducible apply SteadyEff.jump
    | with_reducible apply SteadyEff.turn | with_reducible apply SteadyEff.warn | with_reducible exact SteadyEff.stop

theorem execHalt_steady (w : Who) (s : State) (hst : Steady tb qu s) :
    SteadyOut tb qu (execHalt w s) := by
  unfold execHalt
  repeat' first
    | with_reducible assumption | intro _ | with_reducible apply issueLanes_steady | with_reducible apply steady_ite
    | with_reducible apply steadyOut_next | with_reducible apply SteadyEff.done | with_reducible apply SteadyEff.jump
    | with_reducible apply SteadyEff.turn | with_reducible apply SteadyEff.warn | with_reducible exact SteadyEff.stop

theorem execLidx_steady (w : Who) (d : Reg) (lv : BitVec 4) (s : State) (hst : Steady tb qu s) :
    SteadyOut tb qu (execLidx w d lv s) := by
  unfold execLidx
  repeat' first
    | with_reducible assumption | intro _ | with_reducible apply issueCpu_steady

theorem retireVoter_steady (s : State) (v : Nat) (hst : Steady tb qu s) :
    Steady tb qu (State.retireVoter s v) := by
  unfold State.retireVoter
  repeat' first
    | with_reducible assumption | intro _ | with_reducible apply setBit_steady
    | with_reducible apply event_steady | with_reducible apply report_steady

theorem voterDisagrees_steady (s : State) (v : Nat) (hst : Steady tb qu s) :
    Steady tb qu (State.voterDisagrees s v) := by
  unfold State.voterDisagrees
  repeat' first
    | with_reducible assumption | intro _ | with_reducible apply modTly_steady
    | with_reducible apply satInc_steady | with_reducible apply event_steady
    | with_reducible apply report_steady | with_reducible apply showWindows_steady
    | with_reducible apply retireVoter_steady | with_reducible apply steady_ite

theorem judge_steady (s : State) (good : List Nat) (hst : Steady tb qu s) :
    Steady tb qu (State.judge s good) := by
  unfold State.judge
  repeat' first
    | with_reducible assumption | intro _ | with_reducible apply voterDisagrees_steady
    | with_reducible apply report_steady | with_reducible apply safeOn_steady | with_reducible apply steady_ite
    | with_reducible apply steadyOut_next | split

theorem withhold_steady (s : State) (n : Nat) (hst : Steady tb qu s) :
    Steady tb qu (State.withhold s n) := by
  unfold State.withhold
  repeat' first
    | with_reducible assumption | intro _ | with_reducible apply satAdd_steady

theorem writeLatches_steady (s : State) (n : Nat) (on : Bool) (good : List Nat) (hst : Steady tb qu s) :
    Steady tb qu (State.writeLatches s n on good) := by
  unfold State.writeLatches
  repeat' first
    | with_reducible assumption | intro _ | with_reducible apply setBit_steady
    | with_reducible apply modField_steady | with_reducible apply steady_ite | with_reducible apply steady_foldl

theorem ignoreCommand_steady (s : State) (n : Nat) (hst : Steady tb qu s) :
    Steady tb qu (State.ignoreCommand s n) := by
  unfold State.ignoreCommand
  repeat' first
    | with_reducible assumption | intro _ | with_reducible apply satInc_steady
    | with_reducible apply setFld_steady | with_reducible apply event_steady
    | with_reducible apply report_steady | with_reducible apply sendOut_steady

theorem outputCommand_steady (s : State) (n : Nat) (on : Bool) (good : List Nat) (hst : Steady tb qu s) :
    Steady tb qu (State.outputCommand s n on good) := by
  unfold State.outputCommand
  repeat' first
    | with_reducible assumption | intro _ | with_reducible apply writeLatches_steady
    | with_reducible apply ignoreCommand_steady | with_reducible apply steady_ite

theorem setCross_steady (s : State) (t : Nat) (g : List CrossGroup) (hst : Steady tb qu s) :
    Steady tb qu (State.setCross s t g) := by
  unfold State.setCross
  repeat' first
    | with_reducible assumption | intro _ | with_reducible apply modTly_steady

theorem tellDiscard_steady (s : State) (t : Nat) (hst : Steady tb qu s) :
    Steady tb qu (State.tellDiscard s t) := by
  unfold State.tellDiscard
  repeat' first
    | with_reducible assumption | intro _ | with_reducible apply send_steady

theorem journalTxn_steady (s : State) (x : Txn) (ok : Bool) (hst : Steady tb qu s) :
    Steady tb qu (State.journalTxn s x ok) := by
  unfold State.journalTxn
  repeat' first
    | with_reducible assumption | intro _ | with_reducible apply withhold_steady
    | with_reducible apply setCross_steady | with_reducible apply offer_steady
    | with_reducible apply tellDiscard_steady | with_reducible apply send_steady | with_reducible apply steady_ite
    | (simp only [steady_mk, steady_mkCore]) | with_reducible apply steadyOut_next | split

theorem readReply_steady (s : State) (req : Nat) (v : Word) (ok : Bool) (hst : Steady tb qu s) :
    Steady tb qu (State.readReply s req v ok) := by
  unfold State.readReply
  repeat' first
    | with_reducible assumption | intro _ | with_reducible apply send_steady

theorem votedRead_steady (s : State) (addr : Word) (req : Nat) (hst : Steady tb qu s) :
    Steady tb qu (State.votedRead s addr req) := by
  unfold State.votedRead
  repeat' first
    | with_reducible assumption | intro _ | with_reducible apply busRead_steady
    | with_reducible apply readReply_steady

theorem deliverTxn_steady (s : State) (x : Txn) (good : List Nat) (hst : Steady tb qu s) :
    Steady tb qu (State.deliverTxn s x good) := by
  unfold State.deliverTxn
  repeat' first
    | with_reducible assumption | intro _ | with_reducible apply journalTxn_steady
    | with_reducible apply outputCommand_steady | with_reducible apply withhold_steady
    | with_reducible apply panelTarget_steady | with_reducible apply votedRead_steady
    | with_reducible apply busWrite_steady | with_reducible apply netTake_steady | with_reducible apply steady_ite
    | (with_reducible refine SteadyOpt.steady (netTake_steady _ _ ?_) _ ‹State.netTake _ _ = some _›)
    | with_reducible apply steadyOut_next | with_reducible apply SteadyOpt.getD | with_reducible apply SteadyOpt.ite
    | with_reducible apply SteadyOpt.some | with_reducible exact SteadyOpt.none | split

theorem timeHandOn_steady (s : State) (beyond : Bool) (hst : Steady tb qu s) :
    Steady tb qu (State.timeHandOn s beyond) := by
  unfold State.timeHandOn
  repeat' first
    | with_reducible assumption | intro _ | with_reducible apply lastPeak_steady
    | with_reducible apply modTly_steady | with_reducible apply event_steady
    | with_reducible apply report_steady | with_reducible apply steady_ite

theorem execTransactionHandOn_steady (agree0 agree1 agree2 : Bool) (s : State) (hst : Steady tb qu s) :
    SteadyOut tb qu (execTransactionHandOn agree0 agree1 agree2 s) := by
  unfold execTransactionHandOn
  repeat' first
    | with_reducible assumption | intro _ | with_reducible apply modTly_steady | with_reducible apply judge_steady
    | with_reducible apply deliverTxn_steady | with_reducible apply timeHandOn_steady
    | with_reducible apply steady_ite | with_reducible apply steadyOut_next | split

theorem pollFlag_steady (s : State) (n : Nat) (flag : Fld) (hst : Steady tb qu s) :
    Steady tb qu (State.pollFlag s n flag) := by
  unfold State.pollFlag
  repeat' first
    | with_reducible assumption | intro _ | with_reducible apply event_steady
    | with_reducible apply report_steady

theorem pollVar_steady (s : State) (n : Nat) (dev : Byte) (v : HartVar) (hst : Steady tb qu s) :
    Steady tb qu (State.pollVar s n dev v) := by
  unfold State.pollVar
  repeat' first
    | with_reducible assumption | intro _ | with_reducible apply send_steady | with_reducible apply sendHart_steady
    | with_reducible apply pollFlag_steady | with_reducible apply steady_ite | (simp only [steady_mk, steady_mkCore])
    | with_reducible apply steadyOut_next | split

theorem pollReply_steady (s : State) (r : HartReply) (hst : Steady tb qu s) :
    Steady tb qu (State.pollReply s r) := by
  unfold State.pollReply
  repeat' first
    | with_reducible assumption | intro _ | with_reducible apply pollFlag_steady
    | with_reducible apply pollVar_steady | with_reducible apply steady_ite | with_reducible apply steady_foldl

theorem execRxDone_steady (h : Modem) (data : List Byte) (errIdx : Option Nat) (poll : Option HartReply) (s : State) (hst : Steady tb qu s) :
    SteadyOut tb qu (execRxDone h data errIdx poll s) := by
  unfold execRxDone
  repeat' first
    | with_reducible assumption | intro _ | with_reducible apply putBytes_steady
    | with_reducible apply setModem_steady | with_reducible apply setFld_steady | with_reducible apply event_steady
    | with_reducible apply satInc_steady | with_reducible apply pollReply_steady | with_reducible apply steady_ite
    | with_reducible apply steadyOut_next | split

theorem modHsp_steady (s : State) (g : HspSt → HspSt) (hst : Steady tb qu s) :
    Steady tb qu (State.modHsp s g) := by
  unfold State.modHsp
  repeat' first
    | with_reducible assumption | intro _ | with_reducible apply steady_ite | (simp only [steady_mk, steady_mkCore])

theorem hspReply_steady (s : State) (r : HspResp) (hst : Steady tb qu s) :
    Steady tb qu (State.hspReply s r) := by
  unfold State.hspReply
  repeat' first
    | with_reducible assumption | intro _ | with_reducible apply modHsp_steady

theorem hspRequest_steady (s : State) (cmd : Nat) (addr data : Word) (hst : Steady tb qu s) :
    Steady tb qu (State.hspRequest s cmd addr data) := by
  unfold State.hspRequest
  repeat' first
    | with_reducible assumption | intro _ | with_reducible apply event_steady
    | with_reducible apply hspReply_steady | with_reducible apply modHsp_steady
    | with_reducible apply steady_ite

theorem frameError_steady {s t : State} {edges cmd n : Nat} {addr data : Word} {crc : Byte}
    (h : s.frameError edges cmd addr data crc = some (t, n)) (hst : Steady tb qu s) : Steady tb qu t := by
  unfold State.frameError at h
  split at h
  · cases h; exact event_steady _ _ _ (satInc_steady _ _ _ hst)
  · split at h
    · cases h; exact event_steady _ _ _ (satInc_steady _ _ _ hst)
    · cases h

theorem hspFrame_steady (s : State) (edges cmd : Nat) (addr data : Word) (crc : Byte) (hst : Steady tb qu s) :
    Steady tb qu (s.hspFrame edges cmd addr data crc) := by
  unfold State.hspFrame
  refine steady_ite hst ?_
  dsimp only
  have h1 : Steady tb qu (if (!s.hsp.first && s.hsp.access.isSome) = true then
      (s.modHsp fun h => { h with miso := s.hspAnswer, first := false }).event A.hspStatus F.hspStatus_pending
      else s.modHsp fun h => { h with miso := s.hspAnswer, first := false }) :=
    steady_ite (event_steady _ _ _ (modHsp_steady _ _ hst)) (modHsp_steady _ _ hst)
  split
  · have h2 := frameError_steady ‹_› h1
    exact steady_ite h2 (hspReply_steady _ _ h2)
  · exact steady_ite h1 (hspRequest_steady _ _ _ _ h1)

theorem execHspNop_steady (edges : Nat) (addr data : Word) (crc : Byte) (s : State) (hst : Steady tb qu s) :
    SteadyOut tb qu (execHspNop edges addr data crc s) := by
  unfold execHspNop
  repeat' first
    | with_reducible assumption | intro _ | with_reducible apply hspFrame_steady | with_reducible apply steady_ite
    | with_reducible apply steadyOut_next

theorem execHspRead_steady (edges : Nat) (addr data : Word) (crc : Byte) (s : State) (hst : Steady tb qu s) :
    SteadyOut tb qu (execHspRead edges addr data crc s) := by
  unfold execHspRead
  repeat' first
    | with_reducible assumption | intro _ | with_reducible apply hspFrame_steady | with_reducible apply steady_ite
    | with_reducible apply steadyOut_next

theorem execHspWrite_steady (edges : Nat) (addr data : Word) (crc : Byte) (s : State) (hst : Steady tb qu s) :
    SteadyOut tb qu (execHspWrite edges addr data crc s) := by
  unfold execHspWrite
  repeat' first
    | with_reducible assumption | intro _ | with_reducible apply hspFrame_steady | with_reducible apply steady_ite
    | with_reducible apply steadyOut_next

theorem execHspBadFrame_steady (edges : Nat) (cmd : Byte) (addr data : Word) (crc : Byte) (s : State) (hst : Steady tb qu s) :
    SteadyOut tb qu (execHspBadFrame edges cmd addr data crc s) := by
  unfold execHspBadFrame
  repeat' first
    | with_reducible assumption | intro _ | with_reducible apply hspFrame_steady | with_reducible apply steady_ite
    | with_reducible apply steadyOut_next

theorem respond_steady (s : State) (m : Nat) (write : Bool) (addr data : Word) (hst : Steady tb qu s) :
    Steady tb qu (State.respond s m write addr data).1 := by
  unfold State.respond
  repeat' first
    | with_reducible assumption | intro _ | with_reducible apply busWrite_steady
    | with_reducible apply busRead_steady | with_reducible apply steady_ite | with_reducible apply steady_ite_1

theorem execHspAccessDone_steady (s : State) (hst : Steady tb qu s) :
    SteadyOut tb qu (execHspAccessDone s) := by
  unfold execHspAccessDone
  repeat' first
    | with_reducible assumption | intro _ | with_reducible apply respond_steady | with_reducible apply modHsp_steady
    | with_reducible apply hspReply_steady | with_reducible apply event_steady | with_reducible apply steady_ite
    | with_reducible apply steadyOut_next | split

theorem execRemoteAccessDone_steady (s : State) (hst : Steady tb qu s) :
    SteadyOut tb qu (execRemoteAccessDone s) := by
  unfold execRemoteAccessDone
  repeat' first
    | with_reducible assumption | intro _ | with_reducible apply modNet_steady | with_reducible apply respond_steady
    | with_reducible apply satInc_steady | with_reducible apply keepResp_steady | with_reducible apply steady_ite
    | with_reducible apply steadyOut_next | split

theorem countSecond_steady (s : State) (hst : Steady tb qu s) :
    Steady tb qu (State.countSecond s) := by
  unfold State.countSecond
  repeat' first
    | with_reducible assumption | intro _ | with_reducible apply setPair_steady
    | with_reducible apply modMgs_steady | with_reducible apply steady_ite

theorem tick_steady (s : State) (hst : Steady tb qu s) : ∃ b, Steady b qu s.tick := by
  unfold State.tick
  split
  · exact ⟨_, countSecond_steady _ (Steady.of hst.regs hst.flash hst.core hst.lanes hst.pending (.inl rfl))⟩
  · exact ⟨tb, hst⟩

end Sys2Proof.Laws
end

