-- ==== Sys2Proof/Laws/Steps.lean ====
section
/-! SUPPORT. What one command and one step keep: the state stays canonical and the queue stays as the step leaves it, and no
command but RECOVERY_DONE, which starts it, moves the timebase, except that a node reset sets it to 0. -/

set_option Elab.async false

namespace Sys2Proof.Laws

open Sys2Proof.Machine

variable {tb : Stamp} {qu : List Instr}

/-- Every command but RECOVERY_DONE is steady. -/
theorem exec_steady (c : Instr) (s : State) (hst : Steady tb qu s) (hc : ∀ ms boot, c ≠ .recoveryDone ms boot) :
    SteadyOut tb qu (exec c s) := by
  cases c with
  | registerWrite x0 x1 x2 => exact execRegisterWrite_steady _ _ _ _ hst
  | sqClearWrite x0 x1 x2 => exact execSqClearWrite_steady _ _ _ _ hst
  | lkFieldWrite x0 x1 x2 => exact execLkFieldWrite_steady _ _ _ _ hst
  | stageLowWord x0 x1 x2 => exact execStageLowWord_steady _ _ _ _ hst
  | commitHighWord x0 x1 x2 => exact execCommitHighWord_steady _ _ _ _ hst
  | hspNop x0 x1 x2 x3 => exact execHspNop_steady _ _ _ _ _ hst
  | hspRead x0 x1 x2 x3 => exact execHspRead_steady _ _ _ _ _ hst
  | hspWrite x0 x1 x2 x3 => exact execHspWrite_steady _ _ _ _ _ hst
  | hspAccessDone => exact execHspAccessDone_steady _ hst
  | groupMeasurement x0 x1 x2 x3 => exact execGroupMeasurement_steady _ _ _ _ _ hst
  | grpOver x0 => exact execGrpOver_steady _ _ hst
  | miswireDetect x0 => exact execMiswireDetect_steady _ _ hst
  | miswireClear x0 => exact execMiswireClear_steady _ _ hst
  | overtempShutdown x0 => exact execOvertempShutdown_steady _ _ hst
  | thermalRestart x0 => exact execThermalRestart_steady _ _ hst
  | diThresholdCrossing x0 x1 => exact execDiThresholdCrossing_steady _ _ _ hst
  | filteredLevelChange x0 x1 => exact execFilteredLevelChange_steady _ _ _ hst
  | debounceExpiry x0 => exact execDebounceExpiry_steady _ _ hst
  | diInitialLevel x0 => exact execDiInitialLevel_steady _ _ hst
  | trmModeWrite x0 x1 x2 => exact execTrmModeWrite_steady _ _ _ _ hst
  | modeTransitionEnd x0 => exact execModeTransitionEnd_steady _ _ hst
  | parWrite x0 x1 x2 => exact execParWrite_steady _ _ _ _ hst
  | gateOrder x0 => exact execGateOrder_steady _ _ hst
  | demagEnd x0 => exact execDemagEnd_steady _ _ hst
  | currentLimitEngage x0 => exact execCurrentLimitEngage_steady _ _ hst
  | overload x0 => exact execOverload_steady _ _ hst
  | overloadRetry x0 => exact execOverloadRetry_steady _ _ hst
  | openLoad x0 => exact execOpenLoad_steady _ _ hst
  | share x0 => exact execShare_steady _ _ hst
  | loopShort x0 => exact execLoopShort_steady _ _ hst
  | loopRetry x0 => exact execLoopRetry_steady _ _ hst
  | dischargeEnd x0 x1 => exact execDischargeEnd_steady _ _ _ hst
  | openTestEnd x0 x1 x2 => exact execOpenTestEnd_steady _ _ _ _ hst
  | steepIntervalEnd x0 x1 => exact execSteepIntervalEnd_steady _ _ _ hst
  | retLimit x0 => exact execRetLimit_steady _ _ hst
  | complianceLost x0 => exact execComplianceLost_steady _ _ hst
  | complianceRegained x0 => exact execComplianceRegained_steady _ _ hst
  | excSrcWrite x0 x1 x2 => exact execExcSrcWrite_steady _ _ _ _ hst
  | muxToptWrite x0 x1 x2 x3 => exact execMuxToptWrite_steady _ _ _ _ _ hst
  | calNow x0 x1 => exact execCalNow_steady _ _ _ hst
  | calibrationSlot => exact execCalibrationSlot_steady _ hst
  | calibrationDone x0 x1 => exact execCalibrationDone_steady _ _ _ hst
  | cjsRead x0 => exact execCjsRead_steady _ _ hst
  | windowOpen x0 x1 => exact execWindowOpen_steady _ _ _ hst
  | windowClose x0 x1 x2 x3 => exact execWindowClose_steady _ _ _ _ _ hst
  | windowBoundSample x0 x1 x2 x3 x4 x5 x6 => exact execWindowBoundSample_steady _ _ _ _ _ _ _ _ hst
  | cmCheckDone x0 x1 => exact execCmCheckDone_steady _ _ _ hst
  | resultSeam x0 x1 x2 => exact execResultSeam_steady _ _ _ _ hst
  | blankStart x0 => exact execBlankStart_steady _ _ hst
  | blankEnd x0 => exact execBlankEnd_steady _ _ hst
  | blankedWindowEnd x0 x1 => exact execBlankedWindowEnd_steady _ _ _ hst
  | converterFail x0 x1 => exact execConverterFail_steady _ _ _ hst
  | stageFail x0 x1 => exact execStageFail_steady _ _ _ hst
  | stageSelftest x0 x1 => exact execStageSelftest_steady _ _ _ hst
  | selftest x0 x1 => exact execSelftest_steady _ _ _ hst
  | selftestDone x0 x1 => exact execSelftestDone_steady _ _ _ hst
  | asyDisable x0 x1 => exact execAsyDisable_steady _ _ _ hst
  | asyEnable x0 x1 => exact execAsyEnable_steady _ _ _ hst
  | svcMutualCheck x0 x1 => exact execSvcMutualCheck_steady _ _ _ hst
  | svcSweep x0 x1 x2 => exact execSvcSweep_steady _ _ _ _ hst
  | warmUpEnd x0 => exact execWarmUpEnd_steady _ _ hst
  | modemConnect x0 x1 x2 => exact execModemConnect_steady _ _ _ _ hst
  | send x0 x1 => exact execSend_steady _ _ _ hst
  | abort x0 x1 => exact execAbort_steady _ _ _ hst
  | rxClr x0 x1 => exact execRxClr_steady _ _ _ hst
  | txDone x0 => exact execTxDone_steady _ _ hst
  | noReply x0 => exact execNoReply_steady _ _ hst
  | carrierDetect x0 => exact execCarrierDetect_steady _ _ hst
  | rxDone x0 x1 x2 x3 => exact execRxDone_steady _ _ _ _ _ hst
  | unsolicitedFrame x0 => exact execUnsolicitedFrame_steady _ _ hst
  | ownerChange => exact execOwnerChange_steady _ hst
  | hartPoll x0 x1 x2 => exact execHartPoll_steady _ _ _ _ hst
  | frameSeam => exact execFrameSeam_steady _ hst
  | inputCut x0 x1 x2 => exact execInputCut_steady _ _ _ _ hst
  | frameRelease x0 => exact execFrameRelease_steady _ _ hst
  | inputArrival => exact execInputArrival_steady _ hst
  | heartbeat x0 x1 => exact execHeartbeat_steady _ _ _ hst
  | transactionHandOn x0 x1 x2 => exact execTransactionHandOn_steady _ _ _ _ hst
  | repairCopyEnd x0 => exact execRepairCopyEnd_steady _ _ hst
  | retireLane x0 x1 => exact execRetireLane_steady _ _ _ hst
  | returnLane x0 x1 => exact execReturnLane_steady _ _ _ hst
  | threadHaltCommand x0 x1 x2 => exact execThreadHaltCommand_steady _ _ _ _ hst
  | threadRunCommand x0 x1 => exact execThreadRunCommand_steady _ _ _ hst
  | keepScrub x0 x1 => exact execKeepScrub_steady _ _ _ hst
  | add x0 x1 x2 x3 => exact execAdd_steady _ _ _ _ _ hst
  | sub x0 x1 x2 x3 => exact execSub_steady _ _ _ _ _ hst
  | addu x0 x1 x2 x3 => exact execAddu_steady _ _ _ _ _ hst
  | subu x0 x1 x2 x3 => exact execSubu_steady _ _ _ _ _ hst
  | addw x0 x1 x2 x3 => exact execAddw_steady _ _ _ _ _ hst
  | subw x0 x1 x2 x3 => exact execSubw_steady _ _ _ _ _ hst
  | and x0 x1 x2 x3 => exact execAnd_steady _ _ _ _ _ hst
  | or x0 x1 x2 x3 => exact execOr_steady _ _ _ _ _ hst
  | xor x0 x1 x2 x3 => exact execXor_steady _ _ _ _ _ hst
  | shl x0 x1 x2 x3 => exact execShl_steady _ _ _ _ _ hst
  | shr x0 x1 x2 x3 => exact execShr_steady _ _ _ _ _ hst
  | sar x0 x1 x2 x3 => exact execSar_steady _ _ _ _ _ hst
  | min x0 x1 x2 x3 => exact execMin_steady _ _ _ _ _ hst
  | max x0 x1 x2 x3 => exact execMax_steady _ _ _ _ _ hst
  | minu x0 x1 x2 x3 => exact execMinu_steady _ _ _ _ _ hst
  | maxu x0 x1 x2 x3 => exact execMaxu_steady _ _ _ _ _ hst
  | mul x0 x1 x2 x3 => exact execMul_steady _ _ _ _ _ hst
  | mulh x0 x1 x2 x3 => exact execMulh_steady _ _ _ _ _ hst
  | mulq x0 x1 x2 x3 => exact execMulq_steady _ _ _ _ _ hst
  | div x0 x1 x2 x3 => exact execDiv_steady _ _ _ _ _ hst
  | divu x0 x1 x2 x3 => exact execDivu_steady _ _ _ _ _ hst
  | rem x0 x1 x2 x3 => exact execRem_steady _ _ _ _ _ hst
  | divq x0 x1 x2 x3 => exact execDivq_steady _ _ _ _ _ hst
  | abs x0 x1 x2 => exact execAbs_steady _ _ _ _ hst
  | neg x0 x1 x2 => exact execNeg_steady _ _ _ _ hst
  | qfi x0 x1 x2 => exact execQfi_steady _ _ _ _ hst
  | qti x0 x1 x2 => exact execQti_steady _ _ _ _ hst
  | lag x0 x1 x2 x3 => exact execLag_steady _ _ _ _ _ hst
  | addi x0 x1 x2 x3 => exact execAddi_steady _ _ _ _ _ hst
  | addwi x0 x1 x2 x3 => exact execAddwi_steady _ _ _ _ _ hst
  | andi x0 x1 x2 x3 => exact execAndi_steady _ _ _ _ _ hst
  | ori x0 x1 x2 x3 => exact execOri_steady _ _ _ _ _ hst
  | xori x0 x1 x2 x3 => exact execXori_steady _ _ _ _ _ hst
  | shli x0 x1 x2 x3 => exact execShli_steady _ _ _ _ _ hst
  | shri x0 x1 x2 x3 => exact execShri_steady _ _ _ _ _ hst
  | sari x0 x1 x2 x3 => exact execSari_steady _ _ _ _ _ hst
  | lui x0 x1 x2 => exact execLui_steady _ _ _ _ hst
  | cmp x0 x1 x2 => exact execCmp_steady _ _ _ _ hst
  | cmpi x0 x1 x2 => exact execCmpi_steady _ _ _ _ hst
  | tat x0 x1 x2 => exact execTat_steady _ _ _ _ hst
  | gtag x0 x1 x2 => exact execGtag_steady _ _ _ _ hst
  | stag x0 x1 x2 x3 => exact execStag_steady _ _ _ _ _ hst
  | wtag x0 x1 x2 x3 => exact execWtag_steady _ _ _ _ _ hst
  | wtagi x0 x1 x2 x3 => exact execWtagi_steady _ _ _ _ _ hst
  | ctag x0 x1 x2 => exact execCtag_steady _ _ _ _ hst
  | sel x0 x1 x2 x3 x4 => exact execSel_steady _ _ _ _ _ _ hst
  | bcc x0 x1 x2 => exact execBcc_steady _ _ _ _ hst
  | jal x0 x1 x2 => exact execJal_steady _ _ _ _ hst
  | jr x0 x1 => exact execJr_steady _ _ _ hst
  | loop x0 x1 x2 x3 x4 => exact execLoop_steady _ _ _ _ _ _ hst
  | lexit x0 x1 x2 => exact execLexit_steady _ _ _ _ hst
  | nop x0 => exact execNop_steady _ _ hst
  | fend x0 => exact execFend_steady _ _ hst
  | halt x0 => exact execHalt_steady _ _ hst
  | lidx x0 x1 x2 => exact execLidx_steady _ _ _ _ hst
  | ldk x0 x1 x2 x3 => exact execLdk_steady _ _ _ _ _ hst
  | stk x0 x1 x2 x3 => exact execStk_steady _ _ _ _ _ hst
  | ldk2 x0 x1 x2 x3 => exact execLdk2_steady _ _ _ _ _ hst
  | stk2 x0 x1 x2 x3 => exact execStk2_steady _ _ _ _ _ hst
  | take x0 x1 x2 => exact execTake_steady _ _ _ _ hst
  | wait x0 x1 x2 => exact execWait_steady _ _ _ _ hst
  | waitEnd x0 x1 => exact execWaitEnd_steady _ _ _ hst
  | post x0 x1 x2 => exact execPost_steady _ _ _ _ hst
  | rcnt x0 x1 x2 => exact execRcnt_steady _ _ _ _ hst
  | frm x0 x1 x2 => exact execFrm_steady _ _ _ _ hst
  | tadd x0 x1 x2 x3 => exact execTadd_steady _ _ _ _ _ hst
  | taddp x0 x1 x2 x3 => exact execTaddp_steady _ _ _ _ _ hst
  | tsub x0 x1 x2 x3 => exact execTsub_steady _ _ _ _ _ hst
  | tcmp x0 x1 x2 => exact execTcmp_steady _ _ _ _ hst
  | tdue x0 x1 => exact execTdue_steady _ _ _ hst
  | tdiff x0 x1 x2 x3 => exact execTdiff_steady _ _ _ _ _ hst
  | ttos x0 x1 x2 x3 => exact execTtos_steady _ _ _ _ _ hst
  | tqs x0 x1 x2 => exact execTqs_steady _ _ _ _ hst
  | tms x0 x1 x2 => exact execTms_steady _ _ _ _ hst
  | regr x0 x1 x2 => exact execRegr_steady _ _ _ _ hst
  | regw x0 x1 x2 => exact execRegw_steady _ _ _ _ hst
  | limh x0 x1 x2 x3 => exact execLimh_steady _ _ _ _ _ hst
  | liml x0 x1 x2 x3 => exact execLiml_steady _ _ _ _ _ hst
  | dlyon x0 x1 x2 x3 => exact execDlyon_steady _ _ _ _ _ hst
  | dlyoff x0 x1 x2 x3 => exact execDlyoff_steady _ _ _ _ _ hst
  | dly x0 x1 x2 x3 => exact execDly_steady _ _ _ _ _ hst
  | alm x0 x1 x2 x3 => exact execAlm_steady _ _ _ _ _ hst
  | ack x0 x1 x2 x3 => exact execAck_steady _ _ _ _ _ hst
  | gsup x0 x1 x2 x3 => exact execGsup_steady _ _ _ _ _ hst
  | fup x0 x1 x2 => exact execFup_steady _ _ _ _ hst
  | runh x0 x1 x2 x3 => exact execRunh_steady _ _ _ _ _ hst
  | strt x0 x1 x2 x3 => exact execStrt_steady _ _ _ _ _ hst
  | call x0 x1 x2 x3 => exact execCall_steady _ _ _ _ _ hst
  | esc x0 x1 x2 => exact execEsc_steady _ _ _ _ hst
  | cans x0 x1 x2 x3 => exact execCans_steady _ _ _ _ _ hst
  | cend x0 x1 x2 => exact execCend_steady _ _ _ _ hst
  | outc x0 x1 x2 x3 => exact execOutc_steady _ _ _ _ _ hst
  | pnlt x0 x1 x2 x3 => exact execPnlt_steady _ _ _ _ _ hst
  | snxpt x0 x1 x2 x3 => exact execSnxpt_steady _ _ _ _ _ hst
  | snxae x0 x1 x2 x3 => exact execSnxae_steady _ _ _ _ _ hst
  | snxm x0 x1 x2 x3 => exact execSnxm_steady _ _ _ _ _ hst
  | kopen x0 => exact execKopen_steady _ _ hst
  | kclose x0 => exact execKclose_steady _ _ hst
  | krec x0 x1 x2 x3 => exact execKrec_steady _ _ _ _ _ hst
  | ldm x0 x1 x2 x3 => exact execLdm_steady _ _ _ _ _ hst
  | stm x0 x1 x2 x3 => exact execStm_steady _ _ _ _ _ hst
  | ldb x0 x1 x2 x3 => exact execLdb_steady _ _ _ _ _ hst
  | stb x0 x1 x2 x3 => exact execStb_steady _ _ _ _ _ hst
  | csrr x0 x1 x2 => exact execCsrr_steady _ _ _ _ hst
  | csrw x0 x1 x2 => exact execCsrw_steady _ _ _ _ hst
  | eret x0 => exact execEret_steady _ _ hst
  | wfi x0 => exact execWfi_steady _ _ hst
  | sys x0 x1 => exact execSys_steady _ _ _ hst
  | interruptEntry => exact execInterruptEntry_steady _ hst
  | timerCompare => exact execTimerCompare_steady _ hst
  | trpReset x0 x1 => exact execTrpReset_steady _ _ _ hst
  | trpCfgWrite x0 x1 x2 => exact execTrpCfgWrite_steady _ _ _ _ hst
  | dupMismatch x0 => exact execDupMismatch_steady _ _ hst
  | latchScrub x0 => exact execLatchScrub_steady _ _ hst
  | permitToken => exact execPermitToken_steady _ hst
  | deferLong => exact execDeferLong_steady _ hst
  | staggerSlot => exact execStaggerSlot_steady _ hst
  | ackAlarm x0 x1 => exact execAckAlarm_steady _ _ _ hst
  | ackGroup x0 x1 => exact execAckGroup_steady _ _ _ hst
  | answer x0 x1 => exact execAnswer_steady _ _ _ hst
  | duty x0 x1 => exact execDuty_steady _ _ _ hst
  | roster x0 x1 => exact execRoster_steady _ _ _ hst
  | user x0 x1 x2 => exact execUser_steady _ _ _ _ hst
  | journalGroupAccept => exact execJournalGroupAccept_steady _ hst
  | groupCommit x0 => exact execGroupCommit_steady _ _ hst
  | journalRecovery x0 => exact execJournalRecovery_steady _ _ hst
  | recoveryDone ms boot => exact absurd rfl (hc ms boot)
  | compactionStart => exact execCompactionStart_steady _ hst
  | compactNow x0 => exact execCompactNow_steady _ _ hst
  | compactionCopyEnd => exact execCompactionCopyEnd_steady _ hst
  | segmentEraseEnd x0 => exact execSegmentEraseEnd_steady _ _ hst
  | lookExact x0 x1 => exact execLookExact_steady _ _ _ hst
  | lookNext x0 x1 => exact execLookNext_steady _ _ _ hst
  | append x0 => exact execAppend_steady _ _ hst
  | gopen x0 => exact execGopen_steady _ _ hst
  | gclose x0 => exact execGclose_steady _ _ hst
  | rawRead x0 => exact execRawRead_steady _ _ hst
  | rawProgram x0 => exact execRawProgram_steady _ _ hst
  | rawErase x0 => exact execRawErase_steady _ _ hst
  | rawFlashDone x0 => exact execRawFlashDone_steady _ _ hst
  | eventRecordWrite => exact execEventRecordWrite_steady _ hst
  | evrSwtrig x0 x1 => exact execEvrSwtrig_steady _ _ _ hst
  | evrClearArm x0 x1 => exact execEvrClearArm_steady _ _ _ hst
  | evrClearConfirm x0 x1 => exact execEvrClearConfirm_steady _ _ _ hst
  | evrClearDisarm => exact execEvrClearDisarm_steady _ hst
  | evrClearDone => exact execEvrClearDone_steady _ hst
  | evrScan => exact execEvrScan_steady _ hst
  | evrWendRead x0 => exact execEvrWendRead_steady _ _ hst
  | rtcShadowFreeze x0 x1 => exact execRtcShadowFreeze_steady _ _ _ hst
  | rtcYearRead x0 => exact execRtcYearRead_steady _ _ hst
  | shadowTimeout x0 => exact execShadowTimeout_steady _ _ hst
  | rtcFieldStage x0 x1 x2 => exact execRtcFieldStage_steady _ _ _ _ hst
  | rtcCommit x0 x1 => exact execRtcCommit_steady _ _ _ hst
  | rtcLoad => exact execRtcLoad_steady _ hst
  | osfClear x0 => exact execOsfClear_steady _ _ hst
  | lbvClear x0 => exact execLbvClear_steady _ _ hst
  | rtcSecond => exact execRtcSecond_steady _ hst
  | rtcCalibration => exact execRtcCalibration_steady _ hst
  | vbatReading x0 => exact execVbatReading_steady _ _ hst
  | oscillatorStop => exact execOscillatorStop_steady _ hst
  | domainReset => exact execDomainReset_steady _ hst
  | vbatSwitchover => exact execVbatSwitchover_steady _ hst
  | vbatSwitchback => exact execVbatSwitchback_steady _ hst
  | gateClose => exact execGateClose_steady _ hst
  | gateOpen => exact execGateOpen_steady _ hst
  | refreshTick x0 x1 => exact execRefreshTick_steady _ _ _ hst
  | panelTempRead x0 x1 => exact execPanelTempRead_steady _ _ _ hst
  | reassertPass => exact execReassertPass_steady _ hst
  | stressRecord => exact execStressRecord_steady _ hst
  | waveCommit x0 => exact execWaveCommit_steady _ _ hst
  | panelModeWrite x0 x1 => exact execPanelModeWrite_steady _ _ _ hst
  | panelClearEnd => exact execPanelClearEnd_steady _ hst
  | railFault => exact execRailFault_steady _ hst
  | segFault x0 => exact execSegFault_steady _ _ hst
  | panelPowerDown => exact execPanelPowerDown_steady _ hst
  | ethFrameReceive x0 x1 x2 x3 x4 x5 => exact execEthFrameReceive_steady _ _ _ _ _ _ _ hst
  | hello x0 => exact execHello_steady _ _ hst
  | helloTimer x0 => exact execHelloTimer_steady _ _ hst
  | associationTimeout x0 => exact execAssociationTimeout_steady _ _ hst
  | point x0 => exact execPoint_steady _ _ hst
  | ackElement x0 => exact execAckElement_steady _ _ hst
  | answerElement x0 => exact execAnswerElement_steady _ _ hst
  | msg x0 => exact execMsg_steady _ _ hst
  | subscribe x0 => exact execSubscribe_steady _ _ hst
  | regRd x0 => exact execRegRd_steady _ _ hst
  | regWr x0 => exact execRegWr_steady _ _ hst
  | imgOpen x0 => exact execImgOpen_steady _ _ hst
  | imgData x0 => exact execImgData_steady _ _ hst
  | imgClose x0 => exact execImgClose_steady _ _ hst
  | imgTimeout => exact execImgTimeout_steady _ hst
  | prpSupervision => exact execPrpSupervision_steady _ hst
  | pathLost x0 => exact execPathLost_steady _ _ hst
  | portDisable x0 x1 => exact execPortDisable_steady _ _ _ hst
  | linkChange x0 x1 x2 => exact execLinkChange_steady _ _ _ _ hst
  | ptpSync x0 x1 x2 x3 => exact execPtpSync_steady _ _ _ _ _ hst
  | ptpAnnounce x0 x1 x2 x3 => exact execPtpAnnounce_steady _ _ _ _ _ hst
  | syncLoss x0 => exact execSyncLoss_steady _ _ hst
  | holdoverExpiry => exact execHoldoverExpiry_steady _ hst
  | rtcShipSet => exact execRtcShipSet_steady _ hst
  | timeElementTimer => exact execTimeElementTimer_steady _ hst
  | canFrameReceive x0 x1 x2 x3 => exact execCanFrameReceive_steady _ _ _ _ _ hst
  | busOff x0 => exact execBusOff_steady _ _ hst
  | busOffRecovery x0 => exact execBusOffRecovery_steady _ _ hst
  | mdioAccess x0 x1 => exact execMdioAccess_steady _ _ _ hst
  | associationConfig x0 x1 x2 => exact execAssociationConfig_steady _ _ _ _ hst
  | lampRoomReset => exact execLampRoomReset_steady _ hst
  | ready x0 => exact execReady_steady _ _ hst
  | readyTimeout => exact execReadyTimeout_steady _ hst
  | watchdogKick x0 x1 => exact execWatchdogKick_steady _ _ _ hst
  | watchdogExpiry => exact execWatchdogExpiry_steady _ hst
  | wqpop x0 => exact execWqpop_steady _ _ hst
  | save x0 x1 => exact execSave_steady _ _ _ hst
  | sensorSample x0 x1 x2 x3 x4 => exact execSensorSample_steady _ _ _ _ _ _ hst
  | nodeRecord => exact execNodeRecord_steady _ hst
  | openTransfer x0 x1 => exact execOpenTransfer_steady _ _ _ hst
  | updDataWrite x0 x1 => exact execUpdDataWrite_steady _ _ _ hst
  | closeTransfer x0 => exact execCloseTransfer_steady _ _ hst
  | updAbort x0 => exact execUpdAbort_steady _ _ hst
  | slotEraseDone => exact execSlotEraseDone_steady _ hst
  | verificationDone => exact execVerificationDone_steady _ hst
  | activate x0 x1 => exact execActivate_steady _ _ _ hst
  | rollback x0 x1 => exact execRollback_steady _ _ _ hst
  | confirm x0 => exact execConfirm_steady _ _ hst
  | activationLanesStopped => exact execActivationLanesStopped_steady _ hst
  | codeLoadDone x0 => exact execCodeLoadDone_steady _ _ hst
  | keepWriteDone x0 => exact execKeepWriteDone_steady _ _ hst
  | trialExpiry => exact execTrialExpiry_steady _ hst
  | key x0 => exact execKey_steady _ _ hst
  | errorArrival => exact execErrorArrival_steady _ hst
  | faultEntry => exact execFaultEntry_steady _ hst
  | safeRelease x0 => exact execSafeRelease_steady _ _ hst
  | rearmF x0 => exact execRearmF_steady _ _ hst
  | rearmG x0 => exact execRearmG_steady _ _ hst
  | unhold x0 => exact execUnhold_steady _ _ hst
  | fltStatusClear x0 x1 => exact execFltStatusClear_steady _ _ _ hst
  | collectorSelfCheck x0 x1 => exact execCollectorSelfCheck_steady _ _ _ hst
  | inputPresent x0 x1 => exact execInputPresent_steady _ _ _ hst
  | inputLost x0 x1 => exact execInputLost_steady _ _ _ hst
  | inputLoss x0 => exact execInputLoss_steady _ _ hst
  | holdSwitchClose => exact execHoldSwitchClose_steady _ hst
  | ride x0 => exact execRide_steady _ _ hst
  | holdReady x0 => exact execHoldReady_steady _ _ hst
  | holdLow x0 => exact execHoldLow_steady _ _ hst
  | logicFailing x0 => exact execLogicFailing_steady _ _ hst
  | powerReturn => exact execPowerReturn_steady _ hst
  | powerGood x0 => exact execPowerGood_steady _ _ hst
  | logicRailOut x0 => exact execLogicRailOut_steady _ _ hst
  | brownout => exact execBrownout_steady _ hst
  | fldIlimBegin x0 => exact execFldIlimBegin_steady _ _ hst
  | fldIlimEnd x0 => exact execFldIlimEnd_steady _ _ hst
  | crystalFail => exact execCrystalFail_steady _ hst
  | xtalRetry => exact execXtalRetry_steady _ hst
  | islandClockMeasure x0 x1 x2 x3 => exact execIslandClockMeasure_steady _ _ _ _ _ hst
  | pinReset => exact execPinReset_steady _ hst
  | softReset x0 => exact execSoftReset_steady _ _ hst
  | seqCommit x0 => exact execSeqCommit_steady _ _ hst
  | seqCopy x0 => exact execSeqCopy_steady _ _ hst
  | commitCheckDone => rw [exec]; exact execCommitCheckDone_steady _ hst
  | commitApply => exact execCommitApply_steady _ hst
  | cycleStart x0 => exact execCycleStart_steady _ _ hst
  | pointSetupStart x0 => exact execPointSetupStart_steady _ _ hst
  | converterRelocate x0 => exact execConverterRelocate_steady _ _ hst
  | converterRestore x0 => exact execConverterRestore_steady _ _ hst
  | hspBadFrame x0 x1 x2 x3 x4 => exact execHspBadFrame_steady _ _ _ _ _ _ hst
  | remoteAccessDone => exact execRemoteAccessDone_steady _ hst
  | transmissionComplete x0 => exact execTransmissionComplete_steady _ _ hst
  | ptpDelayResponse x0 => exact execPtpDelayResponse_steady _ _ hst
  | oscillatorRestart => exact execOscillatorRestart_steady _ hst
  | resetRelease => exact execResetRelease_steady _ hst
  | powerOn => exact execPowerOn_steady _ hst
  | pllLock => exact execPllLock_steady _ hst
  | fuseSensingEnd x0 => exact execFuseSensingEnd_steady _ _ hst
  | refnCheck x0 x1 x2 => exact execRefnCheck_steady _ _ _ _ hst
  | keyProgrammingDone => exact execKeyProgrammingDone_steady _ hst
  | inputHandover => exact execInputHandover_steady _ hst

/-- Every command keeps the canonical form and the queue. -/
theorem exec_canonical (c : Instr) {s t : State} (h : canonical s = true) (ht : exec c s = .next t) :
    canonical t = true ∧ t.pending = s.pending := by
  have hst : Steady s.tbc s.pending s := ⟨h, rfl, .inl rfl⟩
  by_cases hc : ∃ ms boot, c = .recoveryDone ms boot
  · obtain ⟨ms, boot, rfl⟩ := hc
    obtain ⟨b, hb⟩ := execRecoveryDone_steady ms boot s hst
    exact ⟨(hb.steady t ht).canon, (hb.steady t ht).pending⟩
  · have := (exec_steady c s hst fun ms boot e => hc ⟨ms, boot, e⟩).steady t ht
    exact ⟨this.canon, this.pending⟩

/-- A step on an empty queue is a tick. -/
theorem step_nil {s : State} (h : s.pending = []) : step s = .next s.tick := by unfold step; rw [h]

/-- A step with a command at the front runs it with the queue's rest. -/
theorem step_cons {s : State} {c : Instr} {rest : List Instr} (h : s.pending = c :: rest) :
    step s = exec c { s with pending := rest } := by unfold step; rw [h]

end Sys2Proof.Laws
end

