-- ==== Sys2Proof/WellFormed.lean ====
section
/-! DEFINITION. Well-formed commands: what a command's operands must be for it to stand for an operation or event of the
spec's table. Fields of a fixed width are well formed by their types. -/

namespace Sys2Proof

/-- Data bytes a CAN FD frame may have (R511). -/
def canLength (n : Nat) : Bool := decide (n ≤ 8) || [12, 16, 20, 24, 32, 48, 64].contains n

/-- Whether a command is well formed. -/
def Instr.wf : Instr → Bool
  | .groupMeasurement _ _ _ iout => iout.length == 8
  | .cjsRead readings => decide (readings.length ≤ 6)
  | .svcSweep volts iloop _ => decide (volts.length ≤ 48) && decide (iloop.length ≤ 48)
  | .rxDone _ data errIdx _ =>
    match errIdx with
    | none => true
    | some i => decide (i < data.length)
  | .hartPoll _ _ req => !req.isEmpty && decide (req.length ≤ 128)
  | .ethFrameReceive _ _ _ _ _ body => decide (body.length ≤ 1500)
  | .canFrameReceive _ _ _ data => canLength data.length
  | .sensorSample temps tsw vmon _ _ => temps.length == 12 && decide (tsw.length ≤ 48) && vmon.length == 7
  | .islandClockMeasure _ _ _ dcos => decide (dcos.length ≤ 3)
  | .hspBadFrame edges cmd _ _ _ => edges != 80 || !([0x00, 0x3C, 0xC3].contains cmd.toNat)
  | .latchScrub found => decide found.Nodup
  | .rtcFieldStage _ field _ => field != .year && field != .subsec
  | .rtcShadowFreeze _ field => field != .year
  | .user _ code _ => decide (0x10 ≤ code.toNat)
  | .save _ n => decide (1 ≤ n.toNat) && decide (n.toNat ≤ 56)
  | .evrClearArm _ area => area != 0
  | .evrClearConfirm _ area => area != 0
  | .openTransfer _ kind => kind == 1 || kind == 2
  | .activate _ kind => kind == 1 || kind == 2
  | .rollback _ kind => kind == 1 || kind == 2
  | _ => true

end Sys2Proof
end

