-- ==== Sys2Proof/Tests/Slice0.lean ====
section
/-! SUPPORT. The model's own tests: the checks of WellFormed, values the spec's text and examples give, and for each
statement with hypotheses a state and operands that meet them. -/

set_option Elab.async false

namespace Sys2Proof.Tests

open Sys2Proof Sys2Proof.Machine

/-! ## Well-formed commands -/

/-- R204, R510 and the tables of commands: each check of `Instr.wf` refuses an ill-formed command. -/
theorem test_wf_lengths :
    (Instr.groupMeasurement 0 0 0 (List.replicate 7 0)).wf = false ∧
    (Instr.groupMeasurement 0 0 0 (List.replicate 8 0)).wf = true ∧
    (Instr.cjsRead (List.replicate 7 none)).wf = false ∧ (Instr.cjsRead (List.replicate 6 none)).wf = true ∧
    (Instr.svcSweep (List.replicate 49 0) [] 0).wf = false ∧ (Instr.svcSweep [] (List.replicate 49 0) 0).wf = false ∧
    (Instr.svcSweep (List.replicate 48 0) (List.replicate 48 0) 0).wf = true ∧
    (Instr.sensorSample (List.replicate 11 0) [] (List.replicate 7 0) 0 0).wf = false ∧
    (Instr.sensorSample (List.replicate 12 0) (List.replicate 49 0) (List.replicate 7 0) 0 0).wf = false ∧
    (Instr.sensorSample (List.replicate 12 0) [] (List.replicate 6 0) 0 0).wf = false ∧
    (Instr.sensorSample (List.replicate 12 0) [] (List.replicate 7 0) 0 0).wf = true ∧
    (Instr.islandClockMeasure 3 false 0 (List.replicate 4 0)).wf = false ∧
    (Instr.islandClockMeasure 3 false 0 (List.replicate 3 0)).wf = true := by decide +kernel

theorem test_wf_bytes :
    (Instr.rxDone 0 [1, 2] (some 2) none).wf = false ∧ (Instr.rxDone 0 [1, 2] (some 1) none).wf = true ∧
    (Instr.hartPoll 0 0 []).wf = false ∧ (Instr.hartPoll 0 0 (List.replicate 129 0)).wf = false ∧
    (Instr.hartPoll 0 0 (List.replicate 128 0)).wf = true ∧
    (Instr.ethFrameReceive 0 true 0 0 none (List.replicate 1501 0)).wf = false ∧
    (Instr.ethFrameReceive 0 true 0 0 none (List.replicate 1500 0)).wf = true ∧
    (Instr.canFrameReceive 0 true 0 (List.replicate 9 0)).wf = false ∧
    (Instr.canFrameReceive 0 true 0 (List.replicate 65 0)).wf = false ∧
    (Instr.canFrameReceive 0 true 0 (List.replicate 64 0)).wf = true ∧
    (Instr.hspBadFrame 80 0x3C 0 0 0).wf = false ∧ (Instr.hspBadFrame 79 0x3C 0 0 0).wf = true ∧
    (Instr.hspBadFrame 80 0x3D 0 0 0).wf = true := by decide +kernel

theorem test_wf_fields :
    (Instr.latchScrub [3, 3]).wf = false ∧ (Instr.latchScrub [3, 4]).wf = true ∧
    (Instr.rtcFieldStage .lampRoom .year 0).wf = false ∧ (Instr.rtcFieldStage .lampRoom .subsec 0).wf = false ∧
    (Instr.rtcFieldStage .lampRoom .month 0).wf = true ∧
    (Instr.rtcShadowFreeze .lampRoom .year).wf = false ∧ (Instr.rtcShadowFreeze .lampRoom .subsec).wf = true ∧
    (Instr.user .lampRoom 0x0F 0).wf = false ∧ (Instr.user .lampRoom 0x10 0).wf = true ∧
    (Instr.save .lampRoom 0).wf = false ∧ (Instr.save .lampRoom 57).wf = false ∧ (Instr.save .lampRoom 56).wf = true ∧
    (Instr.evrClearArm .lampRoom 0).wf = false ∧ (Instr.evrClearArm .lampRoom 3).wf = true ∧
    (Instr.evrClearConfirm .lampRoom 0).wf = false ∧ (Instr.evrClearConfirm .lampRoom 1).wf = true ∧
    (Instr.openTransfer .lampRoom 0).wf = false ∧ (Instr.openTransfer .lampRoom 2).wf = true ∧
    (Instr.activate .lampRoom 3).wf = false ∧ (Instr.activate .lampRoom 1).wf = true ∧
    (Instr.rollback .lampRoom 0).wf = false ∧ (Instr.rollback .lampRoom 2).wf = true := by decide +kernel

/-! ## Small states -/

/-- The node out of reset: the fuses sensed, the clock's gate open, the lamp room ready. -/
def up : State :=
  ((State.reset.setBit A.idFuse F.idFuse_senseok true).setBit A.rtcGate F.rtcGate_open true).setBit
    A.mgsCtrl F.mgsCtrl_ready true

/-- Every thread. -/
def all : BitVec 128 := BitVec.allOnes 128

/-- An image of 300 code words: four alarms, two groups and two zones in keep words 0 to 511, rings 0 to 89 posted and
every ring taken by all; thread 0 declares everything. -/
def image : Image where
  isa := 1
  version := 0x00010000
  lineage := 7
  terms := 0
  groups := 0
  ports := 0
  panel := false
  abase := 0
  gbase := 64
  zbase := 128
  nalm := 4
  ngrp := 2
  nzone := 2
  code := List.replicate 300 0
  threads := List.replicate 4 ⟨0, 1000, false⟩
  posters := List.replicate 90 all
  takers := List.replicate 128 all
  regions := [⟨0, 512, all⟩]
  keepInit := []
  decls := [⟨0xFFFFFFFFFFFF#64, 0x7FFFFFFFFFFFFF#64, 3, true, true, true, true⟩]
  regDecls := [⟨0, true, true, 0x00200000, 0x00200FFF⟩]
  restore := 0

/-- w1 to w15, each 0 and GOOD where not given. -/
def regs (ws : List (Nat × TWord)) : List TWord := ws.foldl (fun rs x => rs.set x.1 x.2) (List.replicate 16 TWord.zero)

/-- A GOOD word. -/
def good (n : Nat) : TWord := ⟨BitVec.ofNat 32 n, .good⟩

/-- The node with that image in lanes that execute a frame, thread 0 of each running at code word 10 with these registers,
and the same registers on the lamp room core in its boot ROM. -/
def lab (rs : List TWord) : State :=
  let c : Cpu := { Cpu.fresh 10 with regs := rs }
  let th : Thread := { Thread.idle with st := .run, cpu := c }
  let ln : LaneSt := { LaneSt.reset with
    threads := th :: List.replicate 127 Thread.idle, executing := true, frame := 9, fPrev := 100000000, fCur := 101000000
    period := 1000000 }
  { up with
    image := some image, lanes := [ln, ln, ln], tbc := 101000600
    core := { Core.reset with cpu := { c with pc := 0xFFFF0000 } } }

/-- Lane 0 of a state changed. -/
def lane0 (g : LaneSt → LaneSt) (s : State) : State := { s with lanes := s.lanes.modify 0 g }

/-- Thread 0 of lane 0 changed. -/
def thread0 (g : Thread → Thread) (s : State) : State :=
  lane0 (fun ln => { ln with threads := ln.threads.modify 0 g }) s

/-- The next state of an outcome, where it is one. -/
def nextOf (o : Host.Outcome State Fault Refusal) : Option State :=
  match o with
  | .next s => some s
  | .fault _ => none
  | .refused _ => none

/-- What thread 0 of lane 0 holds in a register after a command. -/
def after0 (s : State) (i : Instr) (r : Reg) : Option TWord := (nextOf (exec i s)).map fun t => (t.thread 0 0).cpu.get r

/-! ## The node as a machine of commands -/

theorem witness_IdleStepTicks :
    State.reset.pending = [] ∧ State.reset.fld A.tmbState F.tmbState_tbcrun ≠ 1 ∧
    (State.reset.setFld A.tmbState F.tmbState_tbcrun 1).pending = [] ∧
    (State.reset.setFld A.tmbState F.tmbState_tbcrun 1).fld A.tmbState F.tmbState_tbcrun = 1 := by decide +kernel

theorem witness_EveryCommandGoesOn : canonical State.reset = true ∧ (∀ ms boot, Instr.txDone 0 ≠ .recoveryDone ms boot) ∧
    nextOf (exec (.txDone 0) State.reset) = some State.reset := ⟨by decide +kernel, by simp, by decide +kernel⟩

theorem witness_CanonicalKept : canonical State.reset = true ∧ after 3 State.reset = some State.reset := by decide +kernel

theorem witness_QueueInOrder :
    let s : State := { State.reset with pending := [.txDone 0, .noReply 1, .txDone 2] }
    canonical s = true ∧ 2 ≤ s.pending.length ∧ s.pending.drop 1 = .noReply 1 :: [.txDone 2] := by decide +kernel

/-- A journal whose recovery found SEQ 5 and the stamp of 1,234 s, and one whose recovery is still to come. -/
theorem witness_TimebaseStart :
    let s := up.modJnl fun j => { j with found := some (5, 123412345678) }
    canonical s = true ∧ s.jnl.found = some (5, 123412345678) ∧ (123412345678 / 100000000 + 2) * 100000000 < 2 ^ 64 ∧
    s.jnlPhase = 0 ∧ s.heldReset = false ∧ up.jnl.found = none := by decide +kernel

/-- R583's formula on that stamp: TBC starts at 1,236 s. -/
theorem test_timebase_start :
    let s := up.modJnl fun j => { j with found := some (5, 123412345678) }
    ((s.endRecovery 5).startTbc.tbc, (s.endRecovery 5).startTbc.pair A.tmbStartLo) = (123600000000, 123600000000) := by
  decide +kernel

theorem witness_OneLaneMasked : (0 : LaneId) ≠ 1 ∧ (0 : LaneId) ≠ 2 ∧ (1 : LaneId) ≠ 2 ∧
    [(⟨0, 5, .groupBegin⟩ : Txn)] ≠ [⟨0, 6, .groupBegin⟩] := by decide +kernel

/-- Three lanes with heartbeats, of which two are equal; and two whose heartbeats differ. -/
theorem witness_VotingLanes :
    let b (n : Nat) : Option Heartbeat := some ⟨9, 20000, n, 0, 0⟩
    let s := (lab (regs [])).modTly fun t => { t with arrived := [b 2, b 3, b 2] }
    ([0, 1, 2] : List LaneId).Nodup ∧ (∀ l ∈ ([0, 1, 2] : List LaneId), s.laneCause l = none) ∧
    (s.tly.arrived.getD 0 none = s.tly.arrived.getD 2 none) ∧ (s.tly.arrived.getD 0 none ≠ s.tly.arrived.getD 1 none) ∧
    s.votingLanes [0, 1, 2] = [0, 2] ∧ s.votingLanes [0, 1] = [] := by decide +kernel

/-! ## Vupore instructions -/

/-- Hypotheses of the register instructions: a thread that runs with its next word loaded, the core with its next word
in the boot ROM, shifts below 32, tag codes below 4 and conditions up to 10. -/
theorem witness_registerInstructions :
    laneRuns (lab (regs [])) 0 0 4 ∧ (((lab (regs [])).thread 0 0).cpu.advance 1).pc < (lab (regs [])).codeWords ∧
    coreRuns (lab (regs [])) ∧ codeOk ((lab (regs [])).core.cpu.advance 4).pc = true ∧
    (31#18).toNat < 32 ∧ (3#4).toNat < 4 ∧ (10#4).toNat ≤ 10 := by
  unfold laneRuns coreRuns; decide +kernel

theorem witness_ThreadRegisters :
    (Cpu.fresh 0).regs.length = 16 ∧ (lab (regs [])).lanes.length = 3 ∧ ((lab (regs [])).lane 2).threads.length = 128 ∧
    (3 : Reg) ≠ 0 ∧ (4 : Reg) ≠ 3 := by decide +kernel

/-- Conditions that hold and fail; targets at the last word loaded and in the core's boot ROM; jumps to both. -/
theorem witness_Branches :
    let s := lab (regs [(1, good 299), (2, good 0xFFFFFFFC)])
    laneRuns s 0 0 1 ∧ coreRuns s ∧ (0#4).toNat ≤ 10 ∧ (s.thread 0 0).cpu.z = false ∧ s.core.cpu.z = false ∧
    (299#16).toNat < s.codeWords ∧ ((s.thread 0 0).cpu.get 1).val.toNat < s.codeWords ∧
    codeOk (s.core.cpu.pc / 262144 * 262144 + 4 * (0xC000#16).toNat) = true ∧
    codeOk (s.core.cpu.get 2).val.toNat = true := by
  unfold laneRuns coreRuns; decide +kernel

/-- Loops of 5 passes, of as many as a register says, and of none; bodies that end at the PC with passes left and
without. -/
theorem witness_Loops :
    let s := lab (regs [(1, good 2)])
    let c : Cpu := { Cpu.fresh 10 with loops := [⟨true, 5, 10, 2, 3⟩, ⟨true, 8, 10, 1, 1⟩, LoopLvl.off, LoopLvl.off] }
    (3#10 : BitVec 10) ≠ 0 ∧ (5#10 : BitVec 10) ≠ 0 ∧ laneRuns s 0 0 1 ∧ coreRuns s ∧
    Nat.min ((s.thread 0 0).cpu.get 1).val.toNat (5#10).toNat ≠ 0 ∧
    Nat.min ((s.thread 0 0).cpu.get 2).val.toNat (5#10).toNat = 0 ∧ 10 + 3 + 1 < s.codeWords ∧
    codeOk (s.core.cpu.pc + 4 * 4) = true ∧ c.loops.length = 4 ∧
    ((c.loops.getD 0 LoopLvl.off).active && (c.loops.getD 0 LoopLvl.off).stop == c.pc) = true ∧
    1 < (c.loops.getD 0 LoopLvl.off).rem ∧ (c.loops.getD 1 LoopLvl.off).rem ≤ 1 := by
  unfold laneRuns coreRuns; decide +kernel

/-- R274: the inner body has ended, the outer loops back with one pass less; the inner level becomes inactive. -/
theorem test_loop_end :
    let c : Cpu := { Cpu.fresh 10 with loops := [⟨true, 5, 10, 2, 3⟩, ⟨true, 8, 10, 1, 1⟩, LoopLvl.off, LoopLvl.off] }
    (c.advance 1).pc = 5 ∧ (c.advance 1).loops.take 2 = [⟨true, 5, 10, 1, 3⟩, ⟨false, 8, 10, 1, 1⟩] := by decide +kernel

theorem witness_ThreadControl :
    let s := lab (regs [])
    (s.lane 1).executing = true ∧ (s.thread 1 0).st = .run ∧ 1 ≤ s.isa ∧ laneRuns s 1 0 1 ∧ (3#4).toNat < 4 ∧
    (s.lane 1).threads.length = 128 ∧ s.lanes.length = 3 := by
  unfold laneRuns; decide +kernel

/-- The last word and the last pair of the thread's region, and of the core's keep memory. -/
theorem witness_KeepAccesses :
    let s := lab (regs [])
    laneRuns s 0 0 2 ∧ coreRuns s ∧ canonical s = true ∧ s.lanes.length = 3 ∧ s.keepOk 0 511 1 = true ∧
    s.keepOk 0 510 2 = true ∧ (2 : Reg).val % 2 = 0 ∧ (2 : Reg) ≠ 0 ∧
    ((s.core.cpu.get 0).val.toNat + (8191#18).toInt : Int) = 8191 ∧
    (s.modTly fun t => { t with repair := some ⟨2, 0, false, some 9, false⟩ }).repairOf 0 = some 2 := by
  unfold laneRuns coreRuns; decide +kernel

/-- One word past the region; a pair that straddles its end; and rings nobody may use. -/
theorem witness_RangeFaults :
    let s := lab (regs [])
    laneRuns s 0 0 2 ∧ s.keepOk 0 512 1 = false ∧ s.keepOk 0 511 2 = false ∧ s.keepOk 0 (-1) 1 = false ∧
    s.mayPost 90 0 = false ∧ (96#7).toNat = 96 ∧
    ({ s with image := some { image with takers := [] } } : State).mayTake 5 0 = false ∧
    ({ s with image := some { image with takers := [], posters := [] } } : State).mayCount 5 0 = false := by
  unfold laneRuns; decide +kernel

/-- An empty ring, one with an entry, a full one, and the fixed rings 96 and 97. -/
def ringLab : State :=
  lane0 (fun ln => { ln with
    rings := (ln.rings.set 1 [0x00000007C0000005#64]).set 3 (List.replicate 32 0)
    fixed := ln.fixed.set 1 [⟨0x0000000900000003#64, false⟩] }) (lab (regs []))

theorem witness_RingTransfer :
    let s := ringLab
    laneRuns s 0 0 1 ∧ s.lanes.length = 3 ∧ (s.lane 0).threads.length = 128 ∧ s.mayTake 1 0 = true ∧ s.mayPost 1 0 = true ∧
    s.mayCount 1 0 = true ∧ (s.lane 0).rings.getD 1 [] = [0x00000007C0000005#64] ∧ (s.lane 0).rings.getD 2 [] = [] ∧
    s.postersDone 0 2 = false ∧ s.postersDone 0 95 = true ∧ (s.lane 0).fixed.getD 1 [] = [⟨0x0000000900000003#64, false⟩] ∧
    (s.lane 0).fixed.getD 0 [] = [] ∧ ((s.lane 0).rings.getD 1 []).length < 32 := by
  unfold laneRuns; decide +kernel

/-- A thread that waits for ring 1, which holds an entry. -/
theorem witness_waitEnd :
    let s := thread0 (fun th => { th with st := .wait, waiting := some (2, 1) }) ringLab
    (s.lane 0).executing = true ∧ (s.thread 0 0).st = .wait ∧ (s.thread 0 0).waiting = some (2, (1#7).toNat) ∧
    (s.thread 0 0).used < s.budget 0 ∧ s.mayTake 1 0 = true ∧ (s.lane 0).rings.getD 1 [] ≠ [] := by decide +kernel

/-- R243, R277: TAKE moves a head into the pair, its tag and low 30 bits. -/
theorem test_take_head :
    (nextOf (exec (.take (.lane 0 0) 2 1) ringLab)).map (fun t =>
      ((t.thread 0 0).cpu.get 2, (t.thread 0 0).cpu.get 3, (t.thread 0 0).cpu.n, (t.thread 0 0).cpu.z)) =
    some (⟨7, .bad⟩, ⟨0xC0000005, .good⟩, true, false) := by decide +kernel

theorem witness_RingFull :
    let s := ringLab
    canonical s = true ∧ laneRuns s 0 0 1 ∧ s.mayPost 3 0 = true ∧ 32 ≤ ((s.lane 0).rings.getD 3 []).length ∧
    (s.thread 0 0).haltAt = none ∧ ((s.thread 0 0).cpu.advance 1).pc < s.codeWords := by
  unfold laneRuns; decide +kernel

theorem witness_TimeInstructions :
    let s := lab (regs [])
    laneRuns s 0 0 2 ∧ coreRuns s ∧ (3#18).toNat < 4 ∧ (2 : Reg).val % 2 = 0 ∧ (14 : Reg).val % 2 = 0 ∧ (14 : Reg) ≠ 0 := by
  unfold laneRuns coreRuns; decide +kernel

/-- R278: 1 s after the largest tick count saturates with tag BAD; half a second is 50,000,000 ticks. -/
theorem test_times :
    after0 (lab (regs [(2, good 0xFFFFFFFF), (3, good 0xFFFFFFFF), (4, good 100000000)])) (.tadd (.lane 0 0) 6 2 4) 7
      = some ⟨0xFFFFFFFF, .bad⟩ ∧
    after0 (lab (regs [(4, good 0x8000)])) (.tqs (.lane 0 0) 6 4) 6 = some (good 50000000) := by decide +kernel

/-- Permitted and forbidden addresses, GOOD and BAD operands, an outbox with room and a full one. -/
theorem witness_RegisterAccess :
    let s := lab (regs [(1, good 0x00200040), (2, good 0x00201000), (3, ⟨5, .bad⟩)])
    let f := lane0 (fun ln => { ln with outbox := List.replicate 4096 ⟨0, 0, .groupBegin⟩ }) s
    let c := (s.thread 0 0).cpu
    laneRuns s 0 0 1 ∧ laneRuns f 0 0 1 ∧ s.mayAccess 0 false (c.get 1).val.toNat = true ∧
    s.mayAccess 0 true (c.get 1).val.toNat = true ∧ s.mayAccess 0 true (c.get 2).val.toNat = false ∧
    (c.get 1).tag ≠ .bad ∧ (c.get 3).tag = .bad ∧ roomFor s 0 1 ∧ ¬roomFor f 0 1 ∧ (65535#18).toNat < 65536 := by
  unfold laneRuns roomFor; decide +kernel

/-- A timer record the thread reaches; GOOD and BAD operands; a timer in each of its states. -/
theorem witness_LimitsTimersDelays :
    let s := lab (regs [(1, ⟨1, .bad⟩), (6, good 508)])
    let c := (s.thread 0 0).cpu
    laneRuns s 0 0 2 ∧ s.keepOk 0 (c.get 6).val.toNat 4 = true ∧ (c.get 1).tag = .bad ∧ (c.get 2).tag ≠ .bad ∧
    (⟨false, true, true, 50, false⟩ : Timer).run = false ∧ (100 : Nat) + 10 < 111 ∧ (111 : Nat) ≤ 101 + 10 ∧
    (⟨true, false, true, 50, false⟩ : Timer).stamp < 51 := by
  unfold laneRuns; decide +kernel

/-- R297: an on-delay of 5 s runs out just before the seam, and not at the seam itself. -/
theorem test_timer_step :
    timerStep ⟨false, false, false, 0, false⟩ true 100 500000000 0 500000101 = ⟨false, true, true, 500000100, true⟩ ∧
    (timerStep ⟨false, false, false, 0, false⟩ true 100 500000000 0 500000100).out = false := by decide +kernel

/-- Alarm 1 outside and alarm 2 inside group 1, both acknowledged or not; group 1 with its record. -/
def alarmLab : State :=
  lane0 (fun ln => { ln with keep := [(12, good 0), (13, good 7), (20, good 0x4001), (21, good 5), (81, good 0x10000000)] })
    (lab (regs [(1, good 1), (2, good 2), (4, good 101000000), (6, ⟨1, .bad⟩), (8, good 3)]))

theorem witness_Alarms :
    let s := alarmLab
    let c := (s.thread 0 0).cpu
    laneRuns s 0 0 3 ∧ s.alarmRec 0 (c.get 1).val.toNat = some 8 ∧ s.alarmRec 0 (c.get 2).val.toNat = some 16 ∧
    s.alarmRec 0 3 = some 24 ∧ (s.decl 0).journal = true ∧ roomFor s 0 1 ∧ (c.get 6).tag = .bad ∧ (c.get 1).tag ≠ .bad ∧
    (s.kword 0 (8 + 4)).val.getLsbD 14 = false ∧ (s.kword 0 (16 + 4)).val.getLsbD 14 = true ∧
    s.groupRec 0 ((s.kword 0 (16 + 4)).val.toNat % 64) = some 80 ∧ (AState.of (s.kword 0 (8 + 5)).val).unack = true ∧
    (AState.of (s.kword 0 (24 + 5)).val).unack = false := by
  unfold laneRuns roomFor; decide +kernel

/-- R299: a condition that rises makes an alarm active and unacknowledged, mask bits 0, 2 and 4. -/
theorem test_alarm_rises : alarmStep (AState.of 0) true false true = ({ AState.of 0 with
    cond := true, active := true, unack := true }, 21) := by decide +kernel

/-- A group the thread reaches, alarms with and without a group, and a counter record. -/
theorem witness_GroupsAndCounters :
    let s := alarmLab
    let c := (s.thread 0 0).cpu
    laneRuns s 0 0 3 ∧ s.groupRec 0 (c.get 1).val.toNat = some 80 ∧ s.groupRec 0 0 = some 64 ∧ (s.decl 0).journal = true ∧
    roomFor s 0 1 ∧ s.alarmRec 0 (c.get 1).val.toNat = some 8 ∧ (s.kword 0 12).val.getLsbD 14 = false ∧
    s.alarmRec 0 (c.get 2).val.toNat = some 16 ∧ (s.kword 0 20).val.getLsbD 14 = true ∧
    s.groupRec 0 ((s.kword 0 20).val.toNat % 64) = some 80 ∧ s.alarmRec 0 0 = some 0 ∧
    s.keepOk 0 504 8 = true := by
  unfold laneRuns roomFor; decide +kernel

/-- R303: an inhibit that ends starts the release delay, here of 2 s from tick 50. -/
theorem test_suppression :
    gsupStep (GState.of 0x30000000) false 50 20 0 100 =
      ({ GState.of 0x30000000 with relrun := true, inh := false }, none, some 200000050) := by decide +kernel

/-- Zone 0 idle; zone 1 calling in stage 0 of 3, its step due at tick 5. -/
def zoneLab : State :=
  lane0 (fun ln => { ln with keep := [(144, good 0x88888821), (145, good 0x04040101), (146, good 0x0A0A0A03),
    (147, good 0x18), (148, good 0x01000101), (150, good 5)] })
    (lab (regs [(1, good 1), (4, good 101000000), (6, good 0x31)]))

theorem witness_Calls :
    let s := zoneLab
    let c := (s.thread 0 0).cpu
    laneRuns s 0 0 3 ∧ s.zoneRec 0 (c.get 1).val.toNat = some 144 ∧ s.zoneRec 0 0 = some 128 ∧
    (s.decl 0).zones.getLsbD 1 = true ∧ (s.decl 0).zones.getLsbD 0 = true ∧ (s.decl 0).journal = true ∧ roomFor s 0 2 ∧
    (s.zone 0 144).calling = true ∧ (s.zone 0 128).calling = false ∧ (s.zone 0 144).due < (s.lane 0).fCur.toNat ∧
    (s.zone 0 144).stage < (s.zone 0 144).last ∧ (s.zone 0 128).last ≤ (s.zone 0 128).stage ∧ (4 : Reg) ≠ 0 := by
  unfold laneRuns roomFor; decide +kernel

/-- R310: the duty engineer at position 0 is 1, the next occupied position 1 holds 2; with both bits both are called. -/
theorem test_engineers : engineers 0x88888821 3 0 = 6 ∧ engineers 0x88888821 2 0 = 4 ∧ engineers 0x88888821 4 0 = 6 := by
  decide +kernel

/-- Subjects declared and not declared, record numbers in range and beyond, a group open and none, and a full outbox. -/
theorem witness_LaneTransactions :
    let s := alarmLab
    let o := thread0 (fun th => { th with group := some ⟨31, 4000, false⟩ }) s
    let n : State := { s with image := some { image with decls := [] } }
    let f := lane0 (fun ln => { ln with outbox := List.replicate 4096 ⟨0, 0, .groupBegin⟩ }) s
    laneRuns s 0 0 5 ∧ roomFor s 0 1 ∧ (s.decl 0).outputs.getLsbD 47 = true ∧ (s.decl 0).segments.getLsbD 54 = true ∧
    (s.decl 0).snx = true ∧ s.alarmRec 0 1 = some 8 ∧ s.keepOk 0 496 16 = true ∧ (s.thread 0 0).group = none ∧
    (o.thread 0 0).group = some ⟨31, 4000, false⟩ ∧ s.alarmRec 0 4 = none ∧ s.groupRec 0 2 = none ∧ s.zoneRec 0 2 = none ∧
    (n.decl 0).zones.getLsbD 0 = false ∧ n.zoneRec 0 0 = some 128 ∧ (n.decl 0).outputs.getLsbD 0 = false ∧
    (n.decl 0).segments.getLsbD 0 = false ∧ (n.decl 0).snx = false ∧ (n.decl 0).journal = false ∧ ¬roomFor f 0 1 ∧
    (AState.of (f.kword 0 13).val).unack = true := by
  unfold laneRuns roomFor; decide +kernel

/-- Addresses at both ends of the SRAM and of the boot ROM, a readable register, an absent one; supervisor and task. -/
theorem witness_CoreAccesses :
    let s := lab (regs [(1, good 0x80000000), (2, good 0x8003FFFC), (3, good 0xFFFFFFFC), (4, good 0x00010018), (5, good 0x80040000)])
    let t : State := { s with core := { s.core with mstat := 0 } }
    let c := s.core.cpu
    let ea (r : Reg) : Int := (c.get r).val.toNat + (0#18).toInt
    coreRuns s ∧ codeOk (c.advance 4).pc = true ∧ mstatS.get s.core.mstat = 1 ∧ mstatS.get t.core.mstat ≠ 1 ∧
    ea 1 = 0x80000000 ∧ ea 2 = 0x8003FFFC ∧ ea 2 % 4 = 0 ∧ ea 3 = 0xFFFFFFFC ∧ (ea 2 + 1) % 4 ≠ 0 ∧
    s.readable 4 (ea 4).toNat = true ∧ s.readable 4 (ea 5).toNat = false ∧ (12#18).toNat = 12 ∧
    mstatX.get (3 : Word) = mstatX.get s.core.mstat := by
  unfold coreRuns; decide +kernel

/-- A supervisor and a task; keep words and jumps out of range; an interrupt that is due and none. -/
theorem witness_CoreExceptions :
    let s := lab (regs [(1, good 0x7FFFFFFF), (2, good 0x80000002), (3, good 8192)])
    let t : State := { s with core := { s.core with mstat := 0 } }
    let e : State := { s with core := { s.core with epc := 0x80000000 } }
    let i : State := { s with core := { s.core with mstat := 3, imask := 64, ipend := 64 } }
    coreRuns s ∧ coreRuns t ∧ coreRuns e ∧ mstatS.get t.core.mstat ≠ 1 ∧ (9#18).toNat < 10 ∧ (65535#18).toNat < 65536 ∧
    codeOk (s.core.cpu.get 2).val.toNat = false ∧ (s.core.cpu.get 3).val.toNat = 8192 ∧ codeOk e.core.epc.toNat = true ∧
    mstatS.get e.core.mstat = 1 ∧ i.core.imask.getLsbD 6 = true ∧ i.pendingAt 6 = true ∧ i.pendingAt 1 = false ∧
    mstatIe.get i.core.mstat = 1 ∧ mstatIe.get s.core.mstat ≠ 1 := by
  unfold coreRuns; decide +kernel

/-- R290: SYS 5 saves the next instruction's address and enters the vector of code 5. -/
theorem test_sys :
    (nextOf (exec (.sys .core 5) (lab (regs [])))).map (fun t => (t.core.epc, t.core.ecause, t.core.cpu.pc)) =
      some (0xFFFF0004, 0x00000505, 0xFFFF0114) := by decide +kernel

/-- A thread at its budget, one short of four slots, one with slots; an image without a level; a target beyond it. -/
theorem witness_ThreadFaults :
    let s := lab (regs [])
    let b (n : Nat) := thread0 (fun th => { th with used := n }) s
    (s.lane 0).executing = true ∧ (s.thread 0 0).st = .run ∧ ((b 1000).thread 0 0).st = .run ∧
    (b 1000).budget 0 < ((b 1000).thread 0 0).used + 1 ∧ (b 997).budget 0 < ((b 997).thread 0 0).used + 4 ∧
    ((b 999).thread 0 0).used + 1 ≤ (b 999).budget 0 ∧ ({ s with image := some { image with isa := 0 } } : State).isa = 0 ∧
    32 ≤ (32#18).toNat ∧ 1 ≤ s.isa ∧ s.codeWords ≤ (300#16).toNat := by decide +kernel

/-- R236, R238, R271: 2^31 − 1 plus 1 saturates and is BAD; −2^31 divided by −1 too; division by 0; rounding of QTI. -/
theorem test_arithmetic :
    let s := lab (regs [(1, good 0x7FFFFFFF), (2, good 1), (3, good 0x80000000), (4, good 0xFFFFFFFF), (5, good 0x00018000),
      (6, good 0xFFFE8000)])
    after0 s (.add (.lane 0 0) 7 1 2) 7 = some ⟨0x7FFFFFFF, .bad⟩ ∧
    after0 s (.div (.lane 0 0) 7 3 4) 7 = some ⟨0x7FFFFFFF, .bad⟩ ∧
    after0 s (.div (.lane 0 0) 7 4 0) 7 = some ⟨0x80000000, .bad⟩ ∧
    after0 s (.addw (.lane 0 0) 7 1 2) 7 = some ⟨0x80000000, .good⟩ ∧
    after0 s (.qti (.lane 0 0) 7 5) 7 = some ⟨2, .good⟩ ∧
    after0 s (.qti (.lane 0 0) 7 6) 7 = some ⟨0xFFFFFFFE, .good⟩ := by decide +kernel

/-! ## The management bus and the host SPI -/

/-- A plain register, one with a key, addresses no block has, a status register; the node held in reset; a restore. -/
theorem witness_Bus :
    let s := up
    up.heldReset = false ∧ (up.modSup fun p => { p with pinLow := true }).heldReset = true ∧ s.writeOk 4 A.supCtrl 1 = true ∧ s.writeOk 5 3 1 = false ∧
    s.watched A.supCtrl = false ∧ s.restoring 4 = false ∧
    (s.setBit A.mgsCtrl F.mgsCtrl_ready false).restoring 4 = true ∧ s.readable 5 3 = false ∧ canonical s = true ∧
    s.writeOk 4 (A.outCfg 47) 0 = true ∧ s.watched (A.outCfg 47) = false ∧ s.writeOk 4 (A.trmDi 47) 0 = true ∧
    s.watched (A.trmDi 47) = false ∧ s.writeOk 4 A.mgsTlim 0x00005A50 = true ∧ s.watched A.mgsTlim = false ∧
    s.writeOk 4 (A.muxCmw 3) 0 = true ∧ s.watched (A.muxCmw 3) = false ∧ s.watched A.supCtrl = false := by decide +kernel

/-- A status register with two flags, whose SEQ the written word equals and differs from. -/
theorem witness_ClearingWrites :
    let s := (up.event A.hspStatus F.hspStatus_frameerr).event A.hspStatus F.hspStatus_crcerr
    (rowOf A.hspStatus).map (fun r => r.kind) = some .sq ∧ canonical s = true ∧ A.hspStatus < 2 ^ 32 ∧
    (0x02000001#32).toNat / 16777216 = (s.reg A.hspStatus).toNat / 16777216 ∧
    (0x01000001#32).toNat / 16777216 ≠ (s.reg A.hspStatus).toNat / 16777216 ∧ s.writeOk 5 A.hspStatus 0x02000001 = true := by
  decide +kernel

/-- The example of chapter 2 after R52: the host reads 0x03000001; a frame error sets SEQ to 4; its write of that word
clears nothing, and its write of 0x04000003 both flags. -/
theorem test_clear_race :
    let e (s : State) := s.event A.hspStatus F.hspStatus_crcerr
    let s := e (e (e up))
    let u := (s.event A.hspStatus F.hspStatus_frameerr).clearFlags A.hspStatus 0x03000001
    (s.reg A.hspStatus, u.reg A.hspStatus, (u.clearFlags A.hspStatus 0x04000003).reg A.hspStatus) =
      (0x03000001, 0x04000003, 0x04000000) := by decide +kernel

/-- R58's frames: the CRC of an all-zero NOP is 0x0F, and the OK response with ID_VARIANT has 0x8D. -/
theorem test_host_crc : frameCrc 0 0 0 = 0x0F ∧ frameCrc 0x80 8 0x330 = 0x8D ∧ frameCrc 0x3C 8 0 = 0xBC := by decide +kernel

/-- The lamp room's memories at their first and last bytes and words. -/
theorem witness_LampRoomMemories :
    let s := lab (regs [(1, good 0x80000000), (2, good 0x8003FFFC), (3, good 0xFFFF0000), (4, good 0xFFFFFFFC)])
    let ea (r : Reg) : Int := (s.core.cpu.get r).val.toNat + (0#18).toInt
    (0x80000000 ≤ ea 1 ∧ ea 2 < 0x80040000 ∧ ea 2 % 4 = 0) ∧ (0xFFFF0000 ≤ ea 3 ∧ ea 4 < 0x100000000 ∧ ea 4 % 4 = 0) ∧
    mstatS.get s.core.mstat = 1 ∧ s.readable 5 0x8003FFFC = false ∧ Master.hostSpi ≠ .lampRoom := by decide +kernel

/-- A lock not yet written, and a 64-bit pair with and without a low word staged. -/
theorem witness_HostSpi_locks :
    let s := up
    let t := s.regWritten 4 A.jnlWstampLo 5 false
    s.writeOk 5 A.trpLock 1 = true ∧ s.watched A.trpLock = false ∧ s.writeOk 4 A.jnlWstampLo 5 = true ∧
    t.writeOk 4 A.jnlWstampHi 9 = true ∧ s.watched A.jnlWstampHi = false ∧
    (s.staged.all fun x => x.1 != A.jnlWstampLo + 4294967296 * 4) = true ∧ canonical t = true := by decide +kernel

/-- A frame after another and the first one; an access under way; its address readable and not; the three settings of
ACCESS; frames with a sound CRC and a wrong one. -/
theorem witness_HostSpi :
    let h (q : Option HspAccess) : State := { up with hsp := { up.hsp with first := false, access := q } }
    let a (n : Nat) : State := (h none).setFld A.hspCtrl F.hspCtrl_access n
    (h none).hsp.access = none ∧ (h none).heldReset = false ∧ (h none).hsp.first = false ∧ up.hsp.first = true ∧
    frameCrc 0 0 0 = 0x0F ∧ frameCrc 0x3C 8 0 = 0xBC ∧ (a 1).fld A.hspCtrl F.hspCtrl_access = 1 ∧
    (a 2).fld A.hspCtrl F.hspCtrl_access = 2 ∧ (h (some ⟨false, 8, 0⟩)).readable 5 8 = true ∧
    (h (some ⟨false, 3, 0⟩)).readable 5 3 = false ∧ (h (some ⟨true, 8, 0⟩)).writeOk 5 8 0 = false := by decide +kernel

theorem witness_remoteAccess :
    let s : State := { up with net := { up.net with remote := [⟨3, 5, false, 8, 0⟩] } }
    canonical s = true ∧ s.net.remote = ⟨3, 5, false, 8, 0⟩ :: [] ∧ s.readable 6 8 = true := by decide +kernel

/-! ## The registers' commands -/

/-- A terminal in a mode, in force. -/
def inMode (n m : Nat) (s : State) : State := (s.setFld (A.trmMode n) F.trmMode_mode m).setFld (A.trmState n) F.trmState_modeact m

def cellOf (n : Nat) (g : Cell → Cell) (s : State) : State :=
  { s with field := { s.field with cells := s.field.cells.modify n g } }

/-- A loop terminal with its supply on, an image, and the words the commands write. -/
theorem witness_fieldRegisters :
    let s := ((up.setFld (A.trmMode 5) F.trmMode_mode 4).setFld (A.trmState 5) F.trmState_modeact 4).setFld (A.trmLoop 5)
      F.trmLoop_pwr 1
    let o := inMode 47 2 s
    s.heldReset = false ∧ s.writeOk 4 (A.trmMode 47) 1 = true ∧ o.writeOk 4 (A.trmDo 47) (o.reg (A.trmDo 47)) = true ∧
    o.leader 47 = true ∧ F.trmDo_par.get (o.reg (A.trmDo 47)) = o.fld (A.trmDo 47) F.trmDo_par ∧ s.writeOk 4 (A.excSrc 15) 1 = true ∧
    s.writeOk 4 (A.muxTopt 47) 0 = true ∧ s.writeOk 4 (A.muxRlead 47) 5 = true ∧ s.writeOk 4 A.excCtrl 0x10005 = true ∧
    s.writeOk 4 (A.asyCtrl 7) (F.asyCtrl_selftest.set (s.reg (A.asyCtrl 7)) 1) = true ∧
    s.writeOk 4 (A.asyCtrl 0) (F.asyCtrl_en.set (s.reg (A.asyCtrl 0)) 1) = true ∧
    s.writeOk 4 (A.asyCtrl 0) (F.asyCtrl_en.set (s.reg (A.asyCtrl 0)) 0) = true ∧ s.writeOk 4 (A.hrtMcfg 0) 0x00050500 = true ∧
    s.writeOk 4 (A.hrtMcmd 3) 1 = true ∧ s.writeOk 4 (A.hrtMcmd 3) 2 = true ∧ s.writeOk 4 (A.hrtMcmd 3) 4 = true ∧
    s.writeOk 4 A.seqCtrl 1 = true ∧ s.writeOk 4 A.seqCtrl 2 = true := by decide +kernel

theorem witness_laneRegisters :
    let s : State := { up with image := some image }
    let r := (s.setFld A.tlyState F.tlyState_mode 1).setFld (A.lnState 2) F.lnState_lane 3
    s.writeOk 4 A.tlyCtrl 4 = true ∧ r.writeOk 4 A.tlyCtrl 64 = true ∧ s.writeOk 4 0x00200040 0x40000503 = true ∧
    s.writeOk 4 0x00200040 0x80000003 = true ∧ s.writeOk 4 0x00300014 1 = true ∧ s.writeOk 4 (A.trpCfg 31) 0 = true ∧
    s.writeOk 5 A.mgsHcmd 0x01000001 = true ∧ s.writeOk 5 A.mgsHcmd 0x10000001 = true ∧ s.heldReset = false ∧
    r.heldReset = false := by decide +kernel

/-- A journal that serves, its ports set up; a clear armed in time, late, for another area and not at all. -/
theorem witness_recordRegisters :
    let s := up.setFld A.jnlState F.jnlState_phase 1
    let k := A.jnlWhdr + 4294967296 * 4
    let p := ((s.setFld k F.jnlWhdr_kind 0x30).setFld k F.jnlWhdr_subt 1).setFld (A.jnlWlen + 4294967296 * 4) F.jnlWlen_plen 8
    let f := s.setFld A.jnlFaddr F.jnlFaddr_word (64 * 4096 + 5)
    let e (a : Nat) (t : Stamp) : State := { s with tbc := 100000, evr := { s.evr with armed := some (a, t) } }
    let c := s.setFld (A.evrCursor + 4294967296 * 4) F.evrCursor_auto 1
    s.heldReset = false ∧ s.writeOk 4 A.jnlLook 1 = true ∧ s.writeOk 4 A.jnlLook 2 = true ∧ p.writeOk 4 A.jnlWcmd 1 = true ∧
    p.writeOk 4 A.jnlWcmd 2 = true ∧ p.writeOk 4 A.jnlWcmd 4 = true ∧ f.writeOk 4 A.jnlFcmd 1 = true ∧
    f.writeOk 4 A.jnlFcmd 2 = true ∧ f.writeOk 4 A.jnlFcmd 3 = true ∧ s.writeOk 4 A.evrSwtrig 5 = true ∧
    s.writeOk 4 A.evrClear 0xA5A50003 = true ∧ s.writeOk 4 A.evrClear 0x5A5A0003 = true ∧
    (e 3 0).evr.armed = some (3, 0) ∧ ((e 3 0).tbc - 0).toNat ≤ 100000 ∧ (e 3 0).evr.clearing = none ∧
    100000 < ((e 3 0xFFFFFFFFFFFFFFFF).tbc - 0xFFFFFFFFFFFFFFFF).toNat ∧ s.evr.armed = none ∧ (1 : Nat) ≠ 3 ∧
    s.readable 4 A.evrWend = true ∧ c.fld (A.evrCursor + 4294967296 * 4) F.evrCursor_auto = 1 ∧
    c.fld (A.evrCursor + 4294967296 * 4) F.evrCursor_dir = 0 ∧
    (c.setFld (A.evrCursor + 4294967296 * 4) F.evrCursor_dir 1).fld (A.evrCursor + 4294967296 * 4) F.evrCursor_dir = 1 ∧
    (s.setFld (A.evrCursor + 4294967296 * 4) F.evrCursor_auto 0).fld (A.evrCursor + 4294967296 * 4) F.evrCursor_auto = 0 := by
  decide +kernel

/-- The oscillator runs and stands; the battery is at its limit and below. -/
theorem witness_clockRegisters :
    let v (n : Nat) := up.setFld A.rtcVbat F.rtcVbat_mv n
    up.shadowOf 4 = none ∧ (nextOf (exec (.rtcShadowFreeze .lampRoom .sec) up)).map (fun t => (t.shadowOf 4).isSome) = some true ∧
    up.readable 4 A.rtcSubsec = true ∧ up.writeOk 4 A.rtcDate 31 = true ∧ up.writeOk 4 A.rtcYear 99 = true ∧
    up.writeOk 4 A.rtcFclr 1 = true ∧ (up.setFld A.rtcFlags F.rtcFlags_oscok 1).oscOk = true ∧
    (up.setFld A.rtcFlags F.rtcFlags_oscok 0).oscOk = false ∧ 2300 ≤ (v 2300).fld A.rtcVbat F.rtcVbat_mv ∧
    (v 2299).fld A.rtcVbat F.rtcVbat_mv < 2300 := by decide +kernel

theorem witness_panelNetworkLampRegisters :
    let p := (up.setFld A.pnlWstg F.pnlWstg_wver 3).setFld A.pnlWver F.pnlWver_wver 2
    let bad := p.setReg (A.pnlWave 0 0) 0x0000407F
    p.wavesOk = true ∧ bad.wavesOk = false ∧ p.writeOk 4 A.pnlWcmd 1 = true ∧ p.writeOk 4 A.pnlCtrl 1 = true ∧
    up.writeOk 4 (A.netPcfg 1) (F.netPcfg_en.set (up.reg (A.netPcfg 1)) 0) = true ∧ up.writeOk 4 A.netMdio 0x00010000 = true ∧
    up.writeOk 4 (A.netAcfg 63) 0x88000005 = true ∧ up.writeOk 4 A.mgsCtrl (F.mgsCtrl_ready.set (up.reg A.mgsCtrl) 1) = true ∧
    up.writeOk 4 A.mgsWdog 0x6C72 = true ∧ up.writeOk 4 A.mgsWdog 5 = true ∧ (5 : Word) ≠ 0x00006C72 ∧
    up.writeOk 4 A.mgsWqpop 1 = true ∧ up.writeOk 4 A.mgsCfgjCmd 0x80000038 = true := by decide +kernel

theorem witness_updateRegisters :
    let x (a : Option Nat) : Transfer := ⟨1, 0, 4, a, 5, 2048, 0, 3, 2⟩
    let t : State := { up with upd := { up.upd with xfer := some (x none) } }
    let c : State := { up with upd := { up.upd with act := some ⟨2, 2, false, 7, false, false, false⟩ } }
    let d := (up.event A.fltStatus F.fltStatus_degrade).setFld A.fltState F.fltState_degraded 1
    (up.setReg A.updLen 2).openCause 1 2 = some 2 ∧ up.writeOk 4 A.updCmd 0x101 = true ∧ (up.setReg A.updLen 4096).openCause 1 4096 = none ∧
    t.upd.xfer = some (x none) ∧ (x none).assoc = none ∧ t.writeOk 4 A.updData 5 = true ∧ t.writeOk 4 A.updCmd 0x102 = true ∧
    t.writeOk 4 A.updCmd 0x103 = true ∧ up.writeOk 4 A.updCmd 0x104 = true ∧ up.writeOk 4 A.updCmd 0x205 = true ∧
    up.writeOk 4 A.updCmd 0x206 = true ∧ up.upd.act = none ∧ c.upd.act = some ⟨2, 2, false, 7, false, false, false⟩ ∧
    c.writeOk 4 A.updCmd 0x206 = true ∧ up.writeOk 4 A.updKeycmd 0xF05E = true ∧ up.writeOk 4 A.fltSafe 0x5AFE0000 = true ∧
    up.writeOk 4 A.fltCtrl 1 = true ∧ up.writeOk 4 A.fltCtrl 2 = true ∧ up.writeOk 4 A.fltCtrl 4 = true ∧
    d.writeOk 4 A.fltStatus 0x01000002 = true ∧
    (0x01000002#32).toNat / 16777216 = (d.reg A.fltStatus).toNat / 16777216 ∧
    F.fltStatus_degrade.get (0x01000002#32) = 1 ∧ (0x02000002#32).toNat / 16777216 ≠ (d.reg A.fltStatus).toNat / 16777216 ∧
    up.writeOk 4 A.supRst 0x52530000 = true := by decide +kernel

/-! ## The field side -/

/-- A group at and below its threshold, with and without a supply shown; terminals free of faults and with each. -/
theorem witness_TerminalProtection :
    let g (n : Nat) := up.setFld (A.trmGstate 40) F.trmGstate_fldok n
    let f (x : Fld) := up.setFld (A.trmState 47) x 1
    (g 1).fld (A.trmGstate 40) F.trmGstate_fldok = 1 ∧ (g 0).fld (A.trmGstate 40) F.trmGstate_fldok = 0 ∧
    12000 + 500 * up.fld (A.trmGcfg 40) F.trmGcfg_uv = 16000 ∧ (16000#16).toNat = 16000 ∧ 14999 + 1000 < 16000 ∧
    up.fld (A.trmState 47) F.trmState_miswirenow ≠ 1 ∧ (f F.trmState_miswirenow).fld (A.trmState 47) F.trmState_miswirenow = 1 ∧
    up.fld (A.trmState 47) F.trmState_overtempnow ≠ 1 ∧
    (f F.trmState_overtempnow).fld (A.trmState 47) F.trmState_overtempnow = 1 := by decide +kernel

/-- A digital input with no episode, one open, its level not yet taken; the level as shown and otherwise. -/
theorem witness_DigitalInputs :
    let s := inMode 47 1 up
    let e := cellOf 47 (fun c => { c with episode := some ⟨5, 6⟩ }) s
    let i := cellOf 47 (fun c => { c with initial := true }) s
    let l := s.setFld (A.trmState 47) F.trmState_level 1
    canonical s = true ∧ s.field.cells.length = 48 ∧ s.inMode 47 1 = true ∧ s.fld (A.trmState 47) F.trmState_level ≠ 1 ∧
    (s.cell 47).initial = false ∧ (s.cell 47).episode = none ∧ s.fld (A.trmState 47) F.trmState_di ≠ 1 ∧
    (i.cell 47).initial = true ∧ (e.cell 47).episode = some ⟨5, 6⟩ ∧
    e.fld (A.trmState 47) F.trmState_level = e.fld (A.trmState 47) F.trmState_di ∧
    l.fld (A.trmState 47) F.trmState_level ≠ l.fld (A.trmState 47) F.trmState_di := by decide +kernel

/-- Both edges selected, and neither; the FIFO with room for its last entry, and full. -/
theorem witness_EdgeRecords :
    let s (n : Nat) := ((up.setFld (A.trmDi 47) F.trmDi_edge 3).setFld A.tsuCtrl F.tsuCtrl_en 1).setFld A.tsuLevel F.tsuLevel_level n
    (s 255).fld (A.trmDi 47) F.trmDi_edge = 3 ∧ canonical (s 255) = true ∧ (s 255).fld A.tsuCtrl F.tsuCtrl_en = 1 ∧
    (s 255).fld A.tsuLevel F.tsuLevel_level < 256 ∧ 256 ≤ (s 256).fld A.tsuLevel F.tsuLevel_level ∧
    up.fld (A.trmDi 47) F.trmDi_edge % 2 ≠ 1 ∧ up.fld A.tsuCtrl F.tsuCtrl_en = 0 := by decide +kernel

/-- A mode in transition, an output switched on, latched off by an overload, a loop switched on and one that retries. -/
theorem witness_SwitchEvents :
    let o := inMode 5 2 up
    let on := (o.setFld (A.trmState 5) F.trmState_sw 1).setFld (A.trmDo 5) F.trmDo_olon 1
    let off := (((o.setFld (A.trmState 5) F.trmState_offlatched 1).setFld (A.trmState 5) F.trmState_cmd 1).setFld (A.trmDo 5)
      F.trmDo_retry 1).setFld (A.trmDo 5) F.trmDo_oloff 1
    let lp := inMode 5 4 up
    let rt := cellOf 5 (fun c => { c with retrying := true }) (lp.setFld (A.trmLoop 5) F.trmLoop_pwr 1)
    let b := o.setFld (A.trmState 5) F.trmState_busy 1
    b.fld (A.trmState 5) F.trmState_busy = 1 ∧ b.fld (A.trmState 5) F.trmState_sw ≠ 1 ∧
    b.fld (A.trmState 5) F.trmState_demag ≠ 1 ∧ b.discharging 5 = false ∧ o.leader 5 = true ∧
    on.fld (A.trmState 5) F.trmState_sw = 1 ∧ on.driver 5 = some 5 ∧ on.fld (A.trmDo 5) F.trmDo_olon = 1 ∧
    off.driver 5 = some 5 ∧ off.fld (A.trmState 5) F.trmState_offlatched = 1 ∧ off.fld (A.trmState 5) F.trmState_cmd = 1 ∧
    off.fld (A.trmDo 5) F.trmDo_retry ≠ 0 ∧ off.heldOpen 5 = false ∧ off.fld (A.trmDo 5) F.trmDo_oloff = 1 ∧
    (lp.setFld (A.trmState 5) F.trmState_loopsw 1).fld (A.trmState 5) F.trmState_loopsw = 1 ∧ (rt.cell 5).retrying = true ∧
    rt.loopOrdered 5 = true ∧ rt.miswired 5 = false := by decide +kernel

/-- A stage of a converter put into a state, and a converter changed. -/
def stageAt (c st : Nat) (x : StageSt) (s : State) : State := s.modField fun f => { f with
  convs := f.convs.modify c fun v => { v with stages := v.stages.set st x } }

def convAt (c : Nat) (g : ConvSt → ConvSt) (s : State) : State := s.modField fun f => { f with convs := f.convs.modify c g }

/-- A stage with point 3. -/
def point (p : StagePhase) : StageSt := { StageSt.reset with slot := some 3, phase := p }

/-- Point 3 between terminals 5 and 6: a voltage; a pair on sources 0 and 1; a current of source 0. -/
def described (kind form srca srcb : Nat) (s : State) : State :=
  (((s.setReg (A.saMode 3) (F.sdMode_form.set (F.sdMode_kind.set (F.sdMode_en.set (0#32) 1) kind) form)).setReg (A.saTerm 3)
    (F.sdTerm_fsel.set (F.sdTerm_rsel.set (F.sdTerm_nsel.set (F.sdTerm_psel.set (0#32) 5) 6)
      (if kind = 1 then 6 else 0x3F)) (if kind = 1 then 5 else 0x3F))).setReg
    (A.saMode 3 + 20) (F.sdExc_code.set (F.sdExc_srcb.set (F.sdExc_srca.set (0#32) srca) srcb) 20)).setReg
    (A.saMode 3 + 24) (F.sdTime_disch.set (F.sdTime_steep.set (0#32) 5) 5)

/-- Converter 0 scans in mode 1 and the terminals of point 3 measure. -/
def scanning : State :=
  ((inMode 6 6 (inMode 5 6 up)).setFld (A.asyState 0) F.asyState_state 1).setFld (A.asyCtrl 0) F.asyCtrl_en 1

theorem witness_Routing :
    let b := inMode 6 6 (inMode 5 6 up)
    let d := stageAt 0 0 (point .discharge)
    let ok := d (described 0 0 31 31 b)
    let taken := (d (described 1 0 0 31 b)).setFld (A.excState 0) F.excState_owner 1
    (ok.stage 0 0).phase = .discharge ∧ (ok.stage 0 0).slot = some 3 ∧ ok.pointMiswired (ok.desc 3) = false ∧
    ok.modesOk (ok.desc 3) = true ∧ ok.sourcesOurs (ok.desc 3) = true ∧ ok.sourcesFree 0 (ok.desc 3) = true ∧
    taken.sourcesOurs (taken.desc 3) = true ∧ taken.modesOk (taken.desc 3) = true ∧ taken.sourcesFree 0 (taken.desc 3) = false ∧
    (d (described 0 0 31 31 up)).modesOk ((d (described 0 0 31 31 up)).desc 3) = false ∧
    ((stageAt 0 0 { StageSt.reset with phase := .discharge } b).stage 0 0).slot = none ∧
    ((stageAt 0 0 (point .openTest) b).stage 0 0).phase = .openTest ∧ ((stageAt 0 0 (point .steep) b).stage 0 0).phase = .steep ∧
    ((b.setReg A.muxRetHi 0x8000).reg A.muxRetHi).getLsbD (47 - 32) = true ∧ (b.reg A.muxRetHi).getLsbD (47 - 32) = false ∧
    (b.setFld (A.excState 15) F.excState_on 1).fld (A.excState 15) F.excState_on = 1 ∧
    b.fld (A.excState 15) F.excState_on ≠ 1 := by decide +kernel

/-- Sources due for a calibration, none in calibration, one in it; errors of 1 % and just beyond. -/
theorem witness_sourceCalibration :
    let g (h : FieldSt → FieldSt) := up.modField h
    let due := g fun f => { f with calLeft := [15] }
    let busy := g fun f => { f with calBusy := some 15 }
    due.field.calBusy = none ∧ due.shed = false ∧ due.calDue = some 15 ∧ due.owner 15 = 0xF ∧ due.sourceMode 15 = 0 ∧
    due.calSuspended 7 = false ∧ busy.field.calBusy = some 15 ∧ (10000#16).toInt.natAbs ≤ 10000 ∧
    10000 < (10001#16).toInt.natAbs ∧ 10000 < (0xD8EF#16).toInt.natAbs := by decide +kernel

theorem witness_Windows :
    let win : StageSt := { point .window with opened := 5, samples := [⟨1, 2, 3, 4⟩] }
    let v := stageAt 0 0 win (described 0 0 31 31 scanning)
    let p := stageAt 0 0 win (described 1 2 0 1 scanning)
    let r := stageAt 0 0 (point .ready) (described 1 0 0 31 scanning)
    let gone := r.setFld (A.excSrc 0) F.excSrc_mode 1
    v.scanned 0 = true ∧ (v.stage 0 0).phase = .window ∧ (v.desc 3).pair = false ∧ (p.desc 3).pair = true ∧
    (p.stage 0 0).second = false ∧ (r.stage 0 0).phase = .ready ∧ (r.stage 0 1).phase ≠ .window ∧
    r.sourcesOurs (r.desc 3) = true ∧ gone.sourcesOurs (gone.desc 3) = false := by decide +kernel

theorem witness_checksAndDedicated :
    let raw (s : State) (sec ot : Bool) : RawResult :=
      ⟨3, s.desc 3, 0, sec, 1, 77, false, false, true, false, ot, 9, none, [⟨1, 2, 3, 4⟩]⟩
    let v := described 0 0 31 31 scanning
    let p := described 1 2 0 1 scanning
    let chk (r : RawResult) (s : State) := convAt 0 (fun v => { v with checks := [r] }) s
    let ded := ((scanning.setFld (A.asyState 0) F.asyState_state 2).setReg (A.saMode 0) (v.reg (A.saMode 3))).setReg (A.saTerm 0)
      (v.reg (A.saTerm 3))
    ((chk (raw v false false) v).conv 0).checks.find? (fun r => r.stage == 0) = some (raw v false false) ∧
    (raw v false false).desc.pair = false ∧ (raw p false false).desc.pair = true ∧ (v.conv 0).checks = [] ∧
    p.rawStatus (p.desc 3) (raw p false true) = stOpen ∧ p.rawStatus (p.desc 3) (raw p false false) ≠ stOpen ∧
    p.rawStatus (p.desc 3) (raw p false false) ≠ stCmFault ∧ ded.dedicated 0 = true ∧ (ded.desc (ded.dedicSlot 0)).en = true ∧
    ded.dedicAllowed 0 = true ∧ ded.dedicReady 0 = false ∧
    (stageAt 0 1 (point .ready) (stageAt 0 0 (point .window) ded)).dedicReady 0 = true ∧
    (inMode 5 0 ded).dedicAllowed 0 = false := by
  decide +kernel

/-- A converter not blanked and blanked; both supervision checks beyond 500 ppm, one at it; a stage free, one out of two. -/
theorem witness_Converters :
    let alive := scanning.setReg A.svcState 0xFFFFFFFF
    let none_ := scanning.setReg A.svcState 0
    let out := scanning.setFld (A.asyState 0) F.asyState_stgbout 1
    (scanning.conv 0).blankFrom = none ∧ 2 ≤ alive.svcAlive ∧ none_.svcAlive = 0 ∧ 500 < (0xFE0B#16).toInt.natAbs ∧
    ¬500 < (500#16).toInt.natAbs ∧ scanning.stageOut 0 1 = false ∧ out.stageOut 0 1 = true ∧ (scanning.stage 0 0).free = true ∧
    scanning.scanned 0 = true ∧ scanning.carrying 0 = false ∧
    ((convAt 0 (fun v => { v with selfTesting := true }) scanning).conv 0).selfTesting = true ∧
    (alive.fld A.svcState ⟨F.svcState_alive.lo + 3, F.svcState_alive.lo + 3⟩ = 1) ∧
    (none_.fld A.svcState ⟨F.svcState_alive.lo + 3, F.svcState_alive.lo + 3⟩ = 0) ∧ canonical alive = true ∧ up.terms ≤ 48 ∧
    0 < up.terms ∧ up.shed = false ∧ (up.setFld A.supState F.supState_phase 3).shed = true := by decide +kernel

/-- A modem in each state, all free and one not; a loop whose instrument the node polls; requests of up to 128 bytes. -/
theorem witness_ModemEvents :
    let m (n : Nat) := up.setFld (A.hrtMstate 3) F.hrtMstate_state n
    let hl := (((inMode 5 4 up).setFld (A.trmLoop 5) F.trmLoop_pwr 1).setFld (A.hrtLcfg 5) F.hrtLcfg_hpoll 1).setFld (A.hrtLcfg 5)
      F.hrtLcfg_sup 5
    (m 1).modem 3 = 1 ∧ (m 2).modem 3 = 2 ∧ (m 3).modem 3 = 3 ∧ ((m 2).setFld (A.hrtMstate 3) F.hrtMstate_cd 1).modem 3 = 2 ∧
    up.modemFree 3 = true ∧ (∀ k < 4, up.modemFree k = true) ∧ (m 2).modemFree 3 = false ∧ hl.field.owner = false ∧
    hl.fld (A.hrtLcfg 5) F.hrtLcfg_hpoll ≠ 0 ∧ hl.fld (A.hrtLcfg 5) F.hrtLcfg_sup < 48 ∧ hl.modemMay 3 5 = true ∧
    (List.replicate 128 (1 : Byte)).length ≤ 128 ∧
    (hl.setFld (A.hrtLstate 5) F.hrtLstate_warmnow 1).fld (A.hrtLstate 5) F.hrtLstate_warmnow = 1 := by decide +kernel

/-- No check under way, one that passes, one that fails; a set that waits; a converter down with each plan; one enabling;
a converter between its cycles, one in a cycle with a point to go, one with none, and one not scanning. -/
theorem witness_Sequencer :
    let g (h : FieldSt → FieldSt) (s : State) := s.modField h
    let w := (described 0 0 31 31 scanning).reg (A.saMode 3)
    let ok := g (fun f => { f with checking := some [] }) up
    let bad := g (fun f => { f with checking := some [(A.sdMode 3, w)] }) up
    let down := up.setFld (A.asyState 0) F.asyState_state 3
    let stand := g (fun f => { f with plans := .standIn 1 [(0, 1)] :: f.plans.tail }) down
    let move := g (fun f => { f with plans := .moved [(3, 1)] :: f.plans.tail }) down
    let enab := convAt 0 (fun v => { v with enabling := true }) scanning
    let cyc := g (fun f => { f with calPending := false }) scanning
    let run := convAt 0 (fun v => { v with running := true, todo := [3] }) (described 1 0 0 31 cyc)
    let used := (described 1 0 0 31 run).setFld (A.excState 0) F.excState_owner 2
    let idle (s : State) : State :=
      let u := s.setFld A.seqCommit F.seqCommit_busy 0
      { u with field := { u.field with checking := none } }
    up.field.checking = none ∧ ok.field.checking = some [] ∧ (idle ok).commitCause (scanSet []) = none ∧
    (idle bad).commitCause (scanSet [(A.sdMode 3, w)]) ≠ none ∧ up.field.waiting = none ∧
    (g (fun f => { f with waiting := some [] }) up).field.waiting = some [] ∧ down.converterDown 0 = true ∧
    down.field.carried = [] ∧ (stand.field.plans.getD 0 .none) = .standIn 1 [(0, 1)] ∧
    (stand.field.plans.getD 0 .none).missing = false ∧ (move.field.plans.getD 0 .none).missing = false ∧
    (enab.conv 0).enabling = true ∧ enab.fld (A.asyState 0) F.asyState_state ≠ 3 ∧ enab.field.carried = [] ∧
    cyc.scanned 0 = true ∧ cyc.field.calPending = false ∧ cyc.shed = false ∧ (cyc.conv 0).running = false ∧
    (run.conv 0).running = true ∧ run.cycleEnded 0 = false ∧
    (convAt 0 (fun v => { v with todo := [] }) run).cycleEnded 0 = true ∧
    ((run.conv 0).todo.find? fun p => !run.loopWaits p) = some 3 ∧ run.nextStage 0 = some 0 ∧
    (run.desc 3).sourceIds.all run.sourceReady = true ∧ (used.desc 3).sourceIds.all used.sourceReady = false ∧
    up.scanned 0 = false := by decide +kernel

/-- A request for a terminal's driver and one deferred; the stagger under way, over and not begun. -/
theorem witness_OutputEvents :
    let s := up.modField fun f => { f with permits := [⟨20, false, 3, none, false⟩, ⟨17, true, 3, some 2, false⟩] }
    let b := up.modField fun f => { f with staggerBegan := true }
    (s.field.permits.find? fun q => q.deferred.isSome && !q.long) = some ⟨17, true, 3, some 2, false⟩ ∧
    (up.field.permits.find? fun q => q.deferred.isSome && !q.long) = none ∧ b.field.staggerBegan = true ∧
    b.field.staggerDone = false ∧ up.field.staggerBegan = false := by decide +kernel

/-! ## The tally -/

/-- A record of ring 104 and one of ring 113. -/
def edge : InRec := ⟨104, 0x10, 5, ⟨1, .good⟩, 0, 500, [], 5, false, false⟩
def request : InRec := ⟨113, 0x90, 1, ⟨1, .good⟩, 1, 700, [7], 11, false, false⟩

/-- Frame 9 of a running node in a phase. -/
def inFrame (ph : FramePhase) (s : State) : State :=
  { s with frame := { s.frame with running := true, k := 9, f := 1000, fPrev := 5, phase := ph } }

theorem witness_InputSets :
    let s := (inFrame .seam up).modTly fun t => { t with crossing := [edge, request], store := [request, edge] }
    let full := s.modTly fun t => { t with store := [{ edge with payload := List.replicate 32768 0 }] }
    up.tly.crossing = [] ∧ s.tly.crossing = edge :: [request] ∧ entriesOf s.tly.store + edge.entries ≤ 32768 ∧
    32768 < entriesOf full.tly.store + edge.entries ∧ s.frame.running = true ∧ s.frame.phase = .seam ∧
    up.frame.running = false ∧ (inFrame .cut s).frame.phase ≠ .seam := by decide +kernel

/-- R26: a later stamp comes after; of equal stamps the lower island comes first. -/
theorem test_set_order : recAfter request edge = true ∧ recAfter edge request = false ∧
    recAfter edge { edge with island := 4 } = true ∧ recAfter { edge with island := 4 } edge = false := by decide +kernel

/-- A frame released, whose next seam is one period later; one not released; the first frame, with and without F0. -/
theorem witness_Frames :
    let s := inFrame .released up
    let z : State := { up with frame := { up.frame with f0 := some 3000 } }
    let c := inFrame .cut up
    s.frame.running = true ∧ s.nextSeam = some (10, 1000 + BitVec.ofNat 64 s.frame.period, 1000) ∧ s.heldReset = false ∧
    s.frame.phase = .released ∧ z.frame.running = false ∧ z.frame.f0 = some 3000 ∧
    z.nextSeam = some (0, 3000, BitVec.ofNat 64 (z.pair A.tmbStartLo)) ∧ up.frame.f0 = none ∧ c.frame.phase ≠ .released ∧
    c.frame.phase = .cut ∧ c.mgs.holding = true ∧ c.frame.held = false ∧
    ({ c with mgs := { c.mgs with holding := false } } : State).mgs.holding = false := by decide +kernel

/-- Heartbeats of a sound lane, of one drifted by 2 % and one just within; of one that counted no cycles; a repair that
copies; a transaction to hand on. -/
theorem witness_LaneEvents :
    let b (n : Nat) := up.modTly fun t => { t with sent := [none, none, some ⟨9, n, 1, 2, 3⟩] }
    let r := up.modTly fun t => { t with repair := some ⟨2, 0, true, some 9, false⟩ }
    let off (c n : Nat) : Int := c - 2 * n
    (b 20000).tly.sent.getD 2 none = some ⟨9, 20000, 1, 2, 3⟩ ∧ 25 * (off 20800 10000).natAbs ≤ 20000 ∧
    25 * (off 20400 10000).natAbs ≤ 10000 ∧ 10000 < 25 * (off 20401 10000).natAbs ∧ up.tly.sent.getD 2 none = none ∧
    (b 19999).tly.sent.getD 2 none = some ⟨9, 19999, 1, 2, 3⟩ ∧ r.tly.repair = some ⟨2, 0, true, some 9, false⟩ ∧
    up.tly.repair = none ∧ up.nextHandOn = none ∧
    (up.modTly fun t => { t with handOn := [⟨⟨0, 5, .output 3 true .good⟩, true⟩] }).nextHandOn =
      some ⟨⟨0, 5, .output 3 true .good⟩, true⟩ := by decide +kernel

/-! ## The journal and the recorder -/

/-- A journal that serves, all its segments open to it, and a group of one record of 12 bytes offered to it. -/
def journal : State :=
  ((List.range 64).foldl (fun s k => s.setFld (A.jnlSeg k) F.jnlSeg_state 1) up).setFld A.jnlState F.jnlState_phase 1

def group : JGroup := ⟨4, .master 4, [⟨0x10, 1, 2, 3, 0, 77, [1, 2, 3]⟩]⟩

theorem witness_Journal :
    let s := journal.modJnl fun j => { j with offered := [group] }
    let big : JGroup := { group with recs := List.replicate 33 ⟨0x10, 1, 2, 3, 0, 77, [1, 2, 3]⟩ }
    let shut := s.setFld A.jnlState F.jnlState_phase 3
    let full : JGroup := { group with recs := List.replicate 29 ⟨0x10, 1, 2, 3, 0, 77, List.replicate 284 0⟩ }
    s.jnl.offered = group :: [] ∧ s.jnlPhase ≠ 0 ∧ group.recs.length ≤ 32 ∧ group.len ≤ 4096 ∧ 32 < big.recs.length ∧
    s.identsWith group ≤ 16384 ∧ s.opensFor group.len ≤ s.openable ∧ s.caddyFill + group.len ≤ 32768 ∧ shut.jnlPhase = 3 ∧
    32768 < (s.modJnl fun j => { j with caddy := [(1, full)] }).caddyFill + group.len ∧ up.jnlPhase = 0 ∧
    s.jnl.caddy = [] ∧ (s.modJnl fun j => { j with caddy := [(1, group)] }).jnl.caddy = (1, group) :: [] ∧
    s.placeGroup (wordUp group.len) 1 ≠ none := by decide +kernel

theorem witness_journalUpkeep :
    let c (st : CompStep) (ks : List Nat) := journal.modComp fun x => { x with step := st, victims := ks }
    let raw (n w : Nat) (r : Bool) := journal.modJnl fun j => { j with raw := some ⟨n, w, 77, r⟩ }
    (journal.jnlPhase = 1) ∧ journal.jnl.comp.step = .idle ∧ journal.victims = [] ∧ (c .copying [0]).jnl.comp.step = .copying ∧
    (c .copying [0]).planCopies (c .copying [0]).jnlSeq ((c .copying [0]).toCopy [0]) none ≠ none ∧
    (c .erasing [63]).jnl.comp.victims = 63 :: [] ∧ (c .erasing [63]).jnl.comp.step = .erasing ∧
    (c .erasing [63]).jnlPhase ≠ 2 ∧ journal.jnl.retry = false ∧ journal.jnl.comp.victims = [] ∧ journal.jnl.raw = none ∧
    (raw 1 5 false).jnl.raw = some ⟨1, 5, 77, false⟩ ∧ (raw 2 5 false).flashWord 5 = erasedWord ∧
    ((raw 2 5 false).setFlash 5 9).flashWord 5 ≠ erasedWord ∧ (raw 3 262144 true).jnl.raw = some ⟨3, 262144, 77, true⟩ ∧
    up.jnlPhase = 0 := by decide +kernel

theorem witness_RecorderEvents :
    let e : EvrEntry := ⟨5, 7, 0, 7, 1, [], 0, 0, 0, false, false, false, 0, 0⟩
    let q (n : Nat) := (up.setFld A.evrState F.evrState_phase n).modEvr fun v => { v with queue := [e] }
    up.evr.queue = [] ∧ (q 1).evr.queue = e :: [] ∧ (q 1).fld A.evrState F.evrState_phase = 1 ∧
    (q 3).fld A.evrState F.evrState_phase = 3 ∧ up.evr.clearing = none ∧
    (up.modEvr fun v => { v with clearing := some (3, 5) }).evr.clearing = some (3, 5) ∧ up.evr.scanned = false ∧
    (up.modEvr fun v => { v with scanned := true }).evr.scanned = true := by decide +kernel

/-! ## The clock and the panel -/

theorem witness_RealTimeClock :
    let l (fs : List (Nat × Nat)) := up.modRtc fun r => { r with loads := [⟨fs, 24⟩] }
    let leap : List (Nat × Nat) := [(1, 5), (2, 2), (3, 3), (4, 29), (5, 2)]
    let run := up.setFld A.rtcFlags F.rtcFlags_oscok 1
    let stop := up.setFld A.rtcFlags F.rtcFlags_oscok 0
    run.fld A.rtcFlags F.rtcFlags_oscok = 1 ∧ stop.fld A.rtcFlags F.rtcFlags_oscok ≠ 1 ∧ (2299#12).toNat < 2300 ∧
    2300 ≤ (2300#12).toNat ∧ up.shadowOf 4 = none ∧
    ((nextOf (exec (.rtcShadowFreeze .lampRoom .sec) up)).map fun t => (t.shadowOf 4).isSome) = some true ∧
    up.rtc.loads = [] ∧ (l leap).rtc.loads = ⟨leap, 24⟩ :: [] ∧ leap.length = 5 ∧ canonical up = true := by decide +kernel

/-- R454: the end of a century, of February in a common and a leap year, and of a month. -/
theorem test_calendar :
    (⟨0, 59, 59, 23, 31, 12, 99⟩ : RtcTime).next = ⟨0, 0, 0, 0, 1, 1, 0⟩ ∧
    (⟨0, 59, 59, 23, 28, 2, 24⟩ : RtcTime).next = ⟨0, 0, 0, 0, 29, 2, 24⟩ ∧
    (⟨0, 59, 59, 23, 28, 2, 23⟩ : RtcTime).next = ⟨0, 0, 0, 0, 1, 3, 23⟩ ∧
    (⟨0, 59, 59, 23, 30, 4, 23⟩ : RtcTime).next = ⟨0, 0, 0, 0, 1, 5, 23⟩ := by decide +kernel

/-- The phases of the panel in which each event acts; the sensor sound and out; a panel that stops. -/
theorem witness_PanelEvents :
    let p (n : Nat) := up.setPhase n
    let tick (s : State) : State := (s.modPanel fun q => { q with vp := 15000, vn := 15000, tickAt := s.tbc }).takeTargets.1
    let stop := (p 7).modPanel fun q => { q with stopping := true }
    (tick (p 1)).panelPhase = 1 ∧ (tick (p 7)).panelPhase = 7 ∧ (p 7).pnl.stopping = false ∧ stop.pnl.stopping = true ∧
    (tick (p 0)).panelPhase = 0 ∧ (tick (p 4)).panelPhase = 4 ∧ up.pnl.tsFault = false ∧
    (up.modPanel fun q => { q with tsFault := true }).pnl.tsFault = true ∧
    (up.setFld A.pnlCtrl F.pnlCtrl_reasserten 1).fld A.pnlCtrl F.pnlCtrl_reasserten = 1 ∧
    (up.setFld A.pnlCtrl F.pnlCtrl_reasserten 0).fld A.pnlCtrl F.pnlCtrl_reasserten ≠ 1 ∧ (p 4).panelUp = true ∧
    (p 0).panelUp = false ∧ (p 1).panelPhase = 1 ∧ (p 6).panelPhase = 6 ∧ (p 6).anyRun = false := by decide +kernel

/-! ## The network -/

/-- Association 63 UP at version 3, with an element of a TYPE received. -/
def received (t : Nat) (body : List Byte) : State :=
  let s := (((up.setFld A.netCtrl F.netCtrl_en 1).setFld (A.netAcfg 63) F.netAcfg_en 1).setFld (A.netAstate 63)
    F.netAstate_state 2).setFld (A.netAstate 63) F.netAstate_ver 3
  { s with net := { s.net with rx := [⟨63, 500, false, 7, t, 5, body⟩] } }

def taken? (s : State) : Bool :=
  match s.net.rx with
  | [] => false
  | e :: _ => ({ s with net := { s.net with rx := s.net.rx.erase e } } : State).elemTaken e 3

/-- Elements of every TYPE in form, one of them too short, and one of an association that is not up. -/
theorem witness_ReceivedElements :
    let z (n : Nat) : List Byte := List.replicate n 0
    let x (a : Option Nat) (ph : Nat) : State :=
      { up with upd := { up.upd with xfer := some ⟨1, 0, 4, a, 5, 2048, 0, 3, ph⟩ } }
    taken? (received 0x10 (z 16)) = true ∧ taken? (received 0x12 (z 4)) = true ∧ taken? (received 0x15 (z 4)) = true ∧
    taken? (received 0x16 (1 :: z 19)) = true ∧ taken? (received 0x17 (z 4)) = true ∧ taken? (received 0x30 (z 4)) = true ∧
    taken? (received 0x31 (z 8)) = true ∧ taken? (received 0x40 (z 8)) = true ∧ taken? (received 0x41 (z 772)) = true ∧
    taken? (received 0x43 (z 4)) = true ∧ taken? (received 0x10 (z 15)) = false ∧ (received 1 (z 8)).assocOn 63 = true ∧
    up.assocOn 63 = false ∧ up.upd.xfer = none ∧ (x none 1).upd.xfer = some ⟨1, 0, 4, none, 5, 2048, 0, 3, 1⟩ ∧
    (x (some 63) 3).upd.xfer = some ⟨1, 0, 4, some 63, 5, 2048, 0, 3, 3⟩ := by decide +kernel

theorem witness_NetworkTimeAndPorts :
    let d : PtpData := ⟨128, 6, 0x20, 0x1000, 128, 5, 1⟩
    let m (fr : Bool) (n : Nat) := (up.setFld A.netPtpstate F.netPtpstate_state n).modNet
      fun x => { x with master := some d, fresh := fr }
    let k := (m false 2).setFld A.netPtpstate F.netPtpstate_utcv 1
    let c := ((up.setFld (A.netCcfg 1) F.netCcfg_en 1).setFld A.netNodeid F.netNodeid_canaddr 9).setFld A.netCtrl F.netCtrl_en 1
    let off := ((c.setFld (A.netCstate 1) F.netCstate_state 2).setFld (A.netCcfg 1) F.netCcfg_auto 1)
    up.choosesMaster d = true ∧ (m false 2).choosesMaster { d with prio1 := 200, ident := 6 } = false ∧ up.net.master = none ∧
    (m true 1).net.master = some d ∧ (m true 1).net.fresh = true ∧ (m false 2).ptpState = 2 ∧ (m false 1).ptpState = 1 ∧
    (m false 3).ptpState = 3 ∧ ((k.setFld A.netPtpstate F.netPtpstate_valid 1).utcMs k.tbc).isSome = true ∧ k.gateOpen = true ∧ c.netOn = true ∧ up.netOn = false ∧
    (up.setFld (A.netPcfg 1) F.netPcfg_en 1).fld (A.netPcfg 1) F.netPcfg_en = 1 ∧
    (up.setFld (A.netPcfg 1) F.netPcfg_en 0).fld (A.netPcfg 1) F.netPcfg_en ≠ 1 ∧ up.fld (A.netPstate 1) F.netPstate_lost ≠ 1 ∧
    (up.setFld (A.netPstate 1) F.netPstate_lost 1).fld (A.netPstate 1) F.netPstate_lost = 1 ∧ c.canRuns 1 = true ∧
    up.canRuns 1 = false ∧ (0x000903#29).toNat / 256 % 256 = c.fld A.netNodeid F.netNodeid_canaddr ∧
    (0x000903#29).toNat % 256 ≠ 0 ∧ (0x000903#29).toNat / 2 ^ 17 % 4 = 0 ∧ (0x020903#29).toNat / 2 ^ 17 % 4 ≠ 0 ∧
    off.fld (A.netCcfg 1) F.netCcfg_auto = 1 ∧ off.fld (A.netCstate 1) F.netCstate_state = 2 ∧
    c.fld (A.netCstate 1) F.netCstate_state ≠ 2 := by decide +kernel

/-! ## The lamp room, images, faults and the supply -/

theorem witness_LampRoomAndActivation :
    let g (h : MgsSt → MgsSt) (s : State) : State := { s with mgs := h s.mgs }
    let a (k st : Nat) (p : Bool) : State :=
      { up with upd := { up.upd with act := some ⟨k, 0, false, st, p, false, false⟩ }, nextImage := some image }
    let l : State := { up with upd := { up.upd with load := some 1 }, image := some image, nextImage := some image }
    let late := (g (fun m => { m with holding := true }) (up.setBit A.mgsCtrl F.mgsCtrl_ready false)).setFld A.tmbState
      F.tmbState_tbcrun 1
    let run := g (fun m => { m with running := true }) ({ up with tbc := 0xFFFFFFFFFFFF } : State)
    let rec_ := g (fun m => { m with nodeLoaded := true }) run
    late.mgs.holding = true ∧ late.fld A.mgsCtrl F.mgsCtrl_ready ≠ 1 ∧ late.fld A.tmbState F.tmbState_tbcrun = 1 ∧
    up.fld A.mgsCtrl F.mgsCtrl_ready = 1 ∧ run.mgs.running = true ∧
    run.mgs.wdogAt.toNat + run.fld A.mgsCtrl F.mgsCtrl_wdt * 1000000 ≤ run.tbc.toNat ∧ run.mgs.nodeLoaded = false ∧
    rec_.mgs.nodeLoaded = true ∧ rec_.pair A.mgsOpsecsLo < rec_.mgs.nodeAt + 360 ∧
    rec_.mgs.nodeAt + 360 ≤ (rec_.setReg A.mgsOpsecsLo 360).pair A.mgsOpsecsLo ∧
    (a 1 3 false).upd.act = some ⟨1, 0, false, 3, false, false, false⟩ ∧ (a 1 3 false).lanesStopped = true ∧
    (a 1 4 false).nextImage = some image ∧ l.upd.act = none ∧ l.upd.load = some 1 ∧ l.frame.running = false ∧
    l.image.isSome = true ∧ (a 2 7 false).upd.act = some ⟨2, 0, false, 7, false, false, false⟩ ∧
    (up.modUpd fun u => { u with keyBusy := true }).upd.keyBusy = true ∧ up.upd.keyBusy = false := by decide +kernel

theorem witness_FaultEvents :
    let e (m : Bool) : ErrRec := ⟨20, 5, 0, 0, 0, 77, 1, m⟩
    let f (h : FltSt → FltSt) : State := { up with flt := h up.flt }
    canonical up = true ∧ up.flt.crossing = [] ∧ (f fun x => { x with crossing := [e true] }).flt.crossing = e true :: [] ∧
    (e true).src < 75 ∧ (f fun x => { x with queue := [e false] }).flt.queue = e false :: [] ∧ up.flt.queue = [] := by
  decide +kernel

theorem witness_PowerAndReset :
    let p (n : Nat) (s : State) := s.setFld A.supState F.supState_phase n
    let b (x : Fld) (s : State) := s.setBit A.supState x true
    let g (h : SupSt → SupSt) (s : State) : State := { s with sup := h s.sup }
    let rails := b F.supState_railsok up
    let lost := p 3 up
    (p 4 up).phase = 4 ∧ (g (fun x => { x with held := some 3 }) up).sup.held.isSome = true ∧ up.phase ≠ 4 ∧
    up.sup.held = none ∧ (g (fun x => { x with seen := [1] }) up).sup.seen.contains 1 = true ∧ up.sup.seen.contains 1 = false ∧
    up.fld A.supState F.supState_vinbok ≠ 1 ∧ (b F.supState_vinbok up).fld A.supState F.supState_vinbok = 1 ∧
    (b F.supState_vinaok (b F.supState_vinbok up)).fld A.supState F.supState_vinaok = 1 ∧ up.phase < 3 ∧ up.phase ≤ 1 ∧
    2 ≤ (p 2 up).phase ∧ (p 2 up).phase = 2 ∧ (b F.supState_holdok up).fld A.supState F.supState_holdok = 1 ∧
    up.fld A.supState F.supState_holdok ≠ 1 ∧ up.shed = false ∧ lost.phase = 3 ∧
    (g (fun x => { x with returned := true }) lost).sup.returned = true ∧ lost.sup.returned = false ∧
    up.stage' = 0 ∧ up.fld A.supState F.supState_railsok ≠ 1 ∧ rails.fld A.supState F.supState_railsok = 1 ∧
    up.sup.pinLow = false ∧ (b F.supState_fldext up).fld A.supState F.supState_fldext = 1 ∧
    up.fld A.supState F.supState_fldilimnow = 0 ∧ (up.setStage 1).stage' = 1 ∧ up.sup.sensed = false ∧
    rails.fld A.tmbState F.tmbState_plllock ≠ 1 ∧
    (up.setFld A.tmbState F.tmbState_xtalwait 1).fld A.tmbState F.tmbState_xtalwait = 1 ∧
    (up.setStage 2).stage' = 2 ∧ (1000#16).toInt.natAbs ≤ 1000 ∧ 1000 < (0xFC17#16).toInt.natAbs ∧
    (g (fun x => { x with pinLow := true }) rails).sup.pinLow = true ∧ (14 : Fin 16) ≠ 6 ∧ (7 : Fin 16) ≤ 13 := by
  decide +kernel

/-! ## A worked example -/

/-- Chapter 7, three points on AC2: the predicted load is 222 in 256; with slot 130 between the two Pt100s it is 221. -/
theorem test_predicted_load :
    let pt (a : Nat) : Desc := { mkDesc (fun _ => 0) with
      en := true, kind := 1, psel := a + 1, nsel := a + 2, rsel := a + 3, fsel := a, srca := 6, srcb := 31, steep := 20, disch := 20 }
    let tc : Desc := { mkDesc (fun _ => 0) with
      en := true, kind := 2, psel := 36, nsel := 37, rsel := 0x3F, fsel := 0x3F, srca := 31, srcb := 31, steep := 20, disch := 20 }
    let s := up.setFld (A.muxTopt 36) F.muxTopt_otest 1
    s.predict 2 7 1000000 [(128, pt 28), (129, pt 32), (130, tc)] = 222 ∧
    s.predict 2 7 1000000 [(128, pt 28), (130, tc), (129, pt 32)] = 221 := by decide +kernel

/-- *Table: Start-up stages*: in stage 3 a restore write of the lamp room to a register of R588's list brings stage 4; a
write to MGS, or by another master, does not. -/
theorem test_configuration_stage :
    let s := State.reset.setStage 3
    (s.writeSeen s 4 A.supCtrl).stage' = 4 ∧ (s.writeSeen s 4 A.mgsTlim).stage' = 3 ∧ (s.writeSeen s 5 A.supCtrl).stage' = 3 := by
  decide +kernel

end Sys2Proof.Tests
end

section
/-! SUPPORT. The order of an input set (R26): what is sorted is the same records, each after the ones before it. -/

namespace Sys2Proof.Proofs

open Sys2Proof.Machine

/-! ## The order of R26 -/

theorem recAfter_iff (a b : InRec) :
    recAfter a b = true ↔ b.stamp.toNat < a.stamp.toNat ∨ b.stamp.toNat = a.stamp.toNat ∧ b.island ≤ a.island := by
  simp [recAfter, BitVec.toNat_inj]

theorem recAfter_trans {a b c : InRec} (hab : recAfter a b = true) (hbc : recAfter b c = true) :
    recAfter a c = true := by
  rw [recAfter_iff] at *
  omega

theorem recAfter_of_not {a b : InRec} (h : ¬recAfter a b = true) : recAfter b a = true := by
  rw [recAfter_iff] at *
  omega

theorem insertRec_perm (r : InRec) (l : List InRec) : (insertRec r l).Perm (r :: l) := by
  induction l with
  | nil => rfl
  | cons x t ih =>
    rw [insertRec]
    split
    · exact (ih.cons x).trans (.swap r x t)
    · rfl

/-- A record put in its place among records in the order of R26 leaves them in that order. -/
theorem insertRec_pairwise (r : InRec) {l : List InRec} (h : l.Pairwise fun x y => recAfter y x = true) :
    (insertRec r l).Pairwise fun x y => recAfter y x = true := by
  induction l with
  | nil => exact List.pairwise_singleton _ r
  | cons x t ih =>
    obtain ⟨hx, ht⟩ := List.pairwise_cons.1 h
    rw [insertRec]
    split
    case isTrue hrx =>
      refine List.pairwise_cons.2 ⟨fun y hy => ?_, ih ht⟩
      obtain rfl | hyt := List.mem_cons.1 ((insertRec_perm r t).mem_iff.1 hy)
      · exact hrx
      · exact hx y hyt
    case isFalse hrx =>
      have hxr : recAfter x r = true := recAfter_of_not hrx
      refine List.pairwise_cons.2 ⟨fun y hy => ?_, h⟩
      obtain rfl | hyt := List.mem_cons.1 hy
      · exact hxr
      · exact recAfter_trans (hx y hyt) hxr

theorem foldl_insertRec_perm (rs l : List InRec) : (rs.foldl (fun l r => insertRec r l) l).Perm (rs ++ l) := by
  induction rs generalizing l with
  | nil => rfl
  | cons r rs ih =>
    have hput : (rs ++ insertRec r l).Perm (rs ++ r :: l) := (insertRec_perm r l).append_left rs
    exact ((ih _).trans hput).trans List.perm_middle

theorem foldl_insertRec_pairwise (rs : List InRec) {l : List InRec} (h : l.Pairwise fun x y => recAfter y x = true) :
    (rs.foldl (fun l r => insertRec r l) l).Pairwise fun x y => recAfter y x = true := by
  induction rs generalizing l with
  | nil => exact h
  | cons r rs ih => exact ih (insertRec_pairwise r h)

/-- The sorted set holds the records that were given, each as often. -/
theorem sortRecs_perm (rs : List InRec) : (sortRecs rs).Perm rs := by
  rw [sortRecs]
  simpa only [List.append_nil] using foldl_insertRec_perm rs []

/-- The sorted set stands in the order of R26. -/
theorem sortRecs_pairwise (rs : List InRec) : (sortRecs rs).Pairwise fun x y => recAfter y x = true :=
  foldl_insertRec_pairwise rs .nil

end Sys2Proof.Proofs
end

section
/-! SUPPORT. Arrival of a record at the tally and the cut of a frame's input set (R28, R340, R341): one equation per case. -/

namespace Sys2Proof.Proofs

open Sys2Proof.Machine

section Cases

variable {s : State}

/-! ## Arrival (R340) -/

theorem execInputArrival_of_empty (h : s.tly.crossing = []) : execInputArrival s = .next s := by
  rw [execInputArrival, h]

theorem execInputArrival_of_full {r : InRec} {rest : List InRec} (h : s.tly.crossing = r :: rest)
    (hfull : 32768 < entriesOf s.tly.store + r.entries) : execInputArrival s = .next s := by
  simp only [execInputArrival, h, if_pos hfull]

theorem execInputArrival_of_room {r : InRec} {rest : List InRec} (h : s.tly.crossing = r :: rest)
    (hroom : entriesOf s.tly.store + r.entries ≤ 32768) :
    let v : State := { s with tly := { s.tly with crossing := rest, store := s.tly.store ++ [r] } }
    execInputArrival s = .next ((if r.ring = 104 then
      v.setFld A.tsuLevel F.tsuLevel_level (v.fld A.tsuLevel F.tsuLevel_level - 1) else v).hcmdPosted r) := by
  simp only [execInputArrival, h, if_neg (Nat.not_lt.2 hroom), State.modTly]

/-! ## The cut (R28, R341) -/

@[simp] theorem noteLate_frame (s : State) (rs : List InRec) : (s.noteLate rs).frame = s.frame := by
  rw [State.noteLate]
  induction rs.filter _ generalizing s with
  | nil => rfl
  | cons r rs ih => exact ih _

/-- The lanes whose distributor's CRC differed (R341). -/
def lanesLeftOut (a b c : Bool) : List LaneId :=
  ((allLanes.zip [a, b, c]).filter fun x => x.2).map fun x => x.1

/-- The state u with its input set of the records `own` closed at F(k) = f and the lanes `bad` left out (R28, R341). -/
def closeSet (u : State) (f : Stamp) (own : List InRec) (bad : List LaneId) : State :=
  let cut := sortRecs own ++ [u.timeRecord]
  let closed : State := { u with tly := { u.tly with
    store := u.tly.store.filter fun x => !decide (x.stamp.toNat < f.toNat), cutSet := cut, excluded := bad } }
  let shown := closed.lastPeak A.tlyInset F.tlyInset_last F.tlyInset_peak (entriesOf cut)
  { shown with frame := { shown.frame with phase := .cut } }

/-- The frame of a closed set that no two distributors hold alike: split, its set carried, and no release to wait for
(R341, R356). -/
def splitCut (s : State) (f : Stamp) : State :=
  let split := ((s.abandonRepair f).splitFrame false f).carrySet
  { split with tly := { split.tly with excluded := [] }, frame := { split.frame with phase := .released } }

theorem execInputCut_of_seam (hrun : s.frame.running = true) (hseam : s.frame.phase = .seam) (a b c : Bool) :
    let own := s.tly.store.filter fun x => decide (x.stamp.toNat < s.frame.f.toNat)
    let ended := closeSet (s.noteLate own) s.frame.f own (lanesLeftOut a b c)
    execInputCut a b c s =
      .next (if 2 ≤ (lanesLeftOut a b c).length then splitCut ended s.frame.f else ended) := by
  intro own ended
  have hgo : ¬(¬s.frame.running = true ∨ s.frame.phase ≠ .seam) := by simp [hrun, hseam]
  let u := s.noteLate own
  have hu : u.frame = s.frame := noteLate_frame s own
  have hcut : execInputCut a b c s = .next (
      if 2 ≤ (lanesLeftOut a b c).length then splitCut (closeSet u u.frame.f own (lanesLeftOut a b c)) u.frame.f
      else closeSet u u.frame.f own (lanesLeftOut a b c)) := by
    rw [execInputCut, if_neg hgo]
    rfl
  rwa [hu] at hcut

theorem execInputCut_of_not_seam (h : s.frame.running = false ∨ s.frame.phase ≠ .seam) (a b c : Bool) :
    execInputCut a b c s = .next s := by
  rw [execInputCut, if_pos (by simpa using h)]

end Cases

/-- Settles O49: the cases of the arrival and of the cut, and the order of R26 from the sorting's own laws. -/
theorem inputSets : Obligations.InputSets := by
  intro s r rest a b c due own u cut bad closed shown ended split
  refine ⟨execInputArrival_of_empty, execInputArrival_of_full, execInputArrival_of_room, fun hrun hseam => ?_,
    fun h => execInputCut_of_not_seam h a b c, sortRecs_perm own, sortRecs_pairwise own⟩
  have hcut : exec (.inputCut a b c) s = _ := execInputCut_of_seam hrun hseam a b c
  exact ⟨fun hbad => hcut.trans (congrArg _ (if_neg (Nat.not_le.2 hbad))),
    fun hbad => hcut.trans (congrArg _ (if_pos hbad))⟩

end Sys2Proof.Proofs
end

section
/-! SUPPORT. The seam and the release of frames (R27, R31, R342, R346, R532, R548): one equation per case. -/

namespace Sys2Proof.Proofs

open Sys2Proof.Machine

section Cases

variable {s : State}

/-! ## The seam (R27, R31, R346) -/

theorem nextSeam_of_running (hrun : s.frame.running = true) :
    s.nextSeam = some (s.frame.k + 1, s.frame.f + BitVec.ofNat 64 s.frame.period, s.frame.f) := by
  rw [State.nextSeam, hrun]

theorem nextSeam_of_f0 {f : Stamp} (hrun : s.frame.running = false) (hf0 : s.frame.f0 = some f) :
    s.nextSeam = some (0, f, BitVec.ofNat 64 (s.pair A.tmbStartLo)) := by
  rw [State.nextSeam, hrun, hf0]

theorem nextSeam_of_no_f0 (hrun : s.frame.running = false) (hf0 : s.frame.f0 = none) : s.nextSeam = none := by
  rw [State.nextSeam, hrun, hf0]

theorem execFrameSeam_of_none (h : s.nextSeam = none) : execFrameSeam s = .next s := by
  rw [execFrameSeam, h]

theorem execFrameSeam_of_unreleased (hrun : s.frame.running = true) (hph : s.frame.phase ≠ .released) :
    execFrameSeam s = .next s := by
  rw [execFrameSeam, nextSeam_of_running hrun]
  exact congrArg _ (if_pos (.inr ⟨hrun, hph⟩))

/-- The state at the seam of frame k at f, before SEQ begins its frame: the frame that ends is decided, requests and
output changes take effect, and frame k begins (R27, R346, R376, R377). -/
def beginFrame (s : State) (k : Nat) (f fPrev : Stamp) : State :=
  let voted := !s.tly.inFrame.isEmpty
  let decided := if voted then s.decideFrame s.frame.k f else s
  let asked := ((decided.retireAsked decided.frame.k f).showWindows k).showMode
  let cleared := asked.modTly fun t => { t with
    inFrame := [], sent := [none, none, none], arrived := [none, none, none], drifted := [], retireReq := none }
  let told := cleared.flushOuts.outRecord f
  let ready := if voted then told.modField fun x => { x with loading := false } else told
  let begun : State := { ready with
    frame := { ready.frame with
      running := true, k := k, f := f, fPrev := fPrev, phase := .seam, held := ready.actHolds }
    flt := { ready.flt with notices := 0 } }
  (begun.setReg A.seqFrameCnt (BitVec.ofNat 32 k)).setPair A.seqNextSeamLo (f.toNat + begun.frame.period)

theorem execFrameSeam_of_next {k : Nat} {f fPrev : Stamp} (hnext : s.nextSeam = some (k, f, fPrev))
    (hheld : s.heldReset = false) (hrel : s.frame.running = true → s.frame.phase = .released) :
    execFrameSeam s = .next ((List.range 8).foldl State.dedicSeam (beginFrame s k f fPrev)) := by
  have hgo : ¬(s.heldReset = true ∨ s.frame.running = true ∧ s.frame.phase ≠ .released) := by
    rintro (h | ⟨hrun, hph⟩)
    · exact Bool.false_ne_true (hheld.symm.trans h)
    · exact hph (hrel hrun)
  rw [execFrameSeam, hnext]
  exact congrArg _ (if_neg hgo)

/-! ## The release (R342, R532, R548) -/

/-- The state once the release of its frame is past (R342). -/
def pastRelease (s : State) : State := { s with frame := { s.frame with phase := .released } }

theorem execFrameRelease_of_held (hcut : s.frame.phase = .cut) (hheld : s.mgs.holding = true ∨ s.frame.held = true)
    (retrim : Bool) :
    let kept := (pastRelease s).carrySet
    execFrameRelease retrim s = .next { kept with tly := { kept.tly with excluded := [] } }.showMode := by
  have hhold : (s.mgs.holding || s.frame.held) = true := by simpa only [Bool.or_eq_true] using hheld
  intro kept
  rw [execFrameRelease, if_neg (not_not.2 hcut)]
  exact congrArg _ (if_pos hhold)

/-- The state in which a release that is not held meets the lanes: a lane left out is out-voted, and repair has taken its
step (R341, R352, R357). -/
def repairTaken (s : State) (retrim : Bool) : State :=
  let w := (pastRelease s).inputOut.repairStep retrim
  { w with tly := { w.tly with returnReq := none } }

/-- The release of the frame's lanes from the state w: each that takes part receives the delivery set and the timed
commands, and the rest is carried (R249, R251, R258). -/
def releaseLanes (w : State) : State :=
  let d := w.deliverySet
  let x : State := { w with tly := { w.tly with carried := d.2.map carriedRec, cutSet := [] }, tcmds := [] }
  let v := x.partLanes
  let fail := d.1.any fun r => r.ring == 116 && r.kind == 0xC0 && r.source == 5
  let sent := v.foldl (fun s l => s.releaseLane w.tcmds d.1 fail l) x
  let told := if d.2.isEmpty then sent else v.foldl State.noteCarry sent
  { told with tly := { told.tly with inFrame := v } }

theorem execFrameRelease_of_free (hcut : s.frame.phase = .cut) (hmgs : s.mgs.holding = false)
    (hact : s.frame.held = false) (retrim : Bool) :
    execFrameRelease retrim s =
      .next (releaseLanes (repairTaken s retrim)).showMode.firstRelease.actReleased := by
  have hfree : ¬(s.mgs.holding || s.frame.held) = true := by simp [hmgs, hact]
  rw [execFrameRelease, if_neg (not_not.2 hcut)]
  exact congrArg _ (if_neg hfree)

end Cases

/-- Settles O50, by the cases of the next seam and of the release's hold. -/
theorem frames : Obligations.Frames := by
  refine ⟨fun s k f fPrev => ?_, fun s retrim hcut => ?_⟩
  · exact ⟨nextSeam_of_running, nextSeam_of_f0, execFrameSeam_of_next, rfl, rfl, rfl, rfl,
      execFrameSeam_of_unreleased, fun hrun hf0 => execFrameSeam_of_none (nextSeam_of_no_f0 hrun hf0)⟩
  · exact ⟨fun hheld => execFrameRelease_of_held hcut hheld retrim,
      fun hmgs hact => execFrameRelease_of_free hcut hmgs hact retrim⟩

end Sys2Proof.Proofs
end

section
/-! SUPPORT. Runs of the node: every command goes on, every step keeps the canonical form, and the queue is taken from
its front. -/

namespace Sys2Proof.Proofs

open Sys2Proof.Machine Sys2Proof.Laws

variable {s t : State}

/-! ## One command -/

theorem execWait_next (w : Who) (d : Reg) (ring : BitVec 7) (s : State) : ∃ t, execWait w d ring s = .next t := by
  cases w with
  | lane l t => exact ⟨_, rfl⟩
  | core => exact ⟨_, rfl⟩

theorem execWaitEnd_next (l : LaneId) (t : ThreadId) (s : State) : ∃ u, execWaitEnd l t s = .next u := by
  rw [execWaitEnd]
  split
  · exact ⟨_, rfl⟩
  · dsimp only
    split <;> exact ⟨_, rfl⟩

theorem execErrorArrival_next (s : State) : ∃ t, execErrorArrival s = .next t := by
  rw [execErrorArrival]
  split <;> exact ⟨_, rfl⟩

theorem execFaultEntry_next (s : State) : ∃ t, execFaultEntry s = .next t := by
  rw [execFaultEntry]
  split <;> exact ⟨_, rfl⟩

/-- Every command goes on to a next state. All but four are written as one next state; those four choose among such. -/
theorem exec_next (c : Instr) (s : State) : ∃ t, exec c s = .next t := by
  cases c with
  | wait w d ring => exact execWait_next w d ring s
  | waitEnd l t => exact execWaitEnd_next l t s
  | errorArrival => exact execErrorArrival_next s
  | faultEntry => exact execFaultEntry_next s
  | _ => exact ⟨_, rfl⟩

/-! ## One step -/

theorem canonical_lanes (h : canonical s = true) : s.lanes.length = 3 := by
  obtain ⟨-, -, -, hlanes⟩ := (canonical_iff s).1 h
  exact hlanes.1

theorem canonical_tick (h : canonical s = true) : canonical s.tick = true := by
  obtain ⟨_, hsteady⟩ := tick_steady s ⟨h, rfl, .inl rfl⟩
  exact hsteady.canon

/-- The queue holds no part of the form. -/
theorem canonical_dequeue (h : canonical s = true) (rest : List Instr) :
    canonical { s with pending := rest } = true := h

/-- A step keeps the canonical form. -/
theorem step_canonical (h : canonical s = true) (hs : step s = .next t) : canonical t = true := by
  cases hq : s.pending with
  | nil =>
    rw [step_nil hq] at hs
    cases hs
    exact canonical_tick h
  | cons c rest =>
    rw [step_cons hq] at hs
    exact (exec_canonical c (canonical_dequeue h rest) hs).1

/-- A step with a command at the front runs it and leaves the queue's rest. -/
theorem step_front {c : Instr} {rest : List Instr} (h : canonical s = true) (hq : s.pending = c :: rest) :
    ∃ t, step s = .next t ∧ exec c { s with pending := rest } = .next t ∧ t.pending = rest := by
  obtain ⟨t, ht⟩ := exec_next c { s with pending := rest }
  exact ⟨t, (step_cons hq).trans ht, ht, (exec_canonical c (canonical_dequeue h rest) ht).2⟩

/-! ## Runs -/

theorem after_succ_of_step {k : Nat} (hs : step s = .next t) : after (k + 1) s = after k t := by
  rw [after, hs]

theorem step_of_after_succ {k : Nat} {u : State} (h : after (k + 1) s = some u) :
    ∃ t, step s = .next t ∧ after k t = some u := by
  rw [after] at h
  split at h
  · exact ⟨_, ‹_›, h⟩
  · cases h
  · cases h

theorem after_succ_last {k : Nat} {u : State} (h : after k s = some t) (hs : step t = .next u) :
    after (k + 1) s = some u := by
  induction k generalizing s with
  | zero =>
    cases h
    rw [after_succ_of_step hs, after]
  | succ k ih =>
    obtain ⟨s', hs', hk⟩ := step_of_after_succ h
    rw [after_succ_of_step hs']
    exact ih hk

/-- Every run keeps the canonical form. -/
theorem after_canonical {k : Nat} (h : canonical s = true) (hk : after k s = some t) : canonical t = true := by
  induction k generalizing s with
  | zero =>
    cases hk
    exact h
  | succ k ih =>
    obtain ⟨s', hs', hk'⟩ := step_of_after_succ hk
    exact ih (step_canonical h hs') hk'

/-- A run no longer than the queue takes its first commands and leaves the others. -/
theorem after_drops {k : Nat} (h : canonical s = true) (hk : k ≤ s.pending.length) :
    ∃ t, after k s = some t ∧ t.pending = s.pending.drop k := by
  induction k generalizing s with
  | zero => exact ⟨s, rfl, rfl⟩
  | succ k ih =>
    cases hq : s.pending with
    | nil => simp [hq] at hk
    | cons c rest =>
      obtain ⟨s', hs', -, hrest⟩ := step_front h hq
      obtain ⟨t, ht, htq⟩ := ih (step_canonical h hs') (by simpa [hq, hrest] using hk)
      exact ⟨t, by rw [after_succ_of_step hs', ht], by rw [htq, hrest, List.drop_succ_cons]⟩

/-- Settles O4, by induction on the number of steps. -/
theorem canonicalKept : Obligations.CanonicalKept := fun _ _ _ h hk =>
  have ht := after_canonical h hk
  ⟨ht, canonical_lanes ht⟩

/-- Settles O5: the run takes the first k commands, and the step after it the one then at the front. -/
theorem queueInOrder : Obligations.QueueInOrder := by
  intro s k h hk
  obtain ⟨t, ht, htq⟩ := after_drops h hk
  refine ⟨t, ht, htq, fun c rest hfront => ?_⟩
  obtain ⟨u, hstep, hexec, hrest⟩ := step_front (after_canonical h ht) (htq.trans hfront)
  exact ⟨u, after_succ_last ht hstep, hexec, hrest⟩

end Sys2Proof.Proofs
end

section
/-! SUPPORT. Accesses on the management bus (R45, R46): what an accepted write and a refused access do, and what is
seen of a write that completed. -/

namespace Sys2Proof.Proofs

open Sys2Proof.Machine Sys2Proof.Laws

section Bus

variable {s t : State} {m : Nat} {a b : Nat} {w : Word} {addr : Word}

/-! ## Accepted and refused accesses -/

theorem busRead_of_unreadable (h : s.readable m addr.toNat = false) :
    s.busRead m addr = (0, false, s.busError m 1 addr) := by
  rw [State.busRead]
  exact if_neg (by simp [h])

theorem busWrite_of_ok (h : s.writeOk m addr.toNat w = true) :
    s.busWrite m addr w = ((s.regWritten m addr.toNat w false).writeSeen s m addr.toNat, true) := by
  rw [State.busWrite, State.busWriteWith]
  exact if_pos h

theorem busWrite_of_refused (h : s.writeOk m addr.toNat w = false) :
    s.busWrite m addr w = (s.writeRefused m addr, false) := by
  rw [State.busWrite, State.busWriteWith]
  exact if_neg (by simp [h])

theorem masterWrite_of_ok {x : Master} (hheld : s.heldReset = false) (ha : a < 2 ^ 32)
    (h : s.writeOk x.id a w = true) :
    s.masterWrite x a w = .next ((s.regWritten x.id a w false).writeSeen s x.id a) := by
  have hto : (BitVec.ofNat 32 a).toNat = a := Nat.mod_eq_of_lt ha
  have hw := busWrite_of_ok (s := s) (m := x.id) (addr := BitVec.ofNat 32 a) (w := w) (by rwa [hto])
  rw [State.masterWrite, hheld, hw, hto]
  rfl

/-! ## Errors (R46) -/

/-- Where the collector holds what a bus error leaves, the error is the last on its way to it. -/
theorem busError_reported {u : State} {access : Nat} (hu : u.flt = (s.busError m access addr).flt) :
    ∃ e, u.flt.crossing = s.flt.crossing ++ [e] ∧ e.src = 0 ∧ e.access = access ∧ e.master = m ∧ e.addr = addr ∧
      e.stamp = s.tbc ∧ e.cls = s.fld (A.fltSrc 0) F.fltSrc_class := by
  rw [hu]
  exact ⟨_, rfl, rfl, rfl, rfl, rfl, rfl, rfl⟩

/-- A refused restore write is counted besides, which leaves the collector as it is (R538). -/
theorem writeRefused_flt : (s.writeRefused m addr).flt = (s.busError m 2 addr).flt := by
  unfold State.writeRefused
  split <;> rfl

theorem execHspAccessDone_of_unreadable {q : HspAccess} (hq : s.hsp.access = some q) (hread : q.write = false)
    (h : s.readable 5 q.addr.toNat = false) :
    execHspAccessDone s = .next (((((s.busError 5 1 q.addr).modHsp fun h => { h with access := none }).event
      A.hspStatus F.hspStatus_buserr).hspReply ⟨0x90, q.addr, 0⟩)) := by
  have hresp : s.respond 5 q.write q.addr q.data = (s.busError 5 1 q.addr, false, 0) := by
    rw [State.respond, hread, busRead_of_unreadable h]
    rfl
  have hbusy : ¬(s.busError 5 1 q.addr).hsp.access.isNone = true := by
    rw [busError_hsp, hq]
    exact Bool.false_ne_true
  rw [execHspAccessDone, hq]
  dsimp only
  rw [hresp]
  exact congrArg _ (if_neg hbusy)

/-! ## The write watch and the configuration stage -/

/-- The watch ranges are the registers from 0x0007_0400 to 0x0007_05FF. -/
theorem watched_congr (h : ∀ b, 0x00070400 ≤ b → b < 0x00070600 → t.reg b = s.reg b) :
    t.watched a = s.watched a := by
  rw [State.watched, State.watched, Bool.eq_iff_iff]
  simp only [List.any_eq_true, List.mem_range]
  refine exists_congr fun n => and_congr_right fun hn => ?_
  have hbase : t.reg (A.mgsWatchBase n) = s.reg (A.mgsWatchBase n) :=
    h _ (by unfold A.mgsWatchBase; omega) (by unfold A.mgsWatchBase; omega)
  have hlim : t.reg (A.mgsWatchLim n) = s.reg (A.mgsWatchLim n) :=
    h _ (by unfold A.mgsWatchLim; omega) (by unfold A.mgsWatchLim; omega)
  unfold State.bit State.fld
  rw [hbase, hlim]

/-- What is seen of a completed write that no watch range holds: the first restore write brings stage 4 (R587). -/
theorem writeSeen_of_unwatched (h : t.watched a = false) :
    t.writeSeen s m a = if s.restoring m then t.configStage a else t := by
  rw [State.writeSeen, State.watchWrite, h, Bool.not_false, Bool.or_true, Bool.true_or, if_pos rfl]

theorem writeSeen_eq_self (h : t.watched a = false) (ha : restoreBlock a = false) : t.writeSeen s m a = t := by
  have hstage : t.configStage a = t := by
    rw [State.configStage, ha, Bool.false_and]
    exact if_neg Bool.false_ne_true
  rw [writeSeen_of_unwatched h, hstage, ite_self]

@[simp] theorem configStage_locked : (t.configStage a).locked = t.locked := by
  rw [State.configStage]
  split <;> rfl

theorem configStage_reg_ne (hb : b ≠ A.supState) : (t.configStage a).reg b = t.reg b := by
  rw [State.configStage]
  split
  · exact reg_setFld_ne hb
  · rfl

end Bus

/-- Settles O33: a refused access leaves the error R46 describes as the last on its way to the collector. -/
theorem busErrors : Obligations.BusErrors := by
  intro s m addr data q told
  refine ⟨fun h => ?_, fun h => ?_, fun hq hread h => ?_, by decide +kernel⟩
  · rw [busRead_of_unreadable h]
    exact ⟨rfl, busError_reported rfl, rfl⟩
  · rw [busWrite_of_refused h]
    exact busError_reported writeRefused_flt
  · exact ⟨_, execHspAccessDone_of_unreadable hq hread h, busError_reported rfl, rfl⟩

end Sys2Proof.Proofs
end

section
/-! SUPPORT. Clearing writes to status registers (R51): the word they leave bit by bit, and what else they change
(R607). -/

namespace Sys2Proof.Proofs

open Sys2Proof.Machine Sys2Proof.Laws

section Status

variable {s : State} {m a b : Nat} {w cur v : Word} {j : Nat}

/-! ## Words of a status register -/

theorem seqFld_get (w : Word) : seqFld.get w = w.toNat / 16777216 := by
  have h : w.toNat / 16777216 < 256 := by have := w.isLt; omega
  exact Nat.mod_eq_of_lt h

theorem flag_get (w : Word) (j : Nat) : (⟨j, j⟩ : Fld).get w = (w.getLsbD j).toNat := by
  have hwidth : j + 1 - j = 1 := Nat.add_sub_cancel_left j 1
  have hget : (⟨j, j⟩ : Fld).get w = w.toNat / 2 ^ j % 2 :=
    congrArg (fun n => w.toNat / 2 ^ j % 2 ^ n) hwidth
  exact hget.trans (Nat.toNat_testBit w.toNat j).symm

theorem flagMask_getLsbD (i : Nat) : (0x00FFFFFF#32).getLsbD i = decide (i < 24) := by
  rw [BitVec.getLsbD_ofNat, show 0x00FFFFFF = 2 ^ 24 - 1 from rfl, Nat.testBit_two_pow_sub_one]
  by_cases h : i < 24
  · simp [h, Nat.lt_trans h]
  · simp [h]

/-- Taking away the bits that two words share clears them. -/
theorem sub_and_eq_and_not (x y : Word) : x - (x &&& y) = x &&& ~~~y := by
  have hzero : (x &&& ~~~y) &&& (x &&& y) = 0#32 := by
    ext i
    cases hx : x[i] <;> cases hy : y[i] <;> simp [hx, hy]
  have hsum : (x &&& ~~~y) + (x &&& y) = x := by
    rw [BitVec.add_eq_or_of_and_eq_zero _ _ hzero]
    ext i
    cases hx : x[i] <;> cases hy : y[i] <;> simp [hx, hy]
  exact (eq_sub_of_add_eq hsum).symm

theorem sqClear_of_seq_ne (h : seqFld.get v ≠ seqFld.get cur) : sqClear cur v = cur := if_neg h

theorem sqClear_of_seq_eq (h : seqFld.get v = seqFld.get cur) :
    sqClear cur v = cur &&& ~~~(v &&& 0x00FFFFFF#32) := by
  have hle : cur &&& v &&& 0x00FFFFFF#32 ≤ cur := by
    rw [BitVec.and_assoc, BitVec.le_def, BitVec.toNat_and]
    exact Nat.and_le_left
  rw [sqClear, if_pos h, ← BitVec.toNat_sub_of_le hle, BitVec.ofNat_toNat, BitVec.setWidth_eq, BitVec.and_assoc,
    sub_and_eq_and_not]

theorem sqClear_getLsbD (h : seqFld.get v = seqFld.get cur) (j : Nat) :
    (sqClear cur v).getLsbD j = (cur.getLsbD j && !(v.getLsbD j && decide (j < 24))) := by
  rw [sqClear_of_seq_eq h, BitVec.getLsbD_and, BitVec.getLsbD_not, BitVec.getLsbD_and, flagMask_getLsbD]
  by_cases hj : j < 32
  · simp [hj]
  · simp [BitVec.getLsbD_of_ge _ _ (Nat.le_of_not_lt hj)]

/-- A clearing write leaves SEQ. -/
theorem sqClear_seq (cur v : Word) : seqFld.get (sqClear cur v) = seqFld.get cur := by
  by_cases h : seqFld.get v = seqFld.get cur
  · have htop : (sqClear cur v).toNat / 2 ^ 24 = cur.toNat / 2 ^ 24 := by
      refine Nat.eq_of_testBit_eq fun i => ?_
      have hbit := sqClear_getLsbD h (24 + i)
      rw [Nat.testBit_div_two_pow, Nat.testBit_div_two_pow, Nat.add_comm i]
      simpa [BitVec.getLsbD] using hbit
    rw [seqFld_get, seqFld_get]
    exact htop
  · rw [sqClear_of_seq_ne h]

/-- A clearing write clears the flags it writes as 1, where its SEQ matches. -/
theorem sqClear_flag (h : seqFld.get v = seqFld.get cur) (hj : j < 24) :
    (⟨j, j⟩ : Fld).get (sqClear cur v) = if v.getLsbD j then 0 else (⟨j, j⟩ : Fld).get cur := by
  rw [flag_get, flag_get, sqClear_getLsbD h]
  cases v.getLsbD j <;> simp [hj]

/-! ## Clearing writes -/

theorem fltStatusWritten_reg_ne (hb : b ≠ A.fltState) : (s.fltStatusWritten cur w).reg b = s.reg b := by
  rw [State.fltStatusWritten]
  split
  · exact reg_setBit_ne hb
  · rfl

theorem fltStatusWritten_flt : (s.fltStatusWritten cur w).flt = s.flt := by
  rw [State.fltStatusWritten]
  split <;> rfl

theorem clearFlags_flt : (s.clearFlags a w).flt = s.flt := by
  unfold State.clearFlags
  split
  · exact fltStatusWritten_flt
  · rfl

/-- A clearing write changes its own register, and FLT_STATE where DEGRADED ends with it (R607). -/
theorem clearFlags_reg_ne (hb : b ≠ canon a) (hflt : b ≠ A.fltState) : (s.clearFlags a w).reg b = s.reg b := by
  unfold State.clearFlags
  split
  · exact (fltStatusWritten_reg_ne hflt).trans (reg_setReg_ne hb)
  · exact reg_setReg_ne hb

theorem clearFlags_reg (h : canonical s = true) :
    (s.clearFlags a w).reg (canon a) = sqClear (s.reg (canon a)) w := by
  unfold State.clearFlags
  split
  case isTrue ha =>
    have hne : canon a ≠ A.fltState := by
      rw [ha]
      decide
    exact (fltStatusWritten_reg_ne hne).trans (reg_setReg h)
  case isFalse => exact reg_setReg h

theorem regWritten_of_sq {r : RegRow} (hrow : rowOf a = some r) (hkind : r.kind = .sq) (c : Bool) :
    s.regWritten m a w c = s.clearFlags a w := by
  simp only [State.regWritten, hrow, hkind]

end Status

/-- Settles O32: a clearing write is `sqClear` of its own register, and of FLT_STATE it ends DEGRADED alone. -/
theorem clearingWrites : Obligations.ClearingWrites := by
  intro s a b j r m w h hj ha hrow hkind k seq flag u
  have hreg : u.reg k = sqClear (s.reg k) w := clearFlags_reg h
  refine ⟨fun hheld hok => ?_, congrArg _ clearFlags_flt, ?_, fun hseq => ?_, fun hseq => ?_, clearFlags_reg_ne⟩
  · have hexec := masterWrite_of_ok hheld ha hok
    rw [regWritten_of_sq hrow hkind] at hexec
    have hto : (BitVec.ofNat 32 a).toNat = a := Nat.mod_eq_of_lt ha
    rw [exec, execSqClearWrite, hto]
    exact hexec
  · have hkeep := sqClear_seq (s.reg k) w
    rw [seqFld_get, seqFld_get, ← hreg] at hkeep
    exact hkeep
  · rw [State.fld, hreg]
    exact sqClear_flag (by rwa [seqFld_get, seqFld_get]) hj
  · rw [hreg]
    exact sqClear_of_seq_ne (by rwa [Ne, seqFld_get, seqFld_get])

end Sys2Proof.Proofs
end

section
/-! SUPPORT. The types of register (R49, R50, R55): an event's SEQ, the lock of a locking register, and the two words of
a staged pair. -/

namespace Sys2Proof.Proofs

open Sys2Proof.Machine Sys2Proof.Laws

section Types

variable {s t : State} {m : Nat} {a b k : Nat} {w : Word}

/-! ## Events (R50) -/

/-- SEQ, read as the top byte of the register's word, passes from 255 to 1. -/
theorem event_seq_byte {i : Nat} (h : canonical s = true) (hi : i < 24) :
    ((s.event a ⟨i, i⟩).reg a).toNat / 16777216 =
      if (s.reg a).toNat / 16777216 = 255 then 1 else (s.reg a).toNat / 16777216 + 1 := by
  have hseq := event_seq (a := a) h (f := ⟨i, i⟩) ⟨Nat.le_refl i, hi⟩
  rwa [State.fld, State.fld, seqFld_get, seqFld_get] at hseq

/-! ## Locking registers (R49) -/

theorem writeOk_of_locked {r : RegRow} (hrow : rowOf a = some r) (hkind : r.kind = .lk) (h : a ∈ s.locked) :
    s.writeOk m a w = false := by
  simp [State.writeOk, hrow, hkind, h]

/-- The state after an accepted write of TRP_LOCK: its one bit stored, and the register locked. -/
def trpLockWritten (s : State) (w : Word) : State :=
  { s.setReg A.trpLock ((s.reg A.trpLock &&& ~~~1#32) ||| (w &&& 1#32)) with locked := A.trpLock :: s.locked }

theorem regWritten_trpLock (c : Bool) : s.regWritten m A.trpLock w c = trpLockWritten s w := rfl

theorem trpLockWritten_reg_ne (hb : b ≠ A.trpLock) : (trpLockWritten s w).reg b = s.reg b := reg_setReg_ne hb

theorem trpLockWritten_locked : A.trpLock ∈ (trpLockWritten s w).locked := List.mem_cons_self

theorem trpLockWritten_lock (h : canonical s = true) :
    (trpLockWritten s w).fld A.trpLock F.trpLock_lock = w.toNat % 2 := by
  have hreg : (trpLockWritten s w).reg A.trpLock = (s.reg A.trpLock &&& ~~~1#32) ||| (w &&& 1#32) := reg_setReg h
  have hbit : ((trpLockWritten s w).reg A.trpLock).getLsbD 0 = w.getLsbD 0 := by
    rw [hreg]
    simp
  have hlock := flag_get ((trpLockWritten s w).reg A.trpLock) 0
  rw [hbit, ← flag_get] at hlock
  exact hlock.trans (congrArg (· % 2) (Nat.div_one _))

/-- An accepted write of TRP_LOCK sets LOCK and locks the register; the configuration stage touches neither. -/
theorem execLkFieldWrite_trpLock {x : Master} (hheld : s.heldReset = false)
    (hok : s.writeOk x.id A.trpLock w = true) (h : canonical s = true) (hwatch : s.watched A.trpLock = false) :
    ∃ t, exec (.lkFieldWrite x (BitVec.ofNat 32 A.trpLock) w) s = .next t ∧
      t.fld A.trpLock F.trpLock_lock = w.toNat % 2 ∧ A.trpLock ∈ t.locked := by
  have hun : (trpLockWritten s w).watched A.trpLock = false := by
    rw [← hwatch]
    refine watched_congr fun b _ hb => trpLockWritten_reg_ne ?_
    unfold A.trpLock
    omega
  have hexec := masterWrite_of_ok hheld (by decide) hok
  rw [regWritten_trpLock, writeSeen_of_unwatched hun] at hexec
  refine ⟨_, hexec, ?_⟩
  split
  · rw [State.fld, configStage_reg_ne (by decide), configStage_locked]
    exact ⟨trpLockWritten_lock h, trpLockWritten_locked⟩
  · exact ⟨trpLockWritten_lock h, trpLockWritten_locked⟩

/-! ## Staged pairs (R55) -/

theorem regWritten_jnlWstampLo (c : Bool) : s.regWritten m A.jnlWstampLo w c = s.stageLow m A.jnlWstampLo w := rfl

theorem regWritten_jnlWstampHi (c : Bool) : s.regWritten m A.jnlWstampHi w c = s.commitHigh m A.jnlWstampHi w := rfl

/-- A low word staged for a master is the one its commit finds. -/
theorem stageLow_find (s : State) (m a : Nat) (w : Word) :
    ((s.stageLow m a w).staged.find? fun x => x.1 == bank m a) = some (bank m a, w) := by
  rw [State.stageLow, List.find?_append, List.find?_eq_none.2 fun x hx => ?_]
  · simp
  · simpa using (List.mem_filter.1 hx).2

/-! ## Commits of a pair (R55) -/

theorem reg_of_regs (h : t.regs = s.regs) : t.reg b = s.reg b := by
  rw [State.reg, State.reg, h]

theorem commitHigh_of_staged {v : Word} (h : (s.staged.find? fun x => x.1 == bank m (a - 4)) = some (k, v)) :
    (s.commitHigh m a w).regs = ((s.setReg (bank m (a - 4)) v).setReg (bank m a) w).regs := by
  rw [State.commitHigh]
  simp only [h]

theorem commitHigh_of_unstaged (h : (s.staged.find? fun x => x.1 == bank m (a - 4)) = none) :
    (s.commitHigh m a w).regs = (s.setReg (bank m a) w).regs := by
  rw [State.commitHigh]
  simp only [h]

theorem bank_low_ne_high (ha : 4 ≤ a) : bank m (a - 4) ≠ bank m a := by
  unfold bank
  omega

theorem commitHigh_reg_high (h : canonical s = true) : (s.commitHigh m a w).reg (bank m a) = w := by
  cases hfind : s.staged.find? fun x => x.1 == bank m (a - 4) with
  | none => exact (reg_of_regs (commitHigh_of_unstaged hfind)).trans (reg_setReg h)
  | some x => exact (reg_of_regs (commitHigh_of_staged hfind)).trans (reg_setReg (canonical_setReg h))

theorem commitHigh_reg_low_of_staged {v : Word} (h : canonical s = true) (ha : 4 ≤ a)
    (hfind : (s.staged.find? fun x => x.1 == bank m (a - 4)) = some (k, v)) :
    (s.commitHigh m a w).reg (bank m (a - 4)) = v := by
  rw [reg_of_regs (commitHigh_of_staged hfind), reg_setReg_ne (bank_low_ne_high ha), reg_setReg h]

theorem commitHigh_reg_low_of_unstaged (ha : 4 ≤ a)
    (hfind : (s.staged.find? fun x => x.1 == bank m (a - 4)) = none) :
    (s.commitHigh m a w).reg (bank m (a - 4)) = s.reg (bank m (a - 4)) := by
  rw [reg_of_regs (commitHigh_of_unstaged hfind), reg_setReg_ne (bank_low_ne_high ha)]

/-- A commit changes its master's two words only. -/
theorem commitHigh_reg_ne (hlo : b ≠ bank m (a - 4)) (hhi : b ≠ bank m a) :
    (s.commitHigh m a w).reg b = s.reg b := by
  rw [State.commitHigh]
  refine (reg_setReg_ne hhi).trans ?_
  split
  · rfl
  · exact reg_setReg_ne hlo

/-- R55: an accepted write of JNL_WSTAMP_LO is staged. -/
theorem execStageLowWord_jnlWstampLo {x : Master} (hheld : s.heldReset = false)
    (hok : s.writeOk x.id A.jnlWstampLo w = true) (hwatch : s.watched A.jnlWstampLo = false) :
    exec (.stageLowWord x (BitVec.ofNat 32 A.jnlWstampLo) w) s = .next (s.stageLow x.id A.jnlWstampLo w) := by
  have hun : (s.stageLow x.id A.jnlWstampLo w).watched A.jnlWstampLo = false := hwatch
  have hexec := masterWrite_of_ok hheld (by decide) hok
  rwa [regWritten_jnlWstampLo, writeSeen_eq_self hun (by decide)] at hexec

/-- The watch ranges hold no master's own copy of a register. -/
theorem ne_bank_of_watch (hb : b < 0x00070600) (x : Master) : b ≠ bank x.id a := by
  have hm : 3 ≤ x.id := by cases x <;> decide
  unfold bank
  omega

/-- R55: an accepted write of JNL_WSTAMP_HI commits. -/
theorem execCommitHighWord_jnlWstampHi {x : Master} (hheld : s.heldReset = false)
    (hok : s.writeOk x.id A.jnlWstampHi w = true) (hwatch : s.watched A.jnlWstampHi = false) :
    exec (.commitHighWord x (BitVec.ofNat 32 A.jnlWstampHi) w) s = .next (s.commitHigh x.id A.jnlWstampHi w) := by
  have hun : (s.commitHigh x.id A.jnlWstampHi w).watched A.jnlWstampHi = false := by
    rw [← hwatch]
    refine watched_congr fun b _ hb => commitHigh_reg_ne ?_ ?_
    · exact ne_bank_of_watch hb x
    · exact ne_bank_of_watch hb x
  have hexec := masterWrite_of_ok hheld (by decide) hok
  rwa [regWritten_jnlWstampHi, writeSeen_eq_self hun (by decide)] at hexec

end Types

/-- Settles O31: an event by its flag and its SEQ, a locked register by the list of those, a pair by what is staged. -/
theorem registerTypes : Obligations.RegisterTypes := by
  refine ⟨fun s a i j h hi hj => ?_, fun s m q w v hheld hok h hwatch => ?_, fun s m lo hi h hheld hlo hhi => ?_⟩
  · have hflag : ∀ {n : Nat}, n < 24 → Flag ⟨n, n⟩ := fun hn => ⟨Nat.le_refl _, hn⟩
    refine ⟨event_flag h (hflag hi) rfl, fun hne => ?_, event_seq_byte h hi, fun b hb => reg_event_ne hb, rfl⟩
    exact event_other h (hflag hi) (hflag hj) (Nat.lt_or_gt_of_ne hne.symm)
  · obtain ⟨t, hexec, hlock, hmem⟩ := execLkFieldWrite_trpLock hheld hok h hwatch
    exact ⟨t, hexec, hlock, writeOk_of_locked rfl rfl hmem⟩
  · refine ⟨fun hok => ⟨_, execStageLowWord_jnlWstampLo hheld hok hlo, rfl, fun hok' =>
      ⟨_, execCommitHighWord_jnlWstampHi hheld hok' hhi, ?_⟩⟩,
      fun hnone hok => ⟨_, execCommitHighWord_jnlWstampHi hheld hok hhi, ?_⟩⟩
    · exact ⟨commitHigh_reg_low_of_staged h (by decide) (stageLow_find s m.id A.jnlWstampLo lo),
        commitHigh_reg_high h, fun b hlo hhi =>
          commitHigh_reg_ne (s := s.stageLow m.id A.jnlWstampLo lo) (a := A.jnlWstampHi) hlo hhi⟩
    · have hfind : (s.staged.find? fun x => x.1 == bank m.id A.jnlWstampLo) = none :=
        List.find?_eq_none.2 fun x hx => by simpa [bank] using List.all_eq_true.1 hnone x hx
      exact ⟨commitHigh_reg_low_of_unstaged (by decide) hfind, commitHigh_reg_high h⟩

end Sys2Proof.Proofs
end

section
/-! SUPPORT. The node after reset (R48, R79, R583, R585): what its lanes, its threads and its terminals read as. -/

namespace Sys2Proof.Proofs

open Sys2Proof.Machine Sys2Proof.Laws

/-- Nothing is listed, so the form is canonical. -/
theorem canonical_reset : canonical State.reset = true := by
  rw [canonical_iff]
  refine ⟨rfl, rfl, ⟨rfl, rfl⟩, rfl, fun ln hln => ?_⟩
  rw [List.eq_of_mem_replicate hln]
  rfl

theorem lane_reset (l : LaneId) : State.reset.lane l = LaneSt.reset := List.getD_replicate _ l.isLt

theorem thread_reset (l : LaneId) (t : ThreadId) : State.reset.thread l t = Thread.idle := by
  rw [State.thread, lane_reset]
  exact List.getD_replicate _ t.isLt

theorem fresh_get (pc : Nat) (r : Reg) : (Cpu.fresh pc).get r = TWord.zero := by
  rw [Cpu.get]
  split
  · rfl
  · exact List.getD_replicate _ r.isLt

/-- Every terminal is off and its switches are open, by the rows of its registers. -/
theorem terminal_reset : ∀ n : Term, State.reset.fld (A.trmMode n) F.trmMode_mode = 0 ∧
    State.reset.fld (A.trmState n) F.trmState_modeact = 0 ∧ State.reset.fld (A.trmState n) F.trmState_sw = 0 ∧
    State.reset.fld (A.trmState n) F.trmState_loopsw = 0 := by decide +kernel

/-- The registers of the timebase, the reset's cause and the identification, by their rows. -/
theorem registers_reset : State.reset.fld A.tmbState F.tmbState_tbcrun = 0 ∧
    State.reset.fld A.supReset F.supReset_cause = 1 ∧ State.reset.reg A.idIsa = 0x101#32 ∧
    State.reset.reg A.idBlkId = 0x10100#32 := by decide +kernel

/-- Settles O6: registers by their rows, lanes and threads as copies of the idle one, the rest empty as written. -/
theorem resetState : Obligations.ResetState := by
  obtain ⟨hrun, hcause, hisa, hblk⟩ := registers_reset
  refine ⟨canonical_reset, rfl, rfl, hrun, hcause, hisa, hblk, rfl, fun l => ?_, fun l t r => ?_, terminal_reset,
    rfl, rfl, rfl, rfl, rfl, rfl, rfl, rfl, rfl, rfl, rfl⟩
  · rw [lane_reset]
    exact ⟨rfl, rfl, rfl⟩
  · rw [thread_reset]
    exact fresh_get 0 r

end Sys2Proof.Proofs
end

section
/-! SUPPORT. Power, reset and clocks (R61, R567 to R585): the commands of the supply, one equation per case. -/

namespace Sys2Proof.Proofs

open Sys2Proof.Machine Sys2Proof.Laws

section Cases

variable {s t u : State} {a : Nat} {f : Fld}

/-! ## Choices -/

theorem next_of_pos {c : Prop} [Decidable c] (h : c) : (.next (if c then t else u) : Out) = .next t :=
  congrArg _ (if_pos h)

theorem next_of_neg {c : Prop} [Decidable c] (h : ¬c) : (.next (if c then t else u) : Out) = .next u :=
  congrArg _ (if_neg h)

theorem bit_eq_true (h : s.fld a f = 1) : s.bit a f = true := decide_eq_true h

theorem not_bit (h : s.fld a f ≠ 1) : ¬s.bit a f = true := fun hbit => h (of_decide_eq_true hbit)

theorem bit_eq_false (h : s.fld a f ≠ 1) : s.bit a f = false := decide_eq_false h

/-! ## Inputs (R568, R579) -/

section Inputs

variable {x : SupplyInput} {v : BitVec 16}

theorem execInputPresent_of_held (hphase : s.phase ≠ 4) (hheld : s.sup.held.isSome = true) :
    execInputPresent x v s = .next (((s.modSup fun p => { p with held := none }).setStage
      (if s.fld A.supState F.supState_railsok = 1 ∧ s.sup.pinLow = false then 1 else 0)).markPresent x v) := by
  have hok : (s.bit A.supState F.supState_railsok && !s.sup.pinLow) = true ↔
      s.fld A.supState F.supState_railsok = 1 ∧ s.sup.pinLow = false := by simp [State.bit]
  rw [execInputPresent, if_neg hphase, if_pos hheld]
  simp only [modSup_bit, modSup_sup, hok]

theorem execInputPresent_of_returned (hphase : s.phase ≠ 4) (hheld : s.sup.held = none)
    (hseen : s.sup.seen.contains x.val = true) (hok : s.fld A.supState (inputOk x) ≠ 1) :
    let back := (s.event A.supStatus (if x.val = 0 then F.supStatus_vinaret else F.supStatus_vinbret)).supplyEvent
      (3 + x.val) v.toNat
    execInputPresent x v s =
      .next ((if back.phase = 3 then back.modSup fun p => { p with returned := true } else back).markPresent x v) := by
  have hback : (s.sup.seen.contains x.val && !s.bit A.supState (inputOk x)) = true := by
    rw [hseen, bit_eq_false hok]
    rfl
  have hfree : ¬s.sup.held.isSome = true := by simp [hheld]
  rw [execInputPresent, if_neg hphase, if_neg hfree]
  simp only [if_pos hback]

theorem execInputPresent_of_known (hphase : s.phase ≠ 4) (hheld : s.sup.held = none)
    (hknown : s.sup.seen.contains x.val = false ∨ s.fld A.supState (inputOk x) = 1) :
    execInputPresent x v s =
      .next ((if s.phase = 3 then s.modSup fun p => { p with returned := true } else s).markPresent x v) := by
  have hback : ¬(s.sup.seen.contains x.val && !s.bit A.supState (inputOk x)) = true := by
    rcases hknown with hseen | hok
    · simp only [hseen, Bool.false_and, Bool.false_eq_true, not_false_eq_true]
    · simp [bit_eq_true hok]
  have hfree : ¬s.sup.held.isSome = true := by simp [hheld]
  rw [execInputPresent, if_neg hphase, if_neg hfree]
  simp only [if_neg hback]

end Inputs

/-! ## The field supply's limit (R572) -/

section FieldLimit

variable {v : BitVec 16}

theorem fieldLimit_of_external (h : s.fld A.supState F.supState_fldext = 1) (now : Bool) :
    s.fieldLimit now v = s := if_pos (by simp [bit_eq_true h])

theorem fieldLimit_of_same {now : Bool} (h : s.bit A.supState F.supState_fldilimnow = now) :
    s.fieldLimit now v = s := if_pos (by simp [h])

theorem fieldLimit_begins (hext : s.fld A.supState F.supState_fldext ≠ 1)
    (h : s.bit A.supState F.supState_fldilimnow = false) :
    let shown := (s.setBit A.supState F.supState_fldilimnow true).setFld A.supFld F.supFld_ifld v.toNat
    s.fieldLimit true v = ((shown.event A.supStatus F.supStatus_fldilim).report 4 0).supplyEvent 9 v.toNat :=
  if_neg (by simp [bit_eq_false hext, h])

theorem fieldLimit_ends (hext : s.fld A.supState F.supState_fldext ≠ 1)
    (h : s.bit A.supState F.supState_fldilimnow = true) :
    let shown := (s.setBit A.supState F.supState_fldilimnow false).setFld A.supFld F.supFld_ifld v.toNat
    s.fieldLimit false v = shown.supplyEvent 10 v.toNat :=
  if_neg (by simp [bit_eq_false hext, h])

end FieldLimit

/-! ## Fuses (R61, R545) -/

section Fuses

variable (hstage : s.stage' = 1) (hsensed : s.sup.sensed = false)
include hstage hsensed

theorem execFuseSensingEnd_of_ready (ok : Bool) :
    let sensed := (s.setBit A.idFuse F.idFuse_senseok ok).modSup fun p => { p with sensed := true }
    let keyed := sensed.showUnkeyed
    execFuseSensingEnd ok s = .next (if ok then
      (if keyed.bit A.idFuse F.idFuse_keyset then keyed else keyed.report 73 0).clocksUp else sensed) :=
  next_of_pos ⟨hstage, by simp [hsensed]⟩

/-- The node told its fuses are good: it shows whether it holds a key, and reports that it holds none (R61, R545). -/
theorem execFuseSensingEnd_true :
    let keyed := ((s.setBit A.idFuse F.idFuse_senseok true).modSup fun p => { p with sensed := true }).showUnkeyed
    (keyed.fld A.idFuse F.idFuse_keyset = 1 → execFuseSensingEnd true s = .next keyed.clocksUp) ∧
    (keyed.fld A.idFuse F.idFuse_keyset ≠ 1 → execFuseSensingEnd true s = .next (keyed.report 73 0).clocksUp) := by
  intro keyed
  have hend : execFuseSensingEnd true s =
      .next (if keyed.bit A.idFuse F.idFuse_keyset then keyed else keyed.report 73 0).clocksUp :=
    execFuseSensingEnd_of_ready hstage hsensed true
  refine ⟨fun hkey => ?_, fun hkey => ?_⟩
  · rw [hend, if_pos (bit_eq_true hkey)]
  · rw [hend, if_neg (not_bit hkey)]

end Fuses

/-! ## Island clocks (R584) -/

section Islands

variable {i : Fin 16} {edge : Bool} {err : BitVec 16} {dcos : List (BitVec 16)}

theorem execIslandClockMeasure_of_plain (h : i.val ≤ 2 ∨ i.val = 15) :
    execIslandClockMeasure i edge err dcos s = .next (s.setFld (A.tmbIsl i) F.tmbIsl_err err.toNat) := by
  rw [execIslandClockMeasure]
  dsimp only
  rw [if_neg (by omega), if_neg (by omega), if_pos h]

theorem execIslandClockMeasure_of_backup (h : i.val = 14) :
    let shown := s.setFld (A.tmbIsl 14) F.tmbIsl_err err.toNat
    execIslandClockMeasure i edge err dcos s =
      .next (if 1000 < err.toInt.natAbs then shown.islandFails 14 else shown) := by
  rw [execIslandClockMeasure]
  dsimp only
  rw [if_neg (by omega), if_neg (by omega), if_neg (by omega), if_pos h]
  rfl

theorem execIslandClockMeasure_of_trimmed (h : i.val = 4 ∨ i.val = 5 ∨ 7 ≤ i.val ∧ i.val ≤ 13) :
    execIslandClockMeasure i edge err dcos s = .next (s.measureIsland i edge err) := by
  rw [execIslandClockMeasure]
  dsimp only
  rw [if_neg (by omega), if_neg (by omega), if_neg (by omega), if_neg (by omega)]

end Islands

end Cases

/-- Settles O60: each command by the case of its condition. -/
theorem powerAndReset : Obligations.PowerAndReset := by
  refine ⟨fun s x v => ?_, fun s ext ok edge rail v err i dcos => ?_⟩
  · intro ok vin on mark back freed lost declared powered posted reopened rode held failed
    refine ⟨fun h => next_of_pos h, execInputPresent_of_held,
      fun h hheld => ⟨execInputPresent_of_returned h hheld, execInputPresent_of_known h hheld⟩,
      fun h hother => (next_of_pos (bit_eq_true h)).trans (next_of_pos (bit_eq_true hother)),
      fun h hother => (next_of_pos (bit_eq_true h)).trans (next_of_neg (not_bit hother)),
      fun h => next_of_neg (not_bit h),
      rfl,
      fun h => next_of_pos (by simpa [State.bit, or_assoc] using h),
      fun ha hb hphase => next_of_neg (by simp [bit_eq_false ha, bit_eq_false hb, hphase]),
      fun h => next_of_pos h,
      fun h => next_of_neg (by omega),
      fun h => next_of_pos h,
      fun h => next_of_neg h,
      fun h => next_of_pos (bit_eq_true h),
      fun h => ⟨next_of_neg (by simp [bit_eq_false h]), next_of_neg (not_bit h)⟩,
      fun h hshed => next_of_pos (by simp [bit_eq_true h, hshed]),
      fun h => next_of_pos h,
      fun h => next_of_neg h,
      fun h hreturned => next_of_pos ⟨h, hreturned⟩,
      fun h => next_of_neg (by rcases h with h | h <;> simp [h])⟩
  · intro on out down limit sensed keyed locked broken shown free
    refine ⟨fun h => next_of_pos (h.imp_right fun ⟨hstage, hrails⟩ => ⟨hstage, not_bit hrails⟩),
      fun hstage hheld hpin hrails => next_of_pos ⟨hstage, hheld, by simp [hpin], not_bit hrails⟩,
      fun h => next_of_neg fun ⟨_, _, _, hrails⟩ => hrails (bit_eq_true h),
      fun h => next_of_pos h,
      fun h => next_of_neg h,
      fun h => next_of_pos h,
      fun h => next_of_neg h,
      fun hext h => ?_, fun hext h => ?_, fun hext => ?_, fun hstage hsensed => ?_,
      fun h => next_of_neg fun ⟨hstage, _⟩ => h hstage,
      fun hrails hlock => next_of_pos (by simp [bit_eq_true hrails, bit_eq_false hlock]),
      fun h => next_of_neg ?_,
      fun h => next_of_pos h,
      fun h => next_of_neg (by omega),
      fun h => next_of_pos (bit_eq_true h),
      fun h => next_of_neg (not_bit h),
      ?_, ?_, ?_, ?_, ?_, ?_,
      rfl,
      fun h => next_of_neg (by simp [h]),
      fun hpin => ⟨fun hheld hrails => (next_of_pos hpin).trans (next_of_pos ⟨hheld, bit_eq_true hrails⟩),
        fun h => (next_of_pos hpin).trans (next_of_neg ?_)⟩⟩
    · have hoff : s.bit A.supState F.supState_fldilimnow = false := by rw [State.bit, h]; rfl
      exact ⟨congrArg _ (fieldLimit_begins hext hoff), congrArg _ (fieldLimit_of_same hoff)⟩
    · have hnow := bit_eq_true h
      exact ⟨congrArg _ (fieldLimit_of_same hnow), congrArg _ (fieldLimit_ends hext hnow)⟩
    · exact ⟨congrArg _ (fieldLimit_of_external hext true), congrArg _ (fieldLimit_of_external hext false)⟩
    · refine ⟨?_, ?_, ?_⟩
      · rintro rfl
        exact execFuseSensingEnd_of_ready hstage hsensed false
      · rintro rfl
        exact (execFuseSensingEnd_true hstage hsensed).1
      · rintro rfl
        exact (execFuseSensingEnd_true hstage hsensed).2
    · rcases h with hrails | hlock
      · simp [bit_eq_false hrails]
      · simp [bit_eq_true hlock]
    · rintro rfl
      exact next_of_pos rfl
    · exact fun h => execIslandClockMeasure_of_plain (h.imp id (congrArg Fin.val))
    · rintro rfl
      rfl
    · rintro rfl hle
      exact (execIslandClockMeasure_of_backup rfl).trans (next_of_neg (Nat.not_lt.2 hle))
    · rintro rfl hlt
      exact (execIslandClockMeasure_of_backup rfl).trans (next_of_pos hlt)
    · exact fun h => execIslandClockMeasure_of_trimmed (h.imp (congrArg Fin.val) (Or.imp_left (congrArg Fin.val)))
    · rintro ⟨hheld, hrails⟩
      exact h.elim (· hheld) (· (of_decide_eq_true hrails))

end Sys2Proof.Proofs
end

section
/-! SUPPORT. Group supplies and the protections of terminals (R75, R76, R82 to R84, R100): one equation per case. -/

namespace Sys2Proof.Proofs

open Sys2Proof.Machine Sys2Proof.Laws

section Cases

variable {s : State} {a n : Nat} {f : Fld} {t : Term}

/-! ## Group supplies (R75, R76, R100) -/

theorem setBit_decide (s : State) (a : Nat) (f : Fld) (p : Prop) [Decidable p] :
    s.setBit a f (decide p) = s.setFld a f (if p then 1 else 0) := by
  simp only [State.setBit, decide_eq_true_eq]

/-- The state that shows a measurement of group g: its voltage, its current, whether that is too high, and the currents
of its terminals (R75, R76, R100). -/
def groupMeasured (s : State) (g : GroupId) (v i : BitVec 16) (iout : List (BitVec 16)) : State :=
  let s1 := (s.setFld (A.trmGmeas (8 * g.val)) F.trmGmeas_vfld v.toNat).setFld (A.trmGmeas (8 * g.val))
    F.trmGmeas_ifld i.toNat
  let s2 := s1.setFld (A.trmGstate (8 * g.val)) F.trmGstate_overnow (if 3000 < i.toNat then 1 else 0)
  (List.range 8).foldl (fun s k => s.measureOut (8 * g.val + k) (iout.getD k 0)) s2

/-- The undervoltage threshold of group g in mV (R75). -/
def supplyThreshold (s : State) (g : GroupId) : Nat := 12000 + 500 * s.fld (A.trmGcfg (8 * g.val)) F.trmGcfg_uv

/-- A measurement is shown, and the group's presence follows it with 1 V of hysteresis. -/
theorem execGroupMeasurement_eq (g : GroupId) (v i : BitVec 16) (iout : List (BitVec 16)) (s : State) :
    let u := groupMeasured s g v i iout
    execGroupMeasurement g v i iout s = .next (
      if u.present g then (if v.toNat + 1000 < supplyThreshold u g then u.supplyLost g else u)
      else if supplyThreshold u g ≤ v.toNat then u.supplyBack g else u) := by
  simp only [execGroupMeasurement, setBit_decide]
  rfl

section Presence

variable {g : GroupId} {v i : BitVec 16} {iout : List (BitVec 16)}

theorem execGroupMeasurement_of_present
    (h : (groupMeasured s g v i iout).fld (A.trmGstate (8 * g.val)) F.trmGstate_fldok = 1) :
    let u := groupMeasured s g v i iout
    execGroupMeasurement g v i iout s =
      .next (if v.toNat + 1000 < supplyThreshold u g then u.supplyLost g else u) :=
  (execGroupMeasurement_eq g v i iout s).trans (next_of_pos (bit_eq_true h))

theorem execGroupMeasurement_of_absent
    (h : (groupMeasured s g v i iout).fld (A.trmGstate (8 * g.val)) F.trmGstate_fldok ≠ 1) :
    let u := groupMeasured s g v i iout
    execGroupMeasurement g v i iout s = .next (if supplyThreshold u g ≤ v.toNat then u.supplyBack g else u) :=
  (execGroupMeasurement_eq g v i iout s).trans (next_of_neg (not_bit h))

end Presence

/-! ## Mis-wiring (R82, R83) -/

theorem execMiswireDetect_of_clear (h : s.fld (A.trmState t.val) F.trmState_miswirenow ≠ 1) :
    let opened := ((s.setFld (A.trmState t.val) F.trmState_miswirenow 1).openDriven t.val).dropLoop t.val
    let u := opened.leaveTerminal t.val .bad none
    execMiswireDetect t s = .next
      ((s.noteDriver ((u.flagBoth t.val F.trmStatus_miswire).report 20 t.val) t.val).evalTrips) :=
  next_of_neg (not_bit h)

theorem execMiswireDetect_of_miswired (h : s.fld (A.trmState t.val) F.trmState_miswirenow = 1) :
    execMiswireDetect t s = .next s := next_of_pos (bit_eq_true h)

theorem execMiswireClear_of_clear (h : s.fld (A.trmState t.val) F.trmState_miswirenow ≠ 1) :
    execMiswireClear t s = .next s := next_of_neg (not_bit h)

theorem execMiswireClear_of_miswired (h : s.fld (A.trmState t.val) F.trmState_miswirenow = 1) :
    execMiswireClear t s = .next ((((s.setFld (A.trmState t.val) F.trmState_miswirenow 0).recloseDriven
      t.val).requestLoop t.val).evalTrips) := next_of_pos (bit_eq_true h)

/-! ## Overtemperature (R84) -/

theorem execOvertempShutdown_of_cool (h : s.fld (A.trmState t.val) F.trmState_overtempnow ≠ 1) :
    execOvertempShutdown t s = .next (s.noteDriver
      ((((s.setFld (A.trmState t.val) F.trmState_overtempnow 1).openDriven t.val).flagBoth t.val
        F.trmStatus_overtemp).report 21 t.val) t.val) := next_of_neg (not_bit h)

theorem execOvertempShutdown_of_hot (h : s.fld (A.trmState t.val) F.trmState_overtempnow = 1) :
    execOvertempShutdown t s = .next s := next_of_pos (bit_eq_true h)

theorem execThermalRestart_of_cool (h : s.fld (A.trmState t.val) F.trmState_overtempnow ≠ 1) :
    execThermalRestart t s = .next s := next_of_neg (not_bit h)

theorem execThermalRestart_of_hot (h : s.fld (A.trmState t.val) F.trmState_overtempnow = 1) :
    execThermalRestart t s =
      .next ((s.setFld (A.trmState t.val) F.trmState_overtempnow 0).recloseDriven t.val) :=
  next_of_pos (bit_eq_true h)

end Cases

/-- Settles O39: a measurement by the group's presence, each protection by whether it is taken already. -/
theorem terminalProtection : Obligations.TerminalProtection := by
  refine ⟨fun s g v i iout => ?_, fun s t => ⟨fun h => ?_, fun h => ?_, fun h => ?_, fun h => ?_⟩⟩
  · exact ⟨fun hthere hlow => (execGroupMeasurement_of_present hthere).trans (next_of_pos hlow),
      fun hthere hkept => (execGroupMeasurement_of_present hthere).trans (next_of_neg (Nat.not_lt.2 hkept)),
      fun hgone hback => (execGroupMeasurement_of_absent hgone).trans (next_of_pos hback),
      fun hgone hlow => (execGroupMeasurement_of_absent hgone).trans (next_of_neg (Nat.not_le.2 hlow)),
      _, rfl, rfl, rfl, _, rfl, rfl, rfl, rfl⟩
  · exact ⟨execMiswireDetect_of_clear h, execMiswireClear_of_clear h⟩
  · exact ⟨execMiswireDetect_of_miswired h, execMiswireClear_of_miswired h⟩
  · exact ⟨execOvertempShutdown_of_cool h, execThermalRestart_of_cool h⟩
  · exact ⟨execOvertempShutdown_of_hot h, execThermalRestart_of_hot h⟩

end Sys2Proof.Proofs
end

section
/-! SUPPORT. Digital inputs (R87 to R91, R362): their cells, their level and its debounce, one equation per case. -/

namespace Sys2Proof.Proofs

open Sys2Proof.Machine Sys2Proof.Laws

section Cases

variable {s : State} {a n : Nat} {t : Term} {level : Bool}

/-! ## One-bit fields -/

section Flags

variable {f g : Fld} (hf : f.hi = f.lo)
include hf

/-- A one-bit field shows its bit. -/
theorem fld_eq_bit (s : State) (a : Nat) : s.fld a f = if s.bit a f then 1 else 0 := by
  obtain ⟨j, k⟩ := f
  obtain rfl : j = k := hf
  have hget : s.fld a ⟨j, j⟩ = ((s.reg a).getLsbD j).toNat := flag_get (s.reg a) j
  rw [State.bit, hget]
  cases (s.reg a).getLsbD j <;> rfl

/-- A one-bit field shows a level where its bit is that level. -/
theorem fld_eq_level_iff (b : Bool) : s.fld a f = (if b then 1 else 0) ↔ s.bit a f = b := by
  rw [fld_eq_bit hf]
  cases s.bit a f <;> cases b <;> simp

/-- Two one-bit fields are equal where their bits are. -/
theorem fld_eq_fld_iff (hg : g.hi = g.lo) : s.fld a f = s.fld a g ↔ s.bit a f = s.bit a g := by
  rw [fld_eq_bit hg, fld_eq_level_iff hf]

/-- A bit copied from a one-bit field is the field copied. -/
theorem setBit_bit (s u : State) (a b : Nat) (g : Fld) : u.setBit a g (s.bit b f) = u.setFld a g (s.fld b f) := by
  rw [State.setBit, fld_eq_bit hf]

end Flags

/-! ## Cells -/

/-- The state with cell n replaced. -/
def putCell (s : State) (n : Nat) (c : Cell) : State :=
  { s with field := { s.field with cells := s.field.cells.set n c } }

/-- A changed cell is written in its place, also in a state that has the cells of `s`. -/
theorem modCell_eq_putCell {u : State} (hu : u.field = s.field) (h : n < s.field.cells.length) (g : Cell → Cell) :
    u.modCell n g = putCell u n (g (s.cell n)) := by
  rw [← hu] at h
  have hcell : s.cell n = u.field.cells[n] := by rw [State.cell, ← hu, List.getD_eq_getElem _ _ h]
  have hset : u.field.cells.modify n g = u.field.cells.set n (g (s.cell n)) := by
    rw [List.modify_eq_set_get g h, hcell, List.get_eq_getElem]
  rw [State.modCell, State.modField, hset]
  rfl

/-! ## Crossings and levels (R87, R88, R362) -/

theorem execDiThresholdCrossing_of_mode (h : s.inMode t.val 1 = true) (level : Bool) :
    execDiThresholdCrossing t level s = .next (s.modCell t.val fun c =>
      if level then { c with raw := true, rise := s.tbc } else { c with raw := false, fall := s.tbc }) :=
  next_of_pos h

/-- The stamp of the crossing that produced a level (R88). -/
def crossingOf (c : Cell) (level : Bool) : Stamp := if level then c.rise else c.fall

/-- The state that shows a changed level of terminal n. -/
def levelShown (s : State) (n : Nat) (level : Bool) : State :=
  s.setFld (A.trmState n) F.trmState_level (if level then 1 else 0)

/-- The state that shows a changed level of terminal n and opens an episode at its crossing (R88). -/
def episodeOpened (s : State) (n : Nat) (level : Bool) : State :=
  (levelShown s n level).modCell n fun c =>
    { c with episode := some ⟨crossingOf (s.cell n) level, s.fld (A.trmDeb n) F.trmDeb_deb⟩ }

/-- No episode opens while the initial level is awaited, while one is open, or where the input shows the level. -/
def noEpisode (s : State) (n : Nat) (level : Bool) : Bool :=
  (s.cell n).initial || (s.cell n).episode.isSome || level == s.bit (A.trmState n) F.trmState_di

theorem noEpisode_iff : noEpisode s n level = true ↔ (s.cell n).initial = true ∨ (s.cell n).episode ≠ none ∨
    s.fld (A.trmState n) F.trmState_di = if level then 1 else 0 := by
  rw [noEpisode, fld_eq_level_iff rfl, Bool.or_eq_true, Bool.or_eq_true, beq_iff_eq, Option.isSome_iff_ne_none,
    or_assoc, eq_comm (a := level)]

section Change

variable (hmode : s.inMode t.val 1 = true)
  (hlevel : s.fld (A.trmState t.val) F.trmState_level ≠ if level then 1 else 0)
include hmode hlevel

theorem execFilteredLevelChange_of_change :
    execFilteredLevelChange t level s = .next (if noEpisode s t.val level then levelShown s t.val level
      else episodeOpened s t.val level).evalTrips := by
  have hbit : s.bit (A.trmState t.val) F.trmState_level ≠ level := fun h => hlevel ((fld_eq_level_iff rfl level).2 h)
  have hgo : (s.inMode t.val 1 && s.bit (A.trmState t.val) F.trmState_level != level) = true := by
    rw [hmode, bne_iff_ne.2 hbit, Bool.and_true]
  exact next_of_pos hgo

theorem execFilteredLevelChange_opens (hno : ¬noEpisode s t.val level = true) :
    execFilteredLevelChange t level s = .next (episodeOpened s t.val level).evalTrips := by
  rw [execFilteredLevelChange_of_change hmode hlevel, if_neg hno]

theorem execFilteredLevelChange_shows (hno : noEpisode s t.val level = true) :
    execFilteredLevelChange t level s = .next (levelShown s t.val level).evalTrips := by
  rw [execFilteredLevelChange_of_change hmode hlevel, if_pos hno]

end Change

/-! ## The ends of an episode and of the initial level (R87, R89) -/

theorem execDiInitialLevel_of_awaited (hmode : s.inMode t.val 1 = true) (h : (s.cell t.val).initial = true) :
    execDiInitialLevel t s = .next ((s.setFld (A.trmState t.val) F.trmState_di
      (s.fld (A.trmState t.val) F.trmState_level)).modCell t.val fun c => { c with initial := false }) := by
  have hgo : (s.inMode t.val 1 && (s.cell t.val).initial) = true := by rw [hmode, h, Bool.and_true]
  rw [← setBit_bit rfl]
  exact next_of_pos hgo

section Expiry

variable {e : Episode} (h : (s.cell t.val).episode = some e)
include h

theorem execDebounceExpiry_of_episode :
    let u := s.modCell t.val fun c => { c with episode := none }
    let shown := s.bit (A.trmState t.val) F.trmState_level
    execDebounceExpiry t s = .next (
      if shown == s.bit (A.trmState t.val) F.trmState_di then u.satInc (A.trmCnt t.val) F.trmCnt_glitches
      else ((u.setBit (A.trmState t.val) F.trmState_di shown).releaseEdge t.val shown e.stamp).termEvent t.val
        F.trmStatus_dichange) := by
  rw [execDebounceExpiry, h]

theorem execDebounceExpiry_of_restored
    (heq : s.fld (A.trmState t.val) F.trmState_level = s.fld (A.trmState t.val) F.trmState_di) :
    execDebounceExpiry t s = .next
      ((s.modCell t.val fun c => { c with episode := none }).satInc (A.trmCnt t.val) F.trmCnt_glitches) :=
  (execDebounceExpiry_of_episode h).trans (next_of_pos (beq_iff_eq.2 ((fld_eq_fld_iff rfl rfl).1 heq)))

theorem execDebounceExpiry_of_changed
    (hne : s.fld (A.trmState t.val) F.trmState_level ≠ s.fld (A.trmState t.val) F.trmState_di) :
    execDebounceExpiry t s = .next
      ((((s.modCell t.val fun c => { c with episode := none }).setFld (A.trmState t.val) F.trmState_di
        (s.fld (A.trmState t.val) F.trmState_level)).releaseEdge t.val
          (decide (s.fld (A.trmState t.val) F.trmState_level = 1)) e.stamp).termEvent t.val F.trmStatus_dichange) := by
  have hgo := mt (fun heq => (fld_eq_fld_iff rfl rfl).2 (beq_iff_eq.1 heq)) hne
  rw [← setBit_bit rfl]
  exact (execDebounceExpiry_of_episode h).trans (next_of_neg hgo)

end Expiry

end Cases

/-- Settles O40: each event by its case, with the changed cell written in its place. -/
theorem digitalInputs : Obligations.DigitalInputs := by
  intro s t level e _ hlen n state c put num shown di
  have hput : ∀ (u : State) (g : Cell → Cell), u.field = s.field → u.modCell n g = putCell u n (g (s.cell n)) :=
    fun u g hu => modCell_eq_putCell hu (by rw [hlen]; exact t.isLt) g
  refine ⟨fun hmode => ⟨?_, ?_, fun hlevel => ⟨fun hinit hnone hdi => ?_, fun h => ?_⟩, fun hinit => ?_⟩,
    fun he => ⟨fun heq => ?_, fun hne => ?_⟩⟩
  · exact (execDiThresholdCrossing_of_mode hmode true).trans (congrArg _ (hput s _ rfl))
  · exact (execDiThresholdCrossing_of_mode hmode false).trans (congrArg _ (hput s _ rfl))
  · have hno : ¬noEpisode s n level = true := by
      rw [noEpisode_iff]
      exact not_or.2 ⟨Bool.eq_false_iff.1 hinit, not_or.2 ⟨not_not.2 hnone, hdi⟩⟩
    have hopens := execFilteredLevelChange_opens hmode hlevel hno
    rw [episodeOpened, hput (levelShown s n level) _ rfl] at hopens
    exact hopens
  · exact execFilteredLevelChange_shows hmode hlevel (noEpisode_iff.2 h)
  · exact (execDiInitialLevel_of_awaited hmode hinit).trans (congrArg _ (hput _ _ rfl))
  · have hend := execDebounceExpiry_of_restored he heq
    rw [hput s _ rfl] at hend
    exact hend
  · have hend := execDebounceExpiry_of_changed he hne
    rw [hput s _ rfl] at hend
    exact hend

end Sys2Proof.Proofs
end

section
/-! SUPPORT. Edges released to the TSU (R90 to R92): one equation per case, and what each leaves in TSU_LEVEL. -/

namespace Sys2Proof.Proofs

open Sys2Proof.Machine Sys2Proof.Laws

section Cases

variable {s : State} {n : Nat} {rising : Bool} {stamp : Stamp}

/-- Whether the edge selection of terminal n passes an edge of this direction (R90). -/
def edgePassed (s : State) (n : Nat) (rising : Bool) : Prop :=
  let sel := s.fld (A.trmDi n) F.trmDi_edge
  if rising then sel % 2 = 1 else sel / 2 = 1

/-- The state in which an edge is discarded: LOST counts it, OVERFLOW is set and the next entry is to carry the mark. -/
def edgeDiscarded (s : State) : State :=
  ((s.satInc A.tsuLevel F.tsuLevel_lost).event A.tsuStatus F.tsuStatus_overflow).modField
    fun f => { f with lostMark := true }

/-- The SOURCE of a ring-104 record: the LOST mark, the direction and the terminal. -/
def edgeSource (s : State) (n : Nat) (rising : Bool) : Nat :=
  (if s.field.lostMark then 32768 else 0) + (if rising then 16384 else 0) + n

/-- The state in which an edge becomes an entry of the FIFO. -/
def edgeAccepted (s : State) (n : Nat) (rising : Bool) (stamp : Stamp) : State :=
  ((s.inc A.tsuLevel F.tsuLevel_level).modField fun f => { f with lostMark := false }).send
    (mkRec 104 0x10 (edgeSource s n rising) TWord.zero 0 stamp islandTerm)

/-! ## The three ends of an edge -/

theorem releaseEdge_of_not_passed (h : ¬edgePassed s n rising ∨ s.fld A.tsuCtrl F.tsuCtrl_en = 0) :
    s.releaseEdge n rising stamp = s := if_pos h

section Passed

variable (hpass : edgePassed s n rising) (hen : s.fld A.tsuCtrl F.tsuCtrl_en = 1)
include hpass hen

theorem edge_goes : ¬(¬edgePassed s n rising ∨ s.fld A.tsuCtrl F.tsuCtrl_en = 0) := by
  rw [hen]
  exact not_or.2 ⟨not_not.2 hpass, Nat.one_ne_zero⟩

theorem releaseEdge_of_full (hfull : 256 ≤ s.fld A.tsuLevel F.tsuLevel_level) :
    s.releaseEdge n rising stamp = edgeDiscarded s :=
  (if_neg (edge_goes hpass hen)).trans (if_pos hfull)

theorem releaseEdge_of_room (hroom : s.fld A.tsuLevel F.tsuLevel_level < 256) :
    s.releaseEdge n rising stamp = edgeAccepted s n rising stamp :=
  (if_neg (edge_goes hpass hen)).trans (if_neg (Nat.not_le.2 hroom))

end Passed

/-! ## TSU_LEVEL and TSU_STATUS -/

theorem edgeAccepted_level (h : canonical s = true) (hroom : s.fld A.tsuLevel F.tsuLevel_level < 256) :
    (edgeAccepted s n rising stamp).fld A.tsuLevel F.tsuLevel_level = s.fld A.tsuLevel F.tsuLevel_level + 1 :=
  fld_setFld h ⟨by decide, by decide⟩ (Nat.lt_trans (Nat.succ_lt_succ hroom) (by decide))

theorem edgeDiscarded_lost (h : canonical s = true) :
    (edgeDiscarded s).fld A.tsuLevel F.tsuLevel_lost =
      Nat.min (s.fld A.tsuLevel F.tsuLevel_lost + 1) F.tsuLevel_lost.max := by
  rw [edgeDiscarded, modField_fld, State.fld, reg_event_ne (by decide)]
  exact fld_satInc h ⟨by decide, by decide⟩

theorem edgeDiscarded_level (h : canonical s = true) :
    (edgeDiscarded s).fld A.tsuLevel F.tsuLevel_level = s.fld A.tsuLevel F.tsuLevel_level := by
  rw [edgeDiscarded, modField_fld, State.fld, reg_event_ne (by decide)]
  exact fld_setFld_apart h ⟨by decide, by decide⟩ (by decide) (.inr (by decide))

theorem edgeDiscarded_overflow (h : canonical s = true) :
    (edgeDiscarded s).fld A.tsuStatus F.tsuStatus_overflow = 1 := by
  rw [edgeDiscarded, modField_fld]
  exact event_flag (canonical_setFld h) ⟨by decide, by decide⟩ rfl

end Cases

/-- Settles O41, by the three ends of an edge. -/
theorem edgeRecords : Obligations.EdgeRecords := by
  intro s t rising stamp h n sel wanted u
  refine ⟨releaseEdge_of_not_passed, fun hpass hen hroom => ?_, fun hpass hen hfull => ?_⟩
  · have hu : u = edgeAccepted s n rising stamp := releaseEdge_of_room hpass hen hroom
    rw [hu]
    exact ⟨rfl, edgeAccepted_level h hroom, rfl⟩
  · have hu : u = edgeDiscarded s := releaseEdge_of_full hpass hen hfull
    rw [hu]
    exact ⟨rfl, rfl, edgeDiscarded_overflow h, edgeDiscarded_lost h, edgeDiscarded_level h⟩

end Sys2Proof.Proofs
end

section
/-! SUPPORT. Switches and loops of terminals (R94 to R108, R371): one equation per case. -/

namespace Sys2Proof.Proofs

open Sys2Proof.Machine Sys2Proof.Laws

section Cases

variable {s : State} {l : Nat} {t : Term}

/-! ## Transitions and orders (R94, R95, R108, R371) -/

/-- The state in which terminal n's transition has ended: its mode is in force and its inputs and current show nothing
(R108). -/
def transitionEnded (s : State) (n : Nat) : State :=
  ((((s.setFld (A.trmState n) F.trmState_modeact (s.fld (A.trmMode n) F.trmMode_mode)).setFld (A.trmState n)
    F.trmState_busy 0).setFld (A.trmState n) F.trmState_level 0).setFld (A.trmState n) F.trmState_di 0).setFld
      (A.trmIout n) F.trmIout_iout 0

theorem execModeTransitionEnd_of_rest (hbusy : s.busy t.val = true) (hsw : s.sw t.val = false)
    (hdemag : s.bit (A.trmState t.val) F.trmState_demag = false) (hstages : s.discharging t.val = false) :
    execModeTransitionEnd t s = .next
      ((((transitionEnded s t.val).termEvent t.val F.trmStatus_modedone).enterMode t.val).evalTrips) :=
  next_of_pos (by rw [hbusy, hsw, hdemag, hstages]; rfl)

theorem execGateOrder_of_leader (h : s.leader t.val = true) :
    execGateOrder t s = .next (s.noteIf
      ((s.showOrder t.val (s.governing t.val)).driveGate t.val (s.governing t.val)) t.val) := next_of_pos h

/-! ## Limits and overload (R97, R104) -/

theorem execCurrentLimitEngage_of_closed (h : s.sw t.val = true) :
    execCurrentLimitEngage t s = .next (s.setFld (A.trmState t.val) F.trmState_limit 1) := next_of_pos h

theorem execCurrentLimitEngage_of_open (h : s.sw t.val = false) : execCurrentLimitEngage t s = .next s :=
  next_of_neg (Bool.eq_false_iff.1 h)

/-- The state in which an overloaded terminal n and the leader that drives it are latched off (R97, R104). -/
def latchedOff (s : State) (n : Nat) : State :=
  let opened := (s.openDriven n).setFld (A.trmState n) F.trmState_offlatched 1
  match s.driver n with
  | some l => opened.setFld (A.trmState l) F.trmState_offlatched 1
  | none => opened

theorem execOverload_of_closed (h : s.sw t.val = true) :
    execOverload t s = .next (s.noteDriver ((((latchedOff s t.val).satInc (A.trmCnt t.val)
      F.trmCnt_overloads).flagBoth t.val F.trmStatus_overload).report 22 t.val) t.val) := next_of_pos h

theorem execOverload_of_open (h : s.sw t.val = false) : execOverload t s = .next s :=
  next_of_neg (Bool.eq_false_iff.1 h)

/-! ## What the driving leader governs (R97, R99, R102, R105) -/

section Driven

variable (hdriver : s.driver t.val = some l)
include hdriver

theorem execOverloadRetry_of_latched (hlatched : s.fld (A.trmState l) F.trmState_offlatched = 1)
    (hcmd : s.fld (A.trmState l) F.trmState_cmd = 1) (hretry : s.fld (A.trmDo l) F.trmDo_retry ≠ 0)
    (hheld : s.heldOpen l = false) :
    execOverloadRetry t s = .next (s.noteIf (s.requestPermit l false) l) := by
  rw [execOverloadRetry, hdriver]
  exact next_of_pos (by rw [bit_eq_true hlatched, bit_eq_true hcmd, decide_eq_true hretry, hheld]; rfl)

theorem execOpenLoad_of_detected
    (h : s.fld (A.trmDo l) (if s.sw t.val then F.trmDo_olon else F.trmDo_oloff) = 1) :
    execOpenLoad t s = .next ((s.termEvent t.val F.trmStatus_openload).report 23 t.val) := by
  rw [execOpenLoad, hdriver]
  exact next_of_pos (bit_eq_true h)

theorem execShare_of_closed (h : s.fld (A.trmState l) F.trmState_sw = 1) :
    execShare t s = .next ((s.flagBoth t.val F.trmStatus_share).report 24 t.val) := by
  rw [execShare, hdriver]
  exact next_of_pos (bit_eq_true h)

end Driven

/-! ## Loops (R106) -/

theorem execLoopShort_of_closed (h : s.bit (A.trmState t.val) F.trmState_loopsw = true) :
    execLoopShort t s = .next ((((s.dropLoop t.val).modCell t.val fun c => { c with retrying := true }).termEvent t.val
      F.trmStatus_loopshort).report 25 t.val) := next_of_pos h

theorem execLoopRetry_of_retrying (hretry : (s.cell t.val).retrying = true) (hordered : s.loopOrdered t.val = true)
    (hwired : s.miswired t.val = false) :
    execLoopRetry t s =
      .next ((s.modCell t.val fun c => { c with retrying := false }).requestPermit t.val true) :=
  next_of_pos (by rw [hretry, hordered, hwired]; rfl)

end Cases

/-- Settles O42: each event by the case of its condition. -/
theorem switchEvents : Obligations.SwitchEvents := by
  intro s t n state flag mode done open_ marked
  exact ⟨execModeTransitionEnd_of_rest, execGateOrder_of_leader, rfl, execCurrentLimitEngage_of_closed,
    execOverload_of_closed, fun h => ⟨execOverload_of_open h, execCurrentLimitEngage_of_open h⟩,
    fun l hdriver => ⟨execOverloadRetry_of_latched hdriver, execOpenLoad_of_detected hdriver,
      execShare_of_closed hdriver⟩, execLoopShort_of_closed, execLoopRetry_of_retrying⟩

end Sys2Proof.Proofs
end

section
/-! SUPPORT. Writes of registers of the field side and the lanes: the block each address belongs to, and what the block
makes of a write. -/

namespace Sys2Proof.Proofs

open Sys2Proof.Machine Sys2Proof.Laws

section Writes

variable {s t : State} {m a : Nat} {w : Word} {corr : Bool}

/-! ## Accepted writes that neither clear nor lock (R48) -/

/-- Whether the register at `a` is one whose writes are its block's: of type RW or WO. -/
def blockOwn (a : Nat) : Bool :=
  decide (a < 2 ^ 32) &&
    match rowOf a with
    | none => false
    | some r => r.kind == .rw || r.kind == .wo

theorem regWritten_of_blockOwn (h : blockOwn a = true) : s.regWritten m a w corr = s.blockWritten m a w corr := by
  obtain ⟨-, hrow⟩ := Bool.and_eq_true_iff.1 h
  rw [State.regWritten]
  cases hr : rowOf a with
  | none => simp [hr] at hrow
  | some r =>
    simp only [hr, Bool.or_eq_true, beq_iff_eq] at hrow
    rcases hrow with hk | hk <;> simp only [hk]

/-- A command that is a write of such a register does what the block makes of it. -/
theorem writeDoes_of_block {x : Master} {c : Instr} (hc : exec c s = s.masterWrite x a w) (ha : blockOwn a = true)
    (ht : s.blockWritten x.id a w false = t) : writeDoes s x c a w t := by
  intro hheld hok
  obtain ⟨hlt, -⟩ := Bool.and_eq_true_iff.1 ha
  rw [hc, masterWrite_of_ok hheld (of_decide_eq_true hlt) hok, regWritten_of_blockOwn ha, ht]

/-! ## The registers, by their rows -/

theorem blockOwn_terminal : ∀ n : Term, blockOwn (A.trmMode n) = true ∧ blockOwn (A.trmDo n) = true ∧
    blockOwn (A.muxTopt n) = true ∧ blockOwn (A.muxRlead n) = true := by decide +kernel

theorem blockOwn_excSrc : ∀ i : Source, blockOwn (A.excSrc i) = true := by decide +kernel

theorem blockOwn_asyCtrl : ∀ c : Conv, blockOwn (A.asyCtrl c) = true := by decide +kernel

theorem blockOwn_modem : ∀ h : Modem, blockOwn (A.hrtMcfg h) = true ∧ blockOwn (A.hrtMcmd h) = true := by
  decide +kernel

theorem blockOwn_trpCfg : ∀ k : TripId, blockOwn (A.trpCfg k) = true := by decide +kernel

theorem blockOwn_single : blockOwn A.excCtrl = true ∧ blockOwn A.seqCtrl = true ∧ blockOwn (A.lnTcmd 0) = true ∧
    blockOwn A.tlyCtrl = true ∧ blockOwn A.trpReset = true ∧ blockOwn A.mgsHcmd = true := by decide +kernel

/-! ## The block of an address (R38)

Each lemma passes over the blocks asked for before its own, none of which holds the address. -/

theorem blockWritten_trm (hlo : 0x00100000 ≤ a) (hhi : a < 0x00110000) :
    s.blockWritten m a w corr = s.trmWritten m a w := by
  unfold State.blockWritten A.evrSwtrig A.evrClear
  iterate 7 rw [if_neg (by omega)]
  rw [if_pos ⟨hlo, hhi⟩]

theorem blockWritten_topt (hlo : A.muxTopt 0 ≤ a) (hhi : a < A.muxTopt 48) :
    s.blockWritten m a w corr = s.toptWritten ((a - A.muxTopt 0) / 4) w := by
  have hbounds : 0x00110100 ≤ a ∧ a < 0x001101C0 := ⟨hlo, hhi⟩
  unfold State.blockWritten A.evrSwtrig A.evrClear
  iterate 8 rw [if_neg (by omega)]
  rw [if_pos ⟨hlo, hhi⟩]

/-- The return lead and common-mode registers have no effect but their own value. -/
theorem blockWritten_mux (hlo : 0x001101C0 ≤ a) (hhi : a < 0x00120000) :
    s.blockWritten m a w corr = s.storeReg m a w := by
  unfold State.blockWritten A.evrSwtrig A.evrClear A.muxTopt A.seqCtrl A.tlyCtrl
  iterate 19 rw [if_neg (by omega)]

theorem blockWritten_exc (hlo : 0x00120000 ≤ a) (hhi : a < 0x00130000) :
    s.blockWritten m a w corr = s.excBlockWritten m a w := by
  unfold State.blockWritten A.evrSwtrig A.evrClear A.muxTopt
  iterate 9 rw [if_neg (by omega)]
  rw [if_pos ⟨hlo, hhi⟩]

theorem blockWritten_asy (hlo : 0x00130000 ≤ a) (hhi : a < 0x00140000) (hctrl : a % 0x1000 = 4) :
    s.blockWritten m a w corr = s.asyWritten ((a - 0x00130000) / 0x1000) w := by
  unfold State.blockWritten A.evrSwtrig A.evrClear A.muxTopt
  iterate 10 rw [if_neg (by omega)]
  rw [if_pos ⟨hlo, hhi, hctrl⟩]

theorem blockWritten_hrt (hlo : 0x00150000 ≤ a) (hhi : a < 0x00160000) :
    s.blockWritten m a w corr = s.hrtWritten m a w := by
  unfold State.blockWritten A.evrSwtrig A.evrClear A.muxTopt
  iterate 11 rw [if_neg (by omega)]
  rw [if_pos ⟨hlo, hhi⟩]

theorem blockWritten_trp (hlo : 0x00300000 ≤ a) (hhi : a < 0x00310000) :
    s.blockWritten m a w corr = s.trpWritten m a w := by
  unfold State.blockWritten A.evrSwtrig A.evrClear A.muxTopt A.seqCtrl A.tlyCtrl
  iterate 15 rw [if_neg (by omega)]
  rw [if_pos ⟨hlo, hhi⟩]

/-! ## Terminals (R101, R108) -/

theorem blockWritten_trmMode (n : Term) : s.blockWritten m (A.trmMode n) w corr =
    (s.storeReg m (A.trmMode n) w).modeWritten n := by
  have hn := n.isLt
  have hoff : A.trmMode n % 0x100 = 0x04 := by unfold A.trmMode; omega
  have hidx : (A.trmMode n - 0x00100000) / 0x100 = n := by unfold A.trmMode; omega
  rw [blockWritten_trm (by unfold A.trmMode; omega) (by unfold A.trmMode; omega)]
  simp only [State.trmWritten, hoff, hidx]

theorem blockWritten_trmDo (n : Term) : s.blockWritten m (A.trmDo n) w corr = s.doWritten n w := by
  have hn := n.isLt
  have hoff : A.trmDo n % 0x100 = 0x10 := by unfold A.trmDo; omega
  have hidx : (A.trmDo n - 0x00100000) / 0x100 = n := by unfold A.trmDo; omega
  rw [blockWritten_trm (by unfold A.trmDo; omega) (by unfold A.trmDo; omega)]
  simp only [State.trmWritten, hoff, hidx]

/-- A write of TRM_DO that leaves PAR as it is does no more than store its word (R101). -/
theorem doWritten_of_same_par {n : Nat} (h : F.trmDo_par.get w = s.fld (A.trmDo n) F.trmDo_par) :
    s.doWritten n w = s.setReg (A.trmDo n) w := by
  rw [State.doWritten]
  exact if_neg (by simp [h])

/-! ## Routing and excitation (R125, R126, R145) -/

theorem blockWritten_muxTopt (n : Term) : s.blockWritten m (A.muxTopt n) w corr = s.toptWritten n w := by
  have hn := n.isLt
  have hidx : (A.muxTopt n - A.muxTopt 0) / 4 = n := by unfold A.muxTopt; omega
  rw [blockWritten_topt (by unfold A.muxTopt; omega) (by unfold A.muxTopt; omega), hidx]

theorem blockWritten_muxRlead (n : Term) :
    s.blockWritten m (A.muxRlead n) w corr = s.storeReg m (A.muxRlead n) w := by
  have hn := n.isLt
  exact blockWritten_mux (by unfold A.muxRlead; omega) (by unfold A.muxRlead; omega)

theorem blockWritten_excSrc (i : Source) : s.blockWritten m (A.excSrc i) w corr = s.excWritten i w := by
  have hi := i.isLt
  have hidx : (A.excSrc i - A.excSrc 0) / 4 = i := by unfold A.excSrc; omega
  have hsrc : A.excSrc 0 ≤ A.excSrc i := by unfold A.excSrc; omega
  rw [blockWritten_exc (by unfold A.excSrc; omega) (by unfold A.excSrc; omega), State.excBlockWritten, if_pos hsrc,
    hidx]

theorem blockWritten_excCtrl_of_calnow (h : F.excCtrl_calnow.get w = 1) :
    s.blockWritten m A.excCtrl w corr = (s.storeReg m A.excCtrl w).calNow := by
  rw [blockWritten_exc (by decide) (by decide), State.excBlockWritten, if_neg (by decide)]
  exact if_pos ⟨rfl, h⟩

/-- CAL_NOW's word asks for the calibration whatever its period. -/
theorem calnow_get (p : BitVec 16) : F.excCtrl_calnow.get (BitVec.ofNat 32 (65536 + p.toNat)) = 1 := by
  have hp := p.isLt
  simp only [Fld.get, F.excCtrl_calnow, BitVec.toNat_ofNat]
  omega

/-! ## Converters and modems (R175, R177, R198, R199, R201, R206) -/

theorem blockWritten_asyCtrl (c : Conv) : s.blockWritten m (A.asyCtrl c) w corr = s.asyWritten c w := by
  have hc := c.isLt
  have hidx : (A.asyCtrl c - 0x00130000) / 0x1000 = c := by unfold A.asyCtrl; omega
  have hoff : A.asyCtrl c % 0x1000 = 4 := by unfold A.asyCtrl; omega
  rw [blockWritten_asy (by unfold A.asyCtrl; omega) (by unfold A.asyCtrl; omega) hoff, hidx]

theorem blockWritten_hrtMcfg (h : Modem) :
    s.blockWritten m (A.hrtMcfg h) w corr = s.storeReg m (A.hrtMcfg h) w := by
  have hh := h.isLt
  have hoff : ¬(A.hrtMcfg 0 ≤ A.hrtMcfg h ∧ A.hrtMcfg h < A.hrtLcfg 0 ∧
      (A.hrtMcfg h - A.hrtMcfg 0) % 0x200 = 4) := by unfold A.hrtMcfg; omega
  rw [blockWritten_hrt (by unfold A.hrtMcfg; omega) (by unfold A.hrtMcfg; omega), State.hrtWritten, if_neg hoff]

theorem blockWritten_hrtMcmd (h : Modem) : s.blockWritten m (A.hrtMcmd h) w corr = s.mcmdWritten h w := by
  have hh := h.isLt
  have hoff : A.hrtMcfg 0 ≤ A.hrtMcmd h ∧ A.hrtMcmd h < A.hrtLcfg 0 ∧ (A.hrtMcmd h - A.hrtMcfg 0) % 0x200 = 4 := by
    unfold A.hrtMcfg A.hrtMcmd A.hrtLcfg; omega
  have hidx : (A.hrtMcmd h - A.hrtMcfg 0) / 0x200 = h := by unfold A.hrtMcfg A.hrtMcmd; omega
  rw [blockWritten_hrt (by unfold A.hrtMcmd; omega) (by unfold A.hrtMcmd; omega), State.hrtWritten, if_pos hoff,
    hidx]

theorem mcmdWritten_send (h : Nat) : s.mcmdWritten h 1 = s.sendWritten h := rfl

theorem mcmdWritten_abort (h : Nat) : s.mcmdWritten h 2 = s.abortModem h := rfl

theorem mcmdWritten_rxclr (h : Nat) : s.mcmdWritten h 4 = s.rxclrWritten h := rfl

/-! ## The sequencer (R212) -/

theorem blockWritten_seqCtrl_commit : s.blockWritten m A.seqCtrl 1 corr = s.commitWritten := rfl

theorem blockWritten_seqCtrl_copy : s.blockWritten m A.seqCtrl 2 corr = s.copyWritten := rfl

/-! ## Lanes (R258, R357) -/

theorem blockWritten_tlyCtrl : s.blockWritten m A.tlyCtrl w corr = s.tlyCtrlWritten w := rfl

/-- The lane a field of TLY_CTRL names, if it names one. -/
def laneNamed (f : Fld) (w : Word) : Option LaneId := allLanes.find? fun l => decide (f.get w = 2 ^ l.val)

theorem laneNamed_retire : ∀ l : LaneId, laneNamed F.tlyCtrl_retire (BitVec.ofNat 32 (2 ^ l.val)) = some l := by
  decide

theorem laneNamed_return : ∀ l : LaneId, laneNamed F.tlyCtrl_retire (BitVec.ofNat 32 (16 * 2 ^ l.val)) = none ∧
    laneNamed F.tlyCtrl_return (BitVec.ofNat 32 (16 * 2 ^ l.val)) = some l := by
  decide

theorem tlyCtrlWritten_of_retire {l : LaneId} (h : laneNamed F.tlyCtrl_retire w = some l) :
    s.tlyCtrlWritten w = { s with tly := { s.tly with retireReq := some l } } := by
  rw [State.tlyCtrlWritten, ← laneNamed, h]
  rfl

theorem tlyCtrlWritten_of_return {l : LaneId} (hnone : laneNamed F.tlyCtrl_retire w = none)
    (h : laneNamed F.tlyCtrl_return w = some l) :
    s.tlyCtrlWritten w = ({ s with tly := { s.tly with
      returnReq := some l, history := s.tly.history.set l.val [] } } : State).setFld (A.tlyLane l) F.tlyLane_win 0 := by
  rw [State.tlyCtrlWritten, ← laneNamed, hnone, ← laneNamed, h]
  rfl

/-- The fields of a thread command's word, from its operation, its address and its thread. -/
theorem lnTcmd_get {op : Nat} (hop : op < 4) (p : BitVec 22) (t : ThreadId) :
    let w := BitVec.ofNat 32 (op * 1073741824 + p.toNat * 256 + t.val)
    F.lnTcmd_op.get w = op ∧ F.lnTcmd_at.get w = p.toNat ∧ F.lnTcmd_thread.get w = t.val := by
  have hp := p.isLt
  have ht := t.isLt
  simp only [Fld.get, F.lnTcmd_op, F.lnTcmd_at, F.lnTcmd_thread, BitVec.toNat_ofNat]
  omega

/-- A thread command other than none waits behind those that wait already. -/
theorem blockWritten_lnTcmd {op : Nat} (hop : op < 4) (hne : op ≠ 0) (p : BitVec 22) (t : ThreadId) :
    s.blockWritten m (A.lnTcmd 0) (BitVec.ofNat 32 (op * 1073741824 + p.toNat * 256 + t.val)) corr =
      { s with tcmds := s.tcmds ++ [⟨op == 1, p.toNat, t.val⟩] } := by
  have hwrite : ∀ w, s.blockWritten m (A.lnTcmd 0) w corr = if F.lnTcmd_op.get w = 0 then s else
      { s with tcmds := s.tcmds ++ [⟨F.lnTcmd_op.get w == 1, F.lnTcmd_at.get w, F.lnTcmd_thread.get w⟩] } :=
    fun _ => rfl
  obtain ⟨hgetop, hat, hthread⟩ := lnTcmd_get hop p t
  rw [hwrite, hgetop, hat, hthread, if_neg hne]

theorem blockWritten_lnTcmd_halt (p : BitVec 22) (t : ThreadId) :
    s.blockWritten m (A.lnTcmd 0) (BitVec.ofNat 32 (1073741824 + p.toNat * 256 + t.val)) corr =
      { s with tcmds := s.tcmds ++ [⟨true, p.toNat, t.val⟩] } := by
  have hhalt := blockWritten_lnTcmd (s := s) (m := m) (corr := corr) (op := 1) (by decide) (by decide) p t
  exact hhalt

theorem blockWritten_lnTcmd_run (t : ThreadId) :
    s.blockWritten m (A.lnTcmd 0) (BitVec.ofNat 32 (2147483648 + t.val)) corr =
      { s with tcmds := s.tcmds ++ [⟨false, 0, t.val⟩] } := by
  have hrun := blockWritten_lnTcmd (s := s) (m := m) (corr := corr) (op := 2) (by decide) (by decide) 0 t
  exact hrun

/-! ## Trips (R363, R369) -/

theorem blockWritten_trpReset : s.blockWritten m A.trpReset w corr = s.resetTerms w := rfl

theorem blockWritten_trpCfg (k : TripId) : s.blockWritten m (A.trpCfg k) w corr =
    (s.storeReg m (A.trpCfg k) w).trpCfgWritten k := by
  have hk := k.isLt
  have hreset : A.trpCfg k ≠ A.trpReset := by unfold A.trpCfg A.trpReset; omega
  have hcfg : A.trpCfg 0 ≤ A.trpCfg k ∧ (A.trpCfg k - A.trpCfg 0) % 0x20 = 0 := by unfold A.trpCfg; omega
  have hidx : (A.trpCfg k - A.trpCfg 0) / 0x20 = k := by unfold A.trpCfg; omega
  rw [blockWritten_trp (by unfold A.trpCfg; omega) (by unfold A.trpCfg; omega), State.trpWritten, if_neg hreset,
    if_pos hcfg, hidx]

/-! ## Host commands (R391) -/

/-- The fields of MGS_HCMD's word. -/
theorem mgsHcmd_get {n : Nat} (hn : n < 256) (subject : BitVec 16) :
    let w := BitVec.ofNat 32 (n * 16777216 + subject.toNat)
    F.mgsHcmd_code.get w = n ∧ F.mgsHcmd_subject.get w = subject.toNat := by
  have hs := subject.isLt
  simp only [Fld.get, F.mgsHcmd_code, F.mgsHcmd_subject, BitVec.toNat_ofNat]
  omega

theorem blockWritten_mgsHcmd : s.blockWritten m A.mgsHcmd w corr = s.hcmdWritten m w := rfl

/-- A host command is sent to ring 113 with its argument and its master, and counted. -/
theorem hcmdWritten_of_command {n : Nat} (hn : n < 256) (subject : BitVec 16) :
    let r : InRec := ⟨113, 0x90, n, ⟨BitVec.ofNat 32 subject.toNat, .good⟩, 1, s.tbc,
      [BitVec.ofNat 64 ((s.reg A.mgsHcmdArg).toNat * 4294967296 + m)], 11, false, false⟩
    s.hcmdWritten m (BitVec.ofNat 32 (n * 16777216 + subject.toNat)) =
      ({ s with tly := { s.tly with crossing := s.tly.crossing ++ [r] } } : State).setFld A.mgsHcmdState
        F.mgsHcmdState_pending (s.fld A.mgsHcmdState F.mgsHcmdState_pending + 1) := by
  obtain ⟨hcode, hsubject⟩ := mgsHcmd_get hn subject
  rw [State.hcmdWritten, hcode, hsubject]
  rfl

end Writes

/-- Settles O36: each command is a write of its register, and its block makes of it what is stated. -/
theorem fieldAndLaneRegisters : Obligations.FieldAndLaneRegisters := by
  obtain ⟨hexc, hseq, htcmd, htly, hreset, hhcmd⟩ := blockOwn_single
  refine ⟨fun s m t i c h w p => ?_, fun s m l t p k w subject code => ?_⟩
  · intro st asy
    obtain ⟨hmode, hdo, htopt, hrlead⟩ := blockOwn_terminal t
    obtain ⟨hmcfg, hmcmd⟩ := blockOwn_modem h
    have hasy := blockOwn_asyCtrl c
    exact ⟨writeDoes_of_block rfl hmode (blockWritten_trmMode t),
      writeDoes_of_block rfl hdo (blockWritten_trmDo t),
      fun _ hpar => writeDoes_of_block rfl hdo ((blockWritten_trmDo t).trans (doWritten_of_same_par hpar)),
      writeDoes_of_block rfl (blockOwn_excSrc i) (blockWritten_excSrc i),
      writeDoes_of_block rfl htopt (blockWritten_muxTopt t),
      writeDoes_of_block rfl hrlead (blockWritten_muxRlead t),
      writeDoes_of_block rfl hexc (blockWritten_excCtrl_of_calnow (calnow_get p)),
      writeDoes_of_block rfl hasy (blockWritten_asyCtrl c),
      writeDoes_of_block rfl hasy (blockWritten_asyCtrl c),
      writeDoes_of_block rfl hasy (blockWritten_asyCtrl c),
      writeDoes_of_block rfl hmcfg (blockWritten_hrtMcfg h),
      writeDoes_of_block rfl hmcmd ((blockWritten_hrtMcmd h).trans (mcmdWritten_send h)),
      writeDoes_of_block rfl hmcmd ((blockWritten_hrtMcmd h).trans (mcmdWritten_abort h)),
      writeDoes_of_block rfl hmcmd ((blockWritten_hrtMcmd h).trans (mcmdWritten_rxclr h)),
      writeDoes_of_block rfl hseq blockWritten_seqCtrl_commit, writeDoes_of_block rfl hseq blockWritten_seqCtrl_copy⟩
  · intro arg sends
    have hsends : ∀ (cmd : Instr) (n : Nat), n < 256 →
        exec cmd s = s.masterWrite m A.mgsHcmd (BitVec.ofNat 32 (n * 16777216 + subject.toNat)) → sends cmd n :=
      fun _ _ hn hcmd =>
        writeDoes_of_block hcmd hhcmd (blockWritten_mgsHcmd.trans (hcmdWritten_of_command hn subject))
    obtain ⟨hnone, hreturn⟩ := laneNamed_return l
    refine ⟨writeDoes_of_block rfl htly (blockWritten_tlyCtrl.trans (tlyCtrlWritten_of_retire (laneNamed_retire l))),
      writeDoes_of_block ?_ htly (blockWritten_tlyCtrl.trans (tlyCtrlWritten_of_return hnone hreturn)),
      writeDoes_of_block rfl htcmd (blockWritten_lnTcmd_halt p t),
      writeDoes_of_block rfl htcmd (blockWritten_lnTcmd_run t),
      writeDoes_of_block rfl hreset blockWritten_trpReset,
      writeDoes_of_block rfl (blockOwn_trpCfg k) (blockWritten_trpCfg k),
      hsends _ 1 (by decide) rfl, hsends _ 2 (by decide) rfl, hsends _ 3 (by decide) rfl, hsends _ 4 (by decide) rfl,
      hsends _ 5 (by decide) rfl, hsends _ code.toNat code.isLt rfl⟩
    have hbit : 2 ^ (4 + l.val) = 16 * 2 ^ l.val := pow_add 2 4 l.val
    rw [exec, execReturnLane, hbit]

end Sys2Proof.Proofs
end

section
/-! SUPPORT. HART modems and the warm-up of loops (R196, R198, R199, R202, R203): one equation per case. -/

namespace Sys2Proof.Proofs

open Sys2Proof.Machine Sys2Proof.Laws

section Cases

variable {s : State} {h : Modem}

/-! ## A request and what follows it (R199) -/

theorem execTxDone_of_sending (hsending : s.modem h.val = 1) : execTxDone h s =
    .next ((s.setModem h.val 2).event (A.hrtMstatus h.val) F.hrtMstatus_txdone) := next_of_pos hsending

theorem execTxDone_of_not_sending (hother : s.modem h.val ≠ 1) : execTxDone h s = .next s := next_of_neg hother

theorem execNoReply_of_awaiting (hawaiting : s.modem h.val = 2) : execNoReply h s =
    .next ((((s.setModem h.val 4).setFld (A.hrtMstate h.val) F.hrtMstate_rxlen 0).satInc (A.hrtMerr h.val)
      F.hrtMerr_noreplies).event (A.hrtMstatus h.val) F.hrtMstatus_noreply) := next_of_pos hawaiting

theorem execCarrierDetect_of_awaiting
    (hawaiting : (s.setFld (A.hrtMstate h.val) F.hrtMstate_cd 1).modem h.val = 2) : execCarrierDetect h s =
    .next ((s.setFld (A.hrtMstate h.val) F.hrtMstate_cd 1).setModem h.val 3) := next_of_pos hawaiting

theorem execCarrierDetect_of_not_awaiting
    (hother : (s.setFld (A.hrtMstate h.val) F.hrtMstate_cd 1).modem h.val ≠ 2) : execCarrierDetect h s =
    .next (s.setFld (A.hrtMstate h.val) F.hrtMstate_cd 1) := next_of_neg hother

theorem execUnsolicitedFrame_of_free (hfree : s.modemFree h.val = true) : execUnsolicitedFrame h s =
    .next ((s.setFld (A.hrtMstate h.val) F.hrtMstate_cd 0).satInc (A.hrtMerr h.val) F.hrtMerr_rxerrs) :=
  next_of_pos hfree

/-! ## The end of a reply (R199, R204) -/

/-- ERRIDX of a reply of which n bytes are stored: the first byte in error where it is one of them, else none. -/
def firstError (errIdx : Option Nat) (n : Nat) : Nat :=
  match errIdx with
  | none => 0xFF
  | some i => if i < n then i else 0xFF

/-- The state in which modem k has stored a reply: reply complete, with its bytes, their number and the first one in
error. -/
def replyStored (s : State) (k : Nat) (data : List Byte) (errIdx : Option Nat) : State :=
  let n := Nat.min data.length 128
  ((((s.putBytes (A.hrtMrxbuf k 0) (data.take 128)).setModem k 4).setFld (A.hrtMstate k) F.hrtMstate_rxlen n).setFld
    (A.hrtMstate k) F.hrtMstate_cd 0).setFld (A.hrtMstate k) F.hrtMstate_erridx (firstError errIdx n)

/-- The state in which modem k has reported its reply: an error in what is stored or bytes too many, then RX_DONE. -/
def replyReported (s : State) (k : Nat) (data : List Byte) (errIdx : Option Nat) : State :=
  let stored := replyStored s k data errIdx
  (if firstError errIdx (Nat.min data.length 128) ≠ 0xFF ∨ 128 < data.length then
      (stored.event (A.hrtMstatus k) F.hrtMstatus_rxerr).satInc (A.hrtMerr k) F.hrtMerr_rxerrs
    else stored).event (A.hrtMstatus k) F.hrtMstatus_rxdone

section Reply

variable {data : List Byte} {errIdx : Option Nat} {poll : Option HartReply}

theorem execRxDone_of_not_receiving (hother : s.modem h.val ≠ 3) : execRxDone h data errIdx poll s = .next s :=
  next_of_neg hother

theorem execRxDone_of_receiving (hreceiving : s.modem h.val = 3) :
    execRxDone h data errIdx none s = .next (replyReported s h.val data errIdx) := next_of_pos hreceiving

theorem execRxDone_of_polled (q : HartReply) (hreceiving : s.modem h.val = 3) :
    execRxDone h data errIdx (some q) s = .next (
      if (replyReported s h.val data errIdx).field.owner then replyReported s h.val data errIdx
      else (replyReported s h.val data errIdx).pollReply q) := next_of_pos hreceiving

end Reply

/-! ## Ownership and polls (R202, R203) -/

theorem allModemsFree_iff : (List.range 4).all s.modemFree = true ↔ ∀ k < 4, s.modemFree k = true := by
  simp only [List.all_eq_true, List.mem_range]

theorem execOwnerChange_of_free (hfree : ∀ k < 4, s.modemFree k = true) : execOwnerChange s =
    .next { s with field := { s.field with owner := decide (s.fld A.hrtCtrl F.hrtCtrl_owner = 1) } } :=
  next_of_pos (allModemsFree_iff.2 hfree)

theorem execOwnerChange_of_busy (hbusy : ∃ k < 4, s.modemFree k = false) : execOwnerChange s = .next s := by
  obtain ⟨k, hk, hkbusy⟩ := hbusy
  exact next_of_neg fun hall => Bool.eq_false_iff.1 hkbusy (allModemsFree_iff.1 hall k hk)

theorem execHartPoll_of_due {t : Term} {req : List Byte} (howner : s.field.owner = false)
    (hfree : s.modemFree h.val = true) (hpolled : s.fld (A.hrtLcfg t.val) F.hrtLcfg_hpoll ≠ 0)
    (hsup : s.fld (A.hrtLcfg t.val) F.hrtLcfg_sup < 48)
    (hmay : s.modemMay h.val (s.fld (A.hrtLcfg t.val) F.hrtLcfg_sup) = true) (hreq : req ≠ [])
    (hlen : req.length ≤ 128) :
    execHartPoll h t req s = .next ((((s.setFld (A.hrtMcfg h.val) F.hrtMcfg_term
      (s.fld (A.hrtLcfg t.val) F.hrtLcfg_sup)).putBytes (A.hrtMtxbuf h.val 0) req).setFld (A.hrtMtxlen h.val)
        F.hrtMtxlen_len req.length).sendWritten h.val) :=
  next_of_pos (by rw [howner, hfree, bne_iff_ne.2 hpolled, decide_eq_true hsup, hmay, decide_eq_true hlen,
    List.isEmpty_eq_false_iff.2 hreq]; rfl)

/-! ## Warm-up (R196) -/

theorem execWarmUpEnd_of_warming {t : Term} (hwarm : s.fld (A.hrtLstate t.val) F.hrtLstate_warmnow = 1) :
    execWarmUpEnd t s = .next ((s.setFld (A.hrtLstate t.val) F.hrtLstate_warmnow 0).modLoop t.val
      fun x => { x with afterWarm := true }) := next_of_pos (bit_eq_true hwarm)

end Cases

/-- Settles O46: each event by the state of its modem, a reply by what it stores and reports. -/
theorem modemEvents : Obligations.ModemEvents := by
  intro s h t bytes req e r state status errs sup n first stored reported got
  refine ⟨execTxDone_of_sending, execTxDone_of_not_sending, execNoReply_of_awaiting, execCarrierDetect_of_awaiting,
    execCarrierDetect_of_not_awaiting, fun hreceiving => ⟨?_, ?_⟩, execRxDone_of_not_receiving,
    execUnsolicitedFrame_of_free, execOwnerChange_of_free, execOwnerChange_of_busy, execHartPoll_of_due,
    execWarmUpEnd_of_warming⟩
  · rintro rfl
    exact execRxDone_of_receiving hreceiving
  · rintro q rfl
    exact execRxDone_of_polled q hreceiving

end Sys2Proof.Proofs
end

section
/-! SUPPORT. Issue of a Vupore instruction that nothing bars (R234, R266, R282): what its effect makes of the thread or
of the core that executes it. -/

namespace Sys2Proof.Proofs

open Sys2Proof.Machine Sys2Proof.Laws

section Issue

variable {s s' : State} {l : LaneId} {t : ThreadId} {n : Nat} {i : Instr} {c : Cpu} {free legal : Bool}
  {body : State → Cpu → Eff}

/-! ## A lane's thread -/

theorem st_of_runs (h : laneRuns s l t n) : (s.thread l t).st = .run := h.2.1

/-- With slots left and an ISA level declared, a legal instruction settles with its effect. -/
theorem issueLane_of_runs (h : laneRuns s l t n) (hlegal : legal = true) :
    s.issueLane l t n free legal body = s.settle l t n (body s (s.thread l t).cpu) := by
  obtain ⟨hexec, hrun, hbudget, hisa⟩ := h
  simp [State.issueLane, State.ready, hexec, hrun, Nat.not_lt.2 hbudget, hisa, hlegal]

theorem settle_done (h : (c.advance 1).pc < s.codeWords) :
    s.settle l t n (.done s' c) = s'.finish l t n (c.advance 1) := if_pos h

theorem laneDoes_of_done (hexec : exec i s = .next (s.issueLane l t n free legal body)) (hlegal : legal = true)
    (hbody : body s (s.thread l t).cpu = .done s' c) : laneDoes s l t n i s' c := by
  intro hruns hpc
  rw [hexec, issueLane_of_runs hruns hlegal, hbody, settle_done hpc]

theorem exec_of_fault {code : Nat} {addr : Word} (hexec : exec i s = .next (s.issueLane l t n free legal body))
    (hlegal : legal = true) (hruns : laneRuns s l t n) (hbody : body s (s.thread l t).cpu = .fault code addr) :
    exec i s = .next (s.threadFault l t code) := by
  rw [hexec, issueLane_of_runs hruns hlegal, hbody]
  rfl

/-! ## The core -/

/-- The state in which the core has issued an instruction of n cycles (R282). -/
def coreIssued (s : State) (n : Nat) : State :=
  s.modCore fun k => { k with waiting := false, cycles := k.cycles + BitVec.ofNat 64 n }

theorem issueCore_of_runs (h : coreRuns s) (hlegal : legal = true) :
    s.issueCore n legal body = (coreIssued s n).settleCore (body (coreIssued s n) s.core.cpu) := by
  obtain ⟨hheld, hpc⟩ := h
  simp [State.issueCore, hheld, hlegal, coreIssued, State.modCore, hpc]

theorem settleCore_done (h : codeOk (c.advance 4).pc = true) :
    s.settleCore (.done s' c) = s'.modCore fun k => { k with cpu := c.advance 4 } := if_pos h

/-- An effect on the issued state that leaves what it would of s' completes as the statements say. -/
theorem coreDoes_of_done (hexec : exec i s = .next (s.issueCore n legal body)) (hlegal : legal = true)
    (hbody : body (coreIssued s n) s.core.cpu = .done (coreIssued s' n) c) : coreDoes s n i s' c := by
  intro hruns hpc
  rw [hexec, issueCore_of_runs hruns hlegal, hbody, settleCore_done hpc]
  rfl

/-! ## Both sets -/

/-- An instruction that changes its register context only, by `f`, which is `g`. -/
theorem bothDo_of_issueCpu {i : Who → Instr} {f g : Cpu → Cpu} (hexec : ∀ w, exec (i w) s = s.issueCpu w n legal f)
    (hlegal : legal = true) (hfun : ∀ c, f c = g c) : bothDo s n i g := by
  obtain rfl : f = g := funext hfun
  have hlane : ∀ l t, exec (i (.lane l t)) s = .next (s.issueLane l t n false legal fun s c => .done s (f c)) :=
    fun l t => hexec (.lane l t)
  have hcore : exec (i .core) s = .next (s.issueCore n legal fun s c => .done s (f c)) := hexec .core
  exact ⟨fun l t => laneDoes_of_done (hlane l t) hlegal rfl, coreDoes_of_done hcore hlegal rfl⟩

/-- An instruction of both sets that writes a result to rd and changes nothing else. -/
theorem bothDo_set {i : Who → Instr} {d : Reg} {f g : Cpu → TWord}
    (hexec : ∀ w, exec (i w) s = s.issueCpu w n legal fun c => c.set d (f c)) (hlegal : legal = true)
    (hfun : ∀ c, f c = g c) : bothDo s n i fun c => c.set d (g c) :=
  bothDo_of_issueCpu hexec hlegal fun c => congrArg (c.set d) (hfun c)

end Issue

end Sys2Proof.Proofs
end

section
/-! SUPPORT. The arithmetic, compare, tag and select instructions of R271 and R272: what the model's operations are in
the terms of the tables. -/

namespace Sys2Proof.Proofs

open Sys2Proof.Machine Sys2Proof.Laws

/-! ## Saturation, division and rounding (R238, R271) -/

theorem satS_eq_ite (n : Int) (t : Tag) : satS n t =
    if n < -2147483648 then ⟨0x80000000#32, .bad⟩
    else if 2147483647 < n then ⟨0x7FFFFFFF#32, .bad⟩
    else ⟨BitVec.ofInt 32 n, t⟩ := ite_ite_comm _ _ _ _ fun h => by omega

theorem satU_eq_ite (n : Int) (t : Tag) : satU n t =
    if n < 0 then ⟨0#32, .bad⟩
    else if 4294967295 < n then ⟨0xFFFFFFFF#32, .bad⟩
    else ⟨BitVec.ofInt 32 n, t⟩ := ite_ite_comm _ _ _ _ fun h => by omega

/-- A choice by the negated condition. -/
theorem ite_of_iff_not {α : Type} {p q : Prop} [Decidable p] [Decidable q] {x y : α} (h : p ↔ ¬q) :
    (if p then x else y) = if q then y else x := (if_congr h rfl rfl).trans (ite_not q x y)

theorem divZero_eq_ite (n : Int) :
    divZero n = if n < 0 then ⟨0x80000000#32, .bad⟩ else ⟨0x7FFFFFFF#32, .bad⟩ := ite_of_iff_not not_lt.symm

theorem roundDiv_eq_ite (n : Int) (m : Nat) :
    roundDiv n m = if n < 0 then -((2 * -n + m) / (2 * m)) else (2 * n + m) / (2 * m) := ite_of_iff_not not_lt.symm

theorem natAbs_eq_ite (n : Int) : (n.natAbs : Int) = if n < 0 then -n else n := by
  split <;> omega

theorem toInt_eq_zero_iff (w : Word) : w = 0 ↔ w.toInt = 0 := (BitVec.toInt_inj (y := 0#32)).symm

/-! ## Tags (R236) -/

theorem worst_good (t : Tag) : t.worst .good = t := by cases t <;> rfl

/-- A word whose operand besides is of tag GOOD. -/
theorem mk_worst_good (v : Word) (t : Tag) : (⟨v, t.worst .good⟩ : TWord) = ⟨v, t⟩ :=
  congrArg (TWord.mk v) (worst_good t)

theorem worst_assoc (t u v : Tag) : (t.worst u).worst v = t.worst (u.worst v) := by
  cases t <;> cases u <;> cases v <;> rfl

/-! ## The results of R271 -/

theorem opAbs_eq (a : TWord) :
    opAbs a = satS (if a.val.toInt < 0 then -a.val.toInt else a.val.toInt) a.tag := by
  rw [opAbs, natAbs_eq_ite]

theorem opDiv_eq (a b : TWord) : opDiv a b =
    if b.val.toInt = 0 then divZero a.val.toInt else satS (a.val.toInt.tdiv b.val.toInt) (tags a b) :=
  if_congr (toInt_eq_zero_iff b.val) rfl rfl

theorem opRem_eq (a b : TWord) : opRem a b =
    if b.val.toInt = 0 then ⟨0#32, .bad⟩ else ⟨BitVec.ofInt 32 (a.val.toInt.tmod b.val.toInt), tags a b⟩ :=
  if_congr (toInt_eq_zero_iff b.val) rfl rfl

theorem opDivq_eq (a b : TWord) : opDivq a b =
    if b.val.toInt = 0 then divZero a.val.toInt
    else satS ((a.val.toInt * 65536).tdiv b.val.toInt) (tags a b) :=
  if_congr (toInt_eq_zero_iff b.val) rfl rfl

/-- A signed immediate is an operand of tag GOOD (R236). -/
theorem opAdd_immS (a : TWord) (imm : BitVec 18) : opAdd a (immS imm) = satS (a.val.toInt + imm.toInt) a.tag := by
  have hval : (immS imm).val.toInt = imm.toInt := BitVec.toInt_signExtend_of_le (by decide)
  have htag : tags a (immS imm) = a.tag := worst_good a.tag
  rw [opAdd, hval, htag]

theorem opLag_eq (r a b : TWord) :
    let k : Int := if b.val.toInt < 0 then 0 else if 65536 < b.val.toInt then 65536 else b.val.toInt
    opLag r a b = ⟨BitVec.ofInt 32 (r.val.toInt + ((a.val.toInt - r.val.toInt) * k + 32768) / 65536),
      if k = b.val.toInt then r.tag.worst (a.tag.worst b.tag) else .bad⟩ := by
  intro k
  rw [← worst_assoc]
  rfl

/-- Settles O10: each operation's own equation, with the saturation of R238. -/
theorem saturatingArithmetic : Obligations.SaturatingArithmetic := by
  intro s d a b imm sat satu byZero x y tag near
  have hsat : ∀ n t, satS n t = sat n t := satS_eq_ite
  have hsatu : ∀ n t, satU n t = satu n t := satU_eq_ite
  have hzero : ∀ n, divZero n = byZero n := divZero_eq_ite
  have hnear : ∀ n m, roundDiv n m = near n m := roundDiv_eq_ite
  refine ⟨
    -- ADD, SUB, ADDU, SUBU
    bothDo_set (fun _ => rfl) rfl fun c => hsat _ _, bothDo_set (fun _ => rfl) rfl fun c => hsat _ _,
    bothDo_set (fun _ => rfl) rfl fun c => hsatu _ _, bothDo_set (fun _ => rfl) rfl fun c => hsatu _ _,
    -- MUL, MULQ
    bothDo_set (fun _ => rfl) rfl fun c => hsat _ _, bothDo_set (fun _ => rfl) rfl fun c => hsat _ _,
    -- DIV, DIVU, REM, DIVQ
    bothDo_set (fun _ => rfl) rfl fun c => ?_, bothDo_set (fun _ => rfl) rfl fun c => rfl,
    bothDo_set (fun _ => rfl) rfl fun c => opRem_eq _ _, bothDo_set (fun _ => rfl) rfl fun c => ?_,
    -- ABS, NEG, QFI, QTI
    bothDo_set (fun _ => rfl) rfl fun c => ?_, bothDo_set (fun _ => rfl) rfl fun c => hsat _ _,
    bothDo_set (fun _ => rfl) rfl fun c => hsat _ _, bothDo_set (fun _ => rfl) rfl fun c => ?_,
    -- ADDI, LAG
    bothDo_set (fun _ => rfl) rfl fun c => ?_, bothDo_set (fun _ => rfl) rfl fun c => opLag_eq _ _ _⟩
  · rw [opDiv_eq, hzero, hsat]
    rfl
  · rw [opDivq_eq, hzero, hsat]
    rfl
  · rw [opAbs_eq, hsat]
  · rw [opQti, hnear]
  · rw [opAdd_immS, hsat]

/-! ## Words, shifts and choices (R271) -/

theorem min_31_eq_ite (n : Nat) : Nat.min n 31 = if 32 ≤ n then 31 else n := by
  split
  · exact Nat.min_eq_right (by omega)
  · exact Nat.min_eq_left (by omega)

/-- The larger of two: where they are equal by an injective measure, either. -/
theorem ite_le_eq_ite_lt {α β : Type} [LinearOrder β] {f : α → β} (hf : f.Injective) (a b : α) :
    (if f a ≤ f b then b else a) = if f a < f b then b else a := by
  obtain h | h | h := lt_trichotomy (f a) (f b)
  · rw [if_pos h.le, if_pos h]
  · rw [if_pos h.le, if_neg h.not_lt, hf h]
  · rw [if_neg h.not_ge, if_neg h.asymm]

/-- A zero-extended immediate counts what it says. -/
theorem immU_toNat (imm : BitVec 18) : (immU imm).val.toNat = imm.toNat :=
  BitVec.toNat_setWidth_of_le (by decide)

section Shifts

variable {a : TWord} {imm : BitVec 18} (h : imm.toNat < 32)

include h

theorem opShl_immU : opShl a (immU imm) = ⟨a.val <<< imm.toNat, a.tag⟩ := by
  have htag : tags a (immU imm) = a.tag := worst_good a.tag
  rw [opShl, htag, immU_toNat, if_neg (by omega)]

theorem opShr_immU : opShr a (immU imm) = ⟨a.val >>> imm.toNat, a.tag⟩ := by
  have htag : tags a (immU imm) = a.tag := worst_good a.tag
  rw [opShr, htag, immU_toNat, if_neg (by omega)]

theorem opSar_immU : opSar a (immU imm) = ⟨a.val.sshiftRight imm.toNat, a.tag⟩ := by
  have htag : tags a (immU imm) = a.tag := worst_good a.tag
  rw [opSar, htag, immU_toNat, min_31_eq_ite, if_neg (by omega)]

end Shifts

/-! ## Conditions and tags (R264, R270, R272) -/

theorem holds_eq_getD {k : BitVec 4} (c : Cpu) (hk : k.toNat ≤ 10) :
    c.holds k = [true, c.z, !c.z, c.n, !c.n, c.n || c.z, !(c.n || c.z), c.l, !c.l, c.l || c.z, !(c.l || c.z)].getD
      k.toNat false := by
  unfold Cpu.holds
  generalize k.toNat = n at hk
  interval_cases n <;> simp

theorem ofCode_code (t : Tag) : Tag.ofCode t.code = t := by cases t <;> rfl

/-- Settles O11, first the words of R271, then the compares, tags and choices of R272. -/
theorem wordAndTagInstructions : Obligations.WordAndTagInstructions := by
  refine ⟨fun s d a b imm wide => ?_, fun s d a b imm t k => ?_⟩
  · intro op opi
    have hval : ∀ {u v : Word} {t : Tag}, u = v → (⟨u, t⟩ : TWord) = ⟨v, t⟩ := fun h => congrArg (TWord.mk · _) h
    refine ⟨
      -- ADDW, SUBW, AND, OR, XOR, SHL, SHR, SAR
      bothDo_set (fun _ => rfl) rfl fun c => rfl, bothDo_set (fun _ => rfl) rfl fun c => rfl,
      bothDo_set (fun _ => rfl) rfl fun c => rfl, bothDo_set (fun _ => rfl) rfl fun c => rfl,
      bothDo_set (fun _ => rfl) rfl fun c => rfl, bothDo_set (fun _ => rfl) rfl fun c => rfl,
      bothDo_set (fun _ => rfl) rfl fun c => rfl,
      bothDo_set (fun _ => rfl) rfl fun c => hval (congrArg _ (min_31_eq_ite _)),
      -- MIN, MAX, MINU, MAXU, MULH
      bothDo_set (fun _ => rfl) rfl fun c => hval (ite_of_iff_not not_lt.symm),
      bothDo_set (fun _ => rfl) rfl fun c => hval (ite_le_eq_ite_lt (fun _ _ => BitVec.eq_of_toInt_eq) _ _),
      bothDo_set (fun _ => rfl) rfl fun c => hval (ite_of_iff_not not_lt.symm),
      bothDo_set (fun _ => rfl) rfl fun c => hval (ite_le_eq_ite_lt (fun _ _ => BitVec.eq_of_toNat_eq) _ _),
      bothDo_set (fun _ => rfl) rfl fun c => rfl,
      -- ADDWI, ANDI, ORI, XORI, the shifts by an immediate, LUI
      bothDo_set (fun _ => rfl) rfl fun c => mk_worst_good _ _,
      bothDo_set (fun _ => rfl) rfl fun c => mk_worst_good _ _,
      bothDo_set (fun _ => rfl) rfl fun c => mk_worst_good _ _,
      bothDo_set (fun _ => rfl) rfl fun c => mk_worst_good _ _,
      fun h => ⟨bothDo_set (fun _ => rfl) (decide_eq_true h) fun c => opShl_immU h,
        bothDo_set (fun _ => rfl) (decide_eq_true h) fun c => opShr_immU h,
        bothDo_set (fun _ => rfl) (decide_eq_true h) fun c => opSar_immU h⟩,
      bothDo_set (fun _ => rfl) rfl fun c => rfl⟩
  · intro sets code
    have hcode : ∀ t, Tag.code t = code t := fun t => by cases t <;> rfl
    refine ⟨
      -- CMP, CMPI
      bothDo_of_issueCpu (fun _ => rfl) rfl fun c => rfl,
      bothDo_of_issueCpu (fun _ => rfl) rfl fun c => congrArg (sets c _ _ _) (worst_good _),
      -- GTAG, WTAG, CTAG
      bothDo_set (fun _ => rfl) rfl fun c => ?_, bothDo_set (fun _ => rfl) rfl fun c => rfl,
      bothDo_set (fun _ => rfl) rfl fun c => rfl,
      -- TAT, STAG and WTAGI, SEL
      fun ht => ⟨bothDo_of_issueCpu (fun _ => rfl) (decide_eq_true ht) fun c => ?_,
        fun u hu => ?_⟩, fun hk => ?_⟩
    · rw [hcode]
    · rw [hcode]
      rfl
    · have hu' : Tag.ofCode t.toNat = u := by rw [← hu, ← hcode, ofCode_code]
      exact ⟨bothDo_set (fun _ => rfl) (decide_eq_true ht) fun c => congrArg _ hu',
        bothDo_set (fun _ => rfl) (decide_eq_true ht) fun c => congrArg (fun t => TWord.mk _ (Tag.worst _ t)) hu'⟩
    · refine bothDo_set (fun _ => rfl) (decide_eq_true hk) fun c => ?_
      rw [holds_eq_getD c hk]

end Sys2Proof.Proofs
end

section
/-! SUPPORT. Lanes and threads: what a lane and a thread read as after a change of a lane, after the end of a frame and
after a thread fault (R234, R252, R255). -/

namespace Sys2Proof.Proofs

open Sys2Proof.Machine Sys2Proof.Laws

section Lanes

variable {s : State} {l m : LaneId} {t : ThreadId} {g g' : LaneSt → LaneSt} {th : Thread} {st : ThreadState}
  {code : Nat} {α : Type}

/-! ## A lane that is changed -/

@[simp] theorem modLane_lanes_length (s : State) (l : LaneId) (g : LaneSt → LaneSt) :
    (s.modLane l g).lanes.length = s.lanes.length := List.length_modify ..

@[simp] theorem lane_modLane (hs : s.lanes.length = 3) : (s.modLane l g).lane l = g (s.lane l) := by
  have hl : l.val < s.lanes.length := hs.symm ▸ l.isLt
  simp [State.lane, State.modLane, hl]

@[simp] theorem lane_modLane_ne (h : m ≠ l) : (s.modLane l g).lane m = s.lane m := by
  have hne : l.val ≠ m.val := fun hv => h (Fin.ext hv.symm)
  simp [State.lane, State.modLane, List.getElem?_modify_ne _ _ hne]

/-- What a change of a lane leaves, it leaves of every lane. -/
theorem lane_modLane_of_eq {p : LaneSt → α} (hp : ∀ ln, p (g ln) = p ln) (m : LaneId) :
    p ((s.modLane l g).lane m) = p (s.lane m) := by
  simp only [State.lane, State.modLane, List.getD_eq_getElem?_getD, List.getElem?_modify]
  cases s.lanes[m.val]? with
  | none => rfl
  | some ln =>
    by_cases h : l.val = m.val
    · simp [h, hp]
    · simp [h]

@[simp] theorem modLane_modLane : (s.modLane l g).modLane l g' = s.modLane l fun ln => g' (g ln) :=
  congrArg (fun ls => { s with lanes := ls }) (List.modify_modify_eq g g' l.val s.lanes)

/-- A lane put in place of lane l, made of what that lane is. -/
theorem modLane_const (hs : s.lanes.length = 3) : (s.modLane l fun _ => g (s.lane l)) = s.modLane l g := by
  have hl : l.val < s.lanes.length := hs.symm ▸ l.isLt
  have hmod : s.lanes.modify l.val (fun _ => g (s.lane l)) = s.lanes.modify l.val g := by
    simp only [State.lane, List.getD_eq_getElem _ _ hl, List.modify_eq_set_get _ hl, List.get_eq_getElem]
  exact congrArg (fun ls => { s with lanes := ls }) hmod

/-! ## A thread that is changed -/

@[simp] theorem putThread_threads_length (ln : LaneSt) (t : ThreadId) (th : Thread) :
    (ln.putThread t th).threads.length = ln.threads.length := List.length_set

theorem putThread_getD {ln : LaneSt} (h : ln.threads.length = 128) :
    (ln.putThread t th).threads.getD t.val Thread.idle = th := by
  have ht : t.val < ln.threads.length := h.symm ▸ t.isLt
  simp [LaneSt.putThread, ht]

@[simp] theorem putThread_putThread (ln : LaneSt) (t : ThreadId) (th th' : Thread) :
    (ln.putThread t th).putThread t th' = ln.putThread t th' := by
  simp [LaneSt.putThread]

theorem thread_of_lane {ln : LaneSt} (h : s.lane l = ln) : s.thread l t = ln.threads.getD t.val Thread.idle := by
  rw [State.thread, h]

theorem thread_modLane_putThread (hs : s.lanes.length = 3) (ht : (s.lane l).threads.length = 128) :
    (s.modLane l (·.putThread t th)).thread l t = th :=
  (thread_of_lane (lane_modLane hs)).trans (putThread_getD ht)

@[simp] theorem dropGroup_threads (ln : LaneSt) (t : ThreadId) (th : Thread) :
    (ln.dropGroup t th).threads = ln.threads := by
  unfold LaneSt.dropGroup
  split <;> rfl

/-! ## The end of a lane's frame (R252) -/

/-- A lane that has completed its frame, the slots of its threads kept. -/
def frameEnded (ln : LaneSt) : LaneSt :=
  { ln with executing := false, threads := ln.threads.map fun th => { th with usedLast := th.used } }

theorem lane_completeFrame (s : State) (l m : LaneId) :
    (s.completeFrame l).lane m = s.lane m ∨ (s.completeFrame l).lane m = (s.modLane l frameEnded).lane m := by
  unfold State.completeFrame
  dsimp only
  split
  · exact .inr rfl
  · exact .inl rfl

/-- What the end of a frame leaves of a lane, it leaves of every lane. -/
theorem lane_completeFrame_of_eq {p : LaneSt → α} (hp : ∀ ln, p (frameEnded ln) = p ln) (m : LaneId) :
    p ((s.completeFrame l).lane m) = p (s.lane m) := by
  obtain h | h := lane_completeFrame s l m
  · rw [h]
  · rw [h, lane_modLane_of_eq hp]

/-- What a thread keeps at the end of a frame: all but the slots of the frame before. -/
theorem thread_completeFrame_of_eq {p : Thread → α} (hp : ∀ th, p { th with usedLast := th.used } = p th) :
    p ((s.completeFrame l).thread m t) = p (s.thread m t) :=
  lane_completeFrame_of_eq (p := fun ln => p (ln.threads.getD t.val Thread.idle)) (fun ln => by
    have hmap := List.getD_map (l := ln.threads) (n := t.val) (d := Thread.idle)
      fun th : Thread => { th with usedLast := th.used }
    exact (congrArg p hmap).trans (hp _)) m

/-! ## A thread that stops or takes a fault (R234, R255, R259) -/

/-- The memories and rings of a lane, which its threads' control leaves. -/
def memories (ln : LaneSt) : List (Nat × TWord) × List (List (BitVec 64)) × List (List FixedEntry) :=
  (ln.keep, ln.rings, ln.fixed)

theorem dropGroup_memories (ln : LaneSt) (t : ThreadId) (th : Thread) :
    memories (ln.dropGroup t th) = memories ln := by
  unfold LaneSt.dropGroup
  split <;> rfl

theorem stopThread_memories : memories ((s.stopThread l t th st).lane m) = memories (s.lane m) :=
  (lane_completeFrame_of_eq (p := memories) (fun _ => rfl) m).trans
    (lane_modLane_of_eq (p := memories) (fun ln => by exact dropGroup_memories ln t th) m)

/-- What the end of a frame leaves of the thread that stops. -/
theorem thread_stopThread_of_eq (hs : s.lanes.length = 3) (ht : (s.lane l).threads.length = 128) {p : Thread → α}
    (hp : ∀ th, p { th with usedLast := th.used } = p th) :
    p ((s.stopThread l t th st).thread l t) =
      p { th with st := st, haltAt := none, waiting := none, group := none } := by
  have hlen : ((s.lane l).dropGroup t th).threads.length = 128 := by rw [dropGroup_threads, ht]
  rw [State.stopThread, thread_completeFrame_of_eq hp, State.thread, lane_modLane hs, putThread_getD hlen]

/-- A report changes its lane's reports only. -/
theorem lane_reportThread : (s.reportThread l t code th).lane m =
    (s.modLane l fun ln => { ln with reports := ln.reports ++ [⟨t.val, code, th.cpu.pc, th.used⟩] }).lane m := rfl

theorem reportThread_lanes_length : (s.reportThread l t code th).lanes.length = s.lanes.length :=
  modLane_lanes_length ..

/-- A thread that has taken fault `code`: its slot counted, the code and the PC noted (R234, R255). -/
def takesFault (th : Thread) (code : Nat) : Thread :=
  { th with
    used := th.used + 1, fcode := code, lastPc := th.cpu.pc
    overruns := if code = 1 then Nat.min (th.overruns + 1) 0xFF else th.overruns }

theorem threadFault_eq (s : State) (l : LaneId) (t : ThreadId) (code : Nat) : s.threadFault l t code =
    (s.reportThread l t code (takesFault (s.thread l t) code)).stopThread l t (takesFault (s.thread l t) code)
      .faulted := rfl

theorem threadFault_memories : memories ((s.threadFault l t code).lane m) = memories (s.lane m) := by
  rw [threadFault_eq, stopThread_memories, lane_reportThread]
  exact lane_modLane_of_eq (p := memories) (fun _ => by rfl) m

/-- What the end of a frame leaves of the thread that takes a fault. -/
theorem thread_threadFault_of_eq (hs : s.lanes.length = 3) (ht : (s.lane l).threads.length = 128) {p : Thread → α}
    (hp : ∀ th, p { th with usedLast := th.used } = p th) :
    p ((s.threadFault l t code).thread l t) =
      p { takesFault (s.thread l t) code with st := .faulted, haltAt := none, waiting := none, group := none } := by
  rw [threadFault_eq]
  refine thread_stopThread_of_eq (reportThread_lanes_length.trans hs) ?_ hp
  rw [lane_reportThread, lane_modLane hs, ht]

/-- R234, R255, R259: the thread stops in FAULTED with its code and its PC, one slot counted, its registers as they
were. -/
theorem thread_threadFault (hs : s.lanes.length = 3) (ht : (s.lane l).threads.length = 128) :
    let u := (s.threadFault l t code).thread l t
    u.st = .faulted ∧ u.fcode = code ∧ u.lastPc = (s.thread l t).cpu.pc ∧ u.used = (s.thread l t).used + 1 ∧
      u.cpu = (s.thread l t).cpu :=
  ⟨thread_threadFault_of_eq (p := Thread.st) hs ht fun _ => rfl,
    thread_threadFault_of_eq (p := Thread.fcode) hs ht fun _ => rfl,
    thread_threadFault_of_eq (p := Thread.lastPc) hs ht fun _ => rfl,
    thread_threadFault_of_eq (p := Thread.used) hs ht fun _ => rfl,
    thread_threadFault_of_eq (p := Thread.cpu) hs ht fun _ => rfl⟩

end Lanes

end Sys2Proof.Proofs
end

section
/-! SUPPORT. The registers of a thread (R235): what is written is read back, and the release of a frame clears them. -/

namespace Sys2Proof.Proofs

open Sys2Proof.Machine Sys2Proof.Laws

section Registers

variable {s : State} {c : Cpu} {r q : Reg} {v : TWord} {l : LaneId} {t : ThreadId}

/-! ## Reads after writes -/

@[simp] theorem get_zero (c : Cpu) : c.get 0 = ⟨0#32, .good⟩ := rfl

@[simp] theorem set_zero (c : Cpu) (v : TWord) : c.set 0 v = c := rfl

theorem get_set (hlen : c.regs.length = 16) (hr : r ≠ 0) : (c.set r v).get r = v := by
  have hlt : r.val < c.regs.length := hlen.symm ▸ r.isLt
  simp [Cpu.get, Cpu.set, hr, hlt]

theorem get_set_ne (h : q ≠ r) : (c.set r v).get q = c.get q := by
  have hne : r.val ≠ q.val := fun hv => h (Fin.ext hv.symm)
  unfold Cpu.set
  split
  · rfl
  · simp [Cpu.get, List.getElem?_set_ne hne]

@[simp] theorem set_regs_length : (c.set r v).regs.length = c.regs.length := by
  unfold Cpu.set
  split
  · rfl
  · exact List.length_set

/-! ## The release of a frame (R251) -/

@[simp] theorem command_cpu (entry : Nat) (th : Thread) (x : ThreadCmd) : (th.command entry x).cpu = th.cpu := by
  unfold Thread.command
  split
  · split <;> rfl
  · split <;> rfl

/-- What every step of a fold leaves, the fold leaves. -/
theorem foldl_of_eq {α β γ : Type} {p : α → γ} {f : α → β → α} (hf : ∀ a b, p (f a b) = p a) (bs : List β) (a : α) :
    p (bs.foldl f a) = p a := by
  induction bs generalizing a with
  | nil => rfl
  | cons b bs ih => exact (ih _).trans (hf a b)

theorem release_cpu (e : ThreadEntry) (cmds : List ThreadCmd) (th : Thread) :
    (th.release e cmds).cpu = Cpu.fresh e.entry := by
  have hcmds := foldl_of_eq (p := Thread.cpu) (command_cpu e.entry) cmds
    { th with haltAt := none, waiting := none, group := none, used := 0, cpu := Cpu.fresh e.entry }
  unfold Thread.release
  dsimp only
  split <;> exact hcmds

/-- How many lanes there are, and threads of lane l. -/
def laneCounts (l : LaneId) (s : State) : Nat × Nat := (s.lanes.length, (s.lane l).threads.length)

theorem laneCounts_event (a : Nat) (f : Fld) : laneCounts l (s.event a f) = laneCounts l s := rfl

theorem laneCounts_modLane {g : LaneSt → LaneSt} (hg : ∀ ln, (g ln).threads.length = ln.threads.length) :
    laneCounts l (s.modLane l g) = laneCounts l s :=
  Prod.ext (modLane_lanes_length s l g) (lane_modLane_of_eq (p := fun ln => ln.threads.length) hg l)

theorem laneCounts_lateLane : laneCounts l (s.lateLane l) = laneCounts l s := by
  unfold State.lateLane
  split
  · dsimp only
    rw [laneCounts_event, laneCounts_modLane (fun _ => by rfl)]
    generalize List.finRange 128 = ts
    refine foldl_of_eq (fun s t => ?_) ts s
    split
    · exact laneCounts_modLane fun ln => by simp
    · rfl
  · rfl

theorem getD_map_zipIdx {α β : Type} {xs : List α} {n : Nat} (h : n < xs.length) (f : α × Nat → β) (d : β) :
    (xs.zipIdx.map f).getD n d = f (xs[n], n) := by
  simp [h]

theorem releaseLane_thread_cpu (hs : s.lanes.length = 3) (ht : (s.lane l).threads.length = 128)
    (cmds : List ThreadCmd) (rs : List InRec) (fail : Bool) :
    ∃ pc, ((s.releaseLane cmds rs fail l).thread l t).cpu = Cpu.fresh pc := by
  obtain ⟨hlanes, hthreads⟩ := Prod.mk.inj (laneCounts_lateLane (s := s) (l := l))
  have ht' : t.val < ((s.lateLane l).lane l).threads.length := by
    rw [hthreads, ht]
    exact t.isLt
  rw [State.releaseLane, thread_completeFrame_of_eq (p := Thread.cpu) fun _ => rfl]
  exact ⟨_, (congrArg Thread.cpu (thread_of_lane (lane_modLane (hlanes.trans hs)))).trans
    ((congrArg Thread.cpu (getD_map_zipIdx ht' _ _)).trans (release_cpu ..))⟩

end Registers

/-- Settles O12: reads after writes of the register list, and a released thread's registers as fresh ones. -/
theorem threadRegisters : Obligations.ThreadRegisters := by
  intro s c r q v l t cmds rs fail hlen hs ht
  obtain ⟨pc, hcpu⟩ := releaseLane_thread_cpu (t := t) hs ht cmds rs fail
  refine ⟨get_zero c, set_zero c v, get_set hlen, get_set_ne, set_regs_length.trans hlen, ?_⟩
  rw [hcpu]
  exact fresh_get pc r

end Sys2Proof.Proofs
end

section
/-! SUPPORT. Keep memory (R239, R276, R283, R352): the loads and stores of words a thread or the core reaches, and what
a store leaves. -/

namespace Sys2Proof.Proofs

open Sys2Proof.Machine Sys2Proof.Laws

section Keep

variable {s s' : State} {l m : LaneId} {t : ThreadId} {n k : Nat} {i : Instr} {c : Cpu} {legal : Bool}
  {a d : Reg} {imm : BitVec 18} {body : State → Cpu → Nat → Eff} {w : Who} {x y : Nat} {v : TWord}

/-! ## Pairs (R267) -/

theorem isPair_of_even (heven : d.val % 2 = 0) (hd : d ≠ 0) : isPair d = true := by
  have hne : d.val ≠ 0 := fun h => hd (Fin.ext h)
  exact decide_eq_true ⟨heven, by omega⟩

/-! ## Keep instructions (R276, R283) -/

/-- What a keep instruction does with the words it names (R276). -/
def keepBody (w : Who) (a : Reg) (imm : BitVec 18) (k : Nat) (body : State → Cpu → Nat → Eff) (s : State) (c : Cpu) :
    Eff :=
  if s.keepReach w (c.ea a imm) k then body s c (c.ea a imm).toNat else .fault 4 (BitVec.ofInt 32 (c.ea a imm))

theorem keepInstr_eq : keepInstr w a imm k n legal body s = .next (s.issue w n legal (keepBody w a imm k body)) := rfl

theorem keepBody_of_reach (h : s.keepReach w (c.ea a imm) k = true) :
    keepBody w a imm k body s c = body s c (c.ea a imm).toNat := if_pos h

theorem keepBody_of_not_reach (h : s.keepReach w (c.ea a imm) k = false) :
    keepBody w a imm k body s c = .fault 4 (BitVec.ofInt 32 (c.ea a imm)) := if_neg (Bool.eq_false_iff.1 h)

theorem laneDoes_of_keepInstr (hexec : exec i s = keepInstr (.lane l t) a imm k n legal body s) (hlegal : legal = true)
    (hreach : s.keepOk t ((s.thread l t).cpu.ea a imm) k = true)
    (hbody : body s (s.thread l t).cpu ((s.thread l t).cpu.ea a imm).toNat = .done s' c) : laneDoes s l t n i s' c :=
  laneDoes_of_done (free := false) (hexec.trans keepInstr_eq) hlegal
    ((keepBody_of_reach (w := .lane l t) hreach).trans hbody)

theorem coreDoes_of_keepInstr (hexec : exec i s = keepInstr .core a imm k n legal body s) (hlegal : legal = true)
    (hreach : 0 ≤ s.core.cpu.ea a imm ∧ s.core.cpu.ea a imm + k ≤ 8192)
    (hbody : body (coreIssued s n) s.core.cpu (s.core.cpu.ea a imm).toNat = .done (coreIssued s' n) c) :
    coreDoes s n i s' c :=
  coreDoes_of_done (hexec.trans keepInstr_eq) hlegal
    ((keepBody_of_reach (w := .core) (decide_eq_true hreach)).trans hbody)

/-- A thread's keep instruction outside its regions takes KEEP_RANGE (R239, R255). -/
theorem exec_keepInstr_of_not_reach (hexec : exec i s = keepInstr (.lane l t) a imm k n legal body s)
    (hlegal : legal = true) (hreach : s.keepOk t ((s.thread l t).cpu.ea a imm) k = false) (hruns : laneRuns s l t n) :
    exec i s = .next (s.threadFault l t 4) :=
  exec_of_fault (free := false) (hexec.trans keepInstr_eq) hlegal hruns (keepBody_of_not_reach hreach)

theorem exec_ldk : exec (.ldk w d a imm) s =
    keepInstr w a imm 1 1 true (fun s c x => .done s (c.set d (s.keepGet w x))) s := rfl

theorem exec_stk : exec (.stk w d a imm) s =
    keepInstr w a imm 1 1 true (fun s c x => .done (s.keepPut w x (c.get d)) c) s := rfl

theorem exec_ldk2 : exec (.ldk2 w d a imm) s = keepInstr w a imm 2 2 (isPair d)
    (fun s c x => .done s ((c.set d (s.keepGet w x)).set (hiReg d) (s.keepGet w (x + 1)))) s := rfl

theorem exec_stk2 : exec (.stk2 w d a imm) s = keepInstr w a imm 2 2 (isPair d)
    (fun s c x => .done ((s.keepPut w x (c.get d)).keepPut w (x + 1) (c.get (hiReg d))) c) s := rfl

/-! ## Words after a store (R239, R276) -/

/-- A store of v at word x of one lane's keep memory. -/
def putWord (x : Nat) (v : TWord) (ln : LaneSt) : LaneSt := { ln with keep := sput TWord.zero ln.keep x v }

/-- A lane's store, and a donor's into the lane it repairs too (R352). -/
theorem keepPut_lane (s : State) (l : LaneId) (t : ThreadId) (x : Nat) (v : TWord) : s.keepPut (.lane l t) x v =
    match s.repairOf l with
    | none => s.modLane l (putWord x v)
    | some m => (s.modLane l (putWord x v)).modLane m (putWord x v) := rfl

theorem canonical_keepPut (h : canonical s = true) : canonical (s.keepPut w x v) = true :=
  (keepPut_steady s w x v ⟨h, rfl, .inl rfl⟩).canon

theorem canonical_putWord (h : canonical s = true) : canonical (s.modLane l (putWord x v)) = true :=
  (modLane_steady l ⟨h, rfl, .inl rfl⟩ fun _ hk => swf_sput (d := fun _ => TWord.zero) hk).canon

theorem canonical_keep (h : canonical s = true) (l : LaneId) : swf (fun _ => TWord.zero) (s.lane l).keep = true :=
  (Steady.mk h rfl (.inl rfl)).keepOf l

/-- A lane's word reads back what was stored. -/
theorem word_putWord (h : canonical s = true) : sget TWord.zero ((s.modLane l (putWord x v)).lane l).keep x = v := by
  rw [lane_modLane (canonical_lanes h)]
  exact sget_sput_same (d := fun _ => TWord.zero) (canonical_keep h l)

/-- A store leaves every other word of every lane. -/
theorem word_putWord_ne (hxy : y ≠ x) :
    sget TWord.zero ((s.modLane l (putWord x v)).lane m).keep y = sget TWord.zero (s.lane m).keep y :=
  lane_modLane_of_eq (p := fun ln => sget TWord.zero ln.keep y) (fun _ => sget_sput_other hxy) m

/-- A word stored stays where the same word is stored into another lane, or into this one again. -/
theorem word_putWord_again (h : canonical s = true) (hword : sget TWord.zero (s.lane l).keep x = v) :
    sget TWord.zero ((s.modLane m (putWord x v)).lane l).keep x = v := by
  by_cases hml : l = m
  · rw [hml]
    exact word_putWord h
  · rw [lane_modLane_ne hml, hword]

theorem word_keepPut (h : canonical s = true) : sget TWord.zero ((s.keepPut (.lane l t) x v).lane l).keep x = v := by
  rw [keepPut_lane]
  split
  · exact word_putWord h
  · exact word_putWord_again (canonical_putWord h) (word_putWord h)

theorem word_keepPut_ne (hxy : y ≠ x) :
    sget TWord.zero ((s.keepPut (.lane l t) x v).lane m).keep y = sget TWord.zero (s.lane m).keep y := by
  rw [keepPut_lane]
  split
  · exact word_putWord_ne hxy
  · exact (word_putWord_ne hxy).trans (word_putWord_ne hxy)

theorem word_keepPut_repaired (h : canonical s = true) (hrep : s.repairOf l = some m) :
    sget TWord.zero ((s.keepPut (.lane l t) x v).lane m).keep x = v := by
  rw [keepPut_lane, hrep]
  exact word_putWord (canonical_putWord h)

/-- A store leaves every lane but its own and the one repaired. -/
theorem lane_keepPut_ne (hml : m ≠ l) (hrep : s.repairOf l ≠ some m) :
    (s.keepPut (.lane l t) x v).lane m = s.lane m := by
  rw [keepPut_lane]
  split
  next => exact lane_modLane_ne hml
  next m' hm' =>
    have hne : m ≠ m' := fun h => hrep (h ▸ hm')
    rw [lane_modLane_ne hne, lane_modLane_ne hml]

@[simp] theorem keepPut_lane_core : (s.keepPut (.lane l t) x v).core = s.core := by
  rw [keepPut_lane]
  split <;> rfl

theorem word_keepPut_core (h : canonical s = true) : sget TWord.zero (s.keepPut .core x v).core.keep x = v := by
  obtain ⟨-, -, hcore, -⟩ := (canonical_iff s).1 h
  exact sget_sput_same (d := fun _ => TWord.zero) hcore.1

theorem word_keepPut_core_ne (hxy : y ≠ x) :
    sget TWord.zero (s.keepPut .core x v).core.keep y = sget TWord.zero s.core.keep y := sget_sput_other hxy

end Keep

/-- Settles O16: the keep instructions by the words they reach, and the words after a store. -/
theorem keepAccesses : Obligations.KeepAccesses := by
  refine ⟨fun s l t d a imm hs => ?_, fun s l m t x y v h => ?_⟩
  · intro c k at_ odd word wordM pairOk st
    refine ⟨fun hok => ⟨laneDoes_of_keepInstr exec_ldk rfl hok rfl, laneDoes_of_keepInstr exec_stk rfl hok rfl⟩,
      fun hok ⟨heven, hd⟩ => ?_, fun hlo hhi => ?_, fun hlo hhi ⟨heven, hd⟩ => ?_⟩
    · have hpair := isPair_of_even heven hd
      exact ⟨laneDoes_of_keepInstr exec_ldk2 hpair hok rfl, laneDoes_of_keepInstr exec_stk2 hpair hok rfl⟩
    · have hreach : 0 ≤ k.ea a imm ∧ k.ea a imm + (1 : Nat) ≤ 8192 := ⟨hlo, Int.add_one_le_of_lt hhi⟩
      exact ⟨coreDoes_of_keepInstr exec_ldk rfl hreach rfl, coreDoes_of_keepInstr exec_stk rfl hreach rfl⟩
    · have hpair := isPair_of_even heven hd
      have hreach : 0 ≤ k.ea a imm ∧ k.ea a imm + (2 : Nat) ≤ 8192 :=
        ⟨hlo, Int.add_le_of_le_sub_right (Int.le_sub_one_of_lt hhi)⟩
      exact ⟨coreDoes_of_keepInstr exec_ldk2 hpair hreach rfl, coreDoes_of_keepInstr exec_stk2 hpair hreach rfl⟩
  · exact ⟨word_keepPut h, word_keepPut_ne, lane_keepPut_ne, word_keepPut_repaired h, keepPut_lane_core,
      word_keepPut_core h, word_keepPut_core_ne, rfl, canonical_keepPut h, canonical_keepPut h⟩

end Sys2Proof.Proofs
end

section
/-! SUPPORT. Rings (R243 to R250, R277): what TAKE, WAIT, POST and RCNT do, by the entries of the ring and the image's
ring map, and how a WAIT goes on. -/

namespace Sys2Proof.Proofs

open Sys2Proof.Machine Sys2Proof.Laws

section Rings

variable {s s' : State} {l : LaneId} {t : ThreadId} {c c' : Cpu} {d x : Reg} {r : BitVec 7} {ln : LaneSt}

/-! ## The oldest entry (R243, R249) -/

/-- The lane with the entries of general ring r replaced. -/
def setRing (r : BitVec 7) (es : List (BitVec 64)) (ln : LaneSt) : LaneSt :=
  { ln with rings := ln.rings.set r.toNat es }

/-- The lane with the entries of fixed ring r replaced. -/
def setFixed (r : BitVec 7) (es : List FixedEntry) (ln : LaneSt) : LaneSt :=
  { ln with fixed := ln.fixed.set (r.toNat - 96) es }

theorem takeEntry_of_general {e : BitVec 64} {es : List (BitVec 64)} (hr : r.toNat < 96)
    (h : ln.rings.getD r.toNat [] = e :: es) :
    ln.takeEntry r = some (⟨e, true⟩, setRing r es ln) := by
  simp only [LaneSt.takeEntry, if_pos hr, h, setRing]

theorem takeEntry_of_general_nil (hr : r.toNat < 96) (h : ln.rings.getD r.toNat [] = []) :
    ln.takeEntry r = none := by
  simp only [LaneSt.takeEntry, if_pos hr, h]

theorem takeEntry_of_fixed {e : FixedEntry} {es : List FixedEntry} (hr : 96 ≤ r.toNat)
    (h : ln.fixed.getD (r.toNat - 96) [] = e :: es) :
    ln.takeEntry r = some (e, setFixed r es ln) := by
  simp only [LaneSt.takeEntry, if_neg (Nat.not_lt.2 hr), h, setFixed]

theorem takeEntry_of_fixed_nil (hr : 96 ≤ r.toNat) (h : ln.fixed.getD (r.toNat - 96) [] = []) :
    ln.takeEntry r = none := by
  simp only [LaneSt.takeEntry, if_neg (Nat.not_lt.2 hr), h]

/-! ## The pair an entry is moved into (R248) -/

theorem ofCode_mod (n : Nat) : Tag.ofCode (n % 4) = Tag.ofCode n := by
  rw [Tag.ofCode, Tag.ofCode, Nat.mod_mod]

/-- The tag of a head entry lies in its low word. -/
theorem ofCode_low (e : BitVec 64) :
    Tag.ofCode ((e.truncate 32 : Word).toNat / 2 ^ 30) = Tag.ofCode (e.toNat / 1073741824) := by
  rw [← ofCode_mod, ← ofCode_mod (e.toNat / _), BitVec.truncate_eq_setWidth, BitVec.toNat_setWidth]
  congr 1
  omega

theorem high_eq (e : BitVec 64) : (e >>> 32).truncate 32 = BitVec.ofNat 32 (e.toNat / 4294967296) := by
  rw [BitVec.truncate_eq_setWidth, ← BitVec.ofNat_toNat, BitVec.toNat_ushiftRight, Nat.shiftRight_eq_div_pow]

theorem setEntry_head (c : Cpu) (d : Reg) (e : BitVec 64) : c.setEntry d ⟨e, true⟩ =
    (c.set d ⟨BitVec.ofNat 32 (e.toNat / 4294967296), Tag.ofCode (e.toNat / 1073741824)⟩).set (d + 1)
      ⟨BitVec.ofNat 32 e.toNat, .good⟩ := by
  rw [Cpu.setEntry, if_pos rfl, ofCode_low, high_eq, BitVec.truncate_eq_setWidth, ← BitVec.ofNat_toNat]
  rfl

theorem setEntry_plain (c : Cpu) (d : Reg) (e : BitVec 64) : c.setEntry d ⟨e, false⟩ =
    (c.set d ⟨BitVec.ofNat 32 e.toNat, .good⟩).set (d + 1) ⟨BitVec.ofNat 32 (e.toNat / 4294967296), .good⟩ := by
  rw [Cpu.setEntry, if_neg Bool.false_ne_true, high_eq, BitVec.truncate_eq_setWidth, ← BitVec.ofNat_toNat]
  rfl

/-! ## TAKE (R248, R250, R277) -/

theorem takeEff_of_none (h : (s.lane l).takeEntry r = none) :
    takeEff l d r s c = .done s (c.flags true false false .good) := by
  rw [takeEff, h]

theorem takeEff_of_some {e : FixedEntry} {g : LaneSt → LaneSt} (hs : s.lanes.length = 3)
    (h : (s.lane l).takeEntry r = some (e, g (s.lane l))) :
    takeEff l d r s c = .done (s.modLane l g) ((c.setEntry d e).flags false e.head false .good) := by
  rw [takeEff, h]
  exact congrArg (Eff.done · _) (modLane_const hs)

/-- What TAKE does (R277). -/
def takeBody (d : Reg) (r : BitVec 7) (l : LaneId) (t : ThreadId) (s : State) (c : Cpu) : Eff :=
  if d = 0 ∨ ¬s.mayTake r t then .fault 5 0 else takeEff l d r s c

theorem exec_take : exec (.take (.lane l t) d r) s =
    .next (s.issueLane l t 1 false (ringReg d) (takeBody d r l t)) := rfl

theorem takeBody_of_may (hd : d ≠ 0) (hmay : s.mayTake r t = true) : takeBody d r l t s c = takeEff l d r s c := by
  simp [takeBody, hd, hmay]

/-! ## WAIT (R234, R244) -/

theorem resume_of_run (hrun : (s.thread l t).st = .run) : s.resume l t d r = s := by
  simp [State.resume, hrun]

/-- A WAIT of a running thread begins its turn at once. -/
theorem exec_wait_of_run (hrun : (s.thread l t).st = .run) : exec (.wait (.lane l t) d r) s =
    .next (s.issueLane l t 1 false (ringReg d) (waitEff d r l t)) := by
  have hexec : exec (.wait (.lane l t) d r) s =
      .next ((s.resume l t d r).issueLane l t 1 false (ringReg d) (waitEff d r l t)) := rfl
  rw [hexec, resume_of_run hrun]

theorem waitEnds_of_some {e : FixedEntry × LaneSt} (h : (s.lane l).takeEntry r = some e) : s.waitEnds l r = true := by
  simp [State.waitEnds, h]

theorem waitEnds_of_fixed (hr : 96 ≤ r.toNat) : s.waitEnds l r = true := by
  simp [State.waitEnds, hr]

theorem waitEnds_of_none (hr : r.toNat < 96) (h : (s.lane l).takeEntry r = none) :
    s.waitEnds l r = s.postersDone l r := by
  simp [State.waitEnds, h, Nat.not_le.2 hr]

theorem waitEff_of_ends (hd : d ≠ 0) (hmay : s.mayTake r t = true) (hends : s.waitEnds l r = true) :
    waitEff d r l t s c = takeEff l d r s c := by
  simp [waitEff, hd, hmay, hends]

theorem waitEff_of_turn (hd : d ≠ 0) (hmay : s.mayTake r t = true) (hends : s.waitEnds l r = false) :
    waitEff d r l t s c = .turn (s.modLane l (·.putThread t
      { s.thread l t with st := .wait, used := (s.thread l t).used + 1, waiting := some (d, r.toNat) })) := by
  simp [waitEff, hd, hmay, hends]

/-! ## TAKE and WAIT of a thread that may take (R248, R250, R277) -/

section May

variable (heven : d.val % 2 = 0) (hd : d ≠ 0) (hmay : s.mayTake r t = true)

include heven hd hmay

theorem laneDoes_take (heff : takeEff l d r s (s.thread l t).cpu = .done s' c) :
    laneDoes s l t 1 (.take (.lane l t) d r) s' c :=
  laneDoes_of_done exec_take (decide_eq_true heven) ((takeBody_of_may hd hmay).trans heff)

theorem laneDoes_wait (hends : s.waitEnds l r = true) (heff : takeEff l d r s (s.thread l t).cpu = .done s' c) :
    laneDoes s l t 1 (.wait (.lane l t) d r) s' c := fun hruns =>
  laneDoes_of_done (exec_wait_of_run (st_of_runs hruns)) (decide_eq_true heven)
    ((waitEff_of_ends hd hmay hends).trans heff) hruns

/-- With an entry there, both take it. -/
theorem laneDoes_take_wait_of_some {e : FixedEntry} {g : LaneSt → LaneSt} (hs : s.lanes.length = 3)
    (h : (s.lane l).takeEntry r = some (e, g (s.lane l)))
    (hc : ((s.thread l t).cpu.setEntry d e).flags false e.head false .good = c) :
    laneDoes s l t 1 (.take (.lane l t) d r) (s.modLane l g) c ∧
      laneDoes s l t 1 (.wait (.lane l t) d r) (s.modLane l g) c := by
  have heff := (takeEff_of_some (d := d) (c := (s.thread l t).cpu) hs h).trans (congrArg _ hc)
  exact ⟨laneDoes_take heven hd hmay heff, laneDoes_wait heven hd hmay (waitEnds_of_some h) heff⟩

/-- A waiting turn counts one slot. -/
theorem exec_wait_of_turn (hr : r.toNat < 96) (h : (s.lane l).takeEntry r = none)
    (hposters : s.postersDone l r = false) (hruns : laneRuns s l t 1) :
    exec (.wait (.lane l t) d r) s = .next (s.modLane l (·.putThread t
      { s.thread l t with st := .wait, used := (s.thread l t).used + 1, waiting := some (d, r.toNat) })) := by
  have hlegal : ringReg d = true := decide_eq_true heven
  rw [exec_wait_of_run (st_of_runs hruns), issueLane_of_runs hruns hlegal,
    waitEff_of_turn hd hmay ((waitEnds_of_none hr h).trans hposters)]
  rfl

end May

/-! ## POST and RCNT (R243, R245, R277) -/

/-- What POST does (R243, R245, R277). -/
def postBody (d : Reg) (r : BitVec 7) (l : LaneId) (t : ThreadId) (s : State) (c : Cpu) : Eff :=
  if d = 0 ∨ ¬s.mayPost r t then .fault 5 0
  else
    let q := (s.lane l).rings.getD r.toNat []
    if 32 ≤ q.length then .warn s (c.flags true false false .good) 6
    else
      .done (s.modLane l (setRing r (q ++ [c.entry d]))) (c.flags false false false .good)

theorem exec_post : exec (.post (.lane l t) d r) s =
    .next (s.issueLane l t 1 false (ringReg d) (postBody d r l t)) := rfl

theorem postBody_of_may (hd : d ≠ 0) (hmay : s.mayPost r t = true) : postBody d r l t s c =
    if 32 ≤ ((s.lane l).rings.getD r.toNat []).length then .warn s (c.flags true false false .good) 6
    else
      .done (s.modLane l (setRing r ((s.lane l).rings.getD r.toNat [] ++ [c.entry d])))
        (c.flags false false false .good) := by
  simp [postBody, hd, hmay]

/-- What RCNT does (R277). -/
def rcntBody (x : Reg) (r : BitVec 7) (l : LaneId) (t : ThreadId) (s : State) (c : Cpu) : Eff :=
  if ¬s.mayCount r t then .fault 5 0
  else
    let n := (s.lane l).ringCount r
    .done s ((c.set x ⟨BitVec.ofNat 32 n, .good⟩).flags (decide (n = 0)) false false .good)

theorem exec_rcnt : exec (.rcnt (.lane l t) x r) s =
    .next (s.issueLane l t 1 false true (rcntBody x r l t)) := rfl

/-- Only general rings have posters. -/
theorem mayPost_of_fixed (hr : 96 ≤ r.toNat) : s.mayPost r t = false := by
  unfold State.mayPost
  split
  · rfl
  · simp [hr]

/-! ## A wait that goes on (R244) -/

/-- A thread that has completed an instruction of n slots with the context c (R234). -/
def finishes (th : Thread) (n : Nat) (c : Cpu) : Thread :=
  { th with st := .run, cpu := c, used := th.used + n, waiting := none }

theorem finish_eq (s : State) (l : LaneId) (t : ThreadId) (n : Nat) (c : Cpu) : s.finish l t n c =
    match (finishes (s.thread l t) n c).haltAt with
    | none => s.modLane l (·.putThread t (finishes (s.thread l t) n c))
    | some k =>
      if k ≤ (finishes (s.thread l t) n c).used then
        s.stopThread l t { finishes (s.thread l t) n c with lastPc := c.pc } .halted
      else s.modLane l (·.putThread t (finishes (s.thread l t) n c)) := rfl

theorem dropGroup_putThread (ln : LaneSt) (t : ThreadId) (th u : Thread) :
    (ln.dropGroup t th).putThread t u = (ln.putThread t u).dropGroup t th := by
  unfold LaneSt.dropGroup
  split <;> rfl

/-- An instruction completes alike from lanes that differ in its thread only, and there not in what is left of it. -/
theorem finish_congr {g g' : LaneSt → LaneSt} {n : Nat}
    (hlane : ∀ ln th, (g ln).putThread t th = (g' ln).putThread t th)
    (hthread : finishes ((s.modLane l g).thread l t) n c = finishes ((s.modLane l g').thread l t) n c) :
    (s.modLane l g).finish l t n c = (s.modLane l g').finish l t n c := by
  have hput : ∀ th, (s.modLane l g).modLane l (·.putThread t th) = (s.modLane l g').modLane l (·.putThread t th) := by
    simp [hlane]
  have hstop : ∀ th st, (s.modLane l g).stopThread l t th st = (s.modLane l g').stopThread l t th st := by
    simp [State.stopThread, dropGroup_putThread, hlane]
  rw [finish_eq, finish_eq, hthread]
  simp only [hput, hstop]

/-- The state in which a thread that waited runs its turn. -/
def resumed (s : State) (l : LaneId) (t : ThreadId) : State :=
  s.modLane l (·.putThread t { s.thread l t with st := .run })

theorem resumed_lanes_length : (resumed s l t).lanes.length = s.lanes.length := modLane_lanes_length ..

theorem resume_of_waiting (hst : (s.thread l t).st = .wait) (hwait : (s.thread l t).waiting = some (d, r.toNat)) :
    s.resume l t d r = resumed s l t := by
  simp [State.resume, hst, hwait, resumed]

/-- The turn of a waiting thread once its wait ends. -/
theorem exec_waitEnd (hst : (s.thread l t).st = .wait) (hwait : (s.thread l t).waiting = some (d, r.toNat))
    (hends : s.waitEnds l r = true) :
    exec (.waitEnd l t) s = .next ((resumed s l t).issueLane l t 1 false true (waitEff d r l t)) := by
  have hring : BitVec.ofNat 7 r.toNat = r := by simp
  have hexec : exec (.waitEnd l t) s = execWaitEnd l t s := rfl
  rw [hexec, execWaitEnd, hwait]
  simp only [hring]
  rw [if_pos ⟨hst, hends⟩, resume_of_waiting hst hwait]

section Goes

variable (hs : s.lanes.length = 3) (ht : (s.lane l).threads.length = 128)

include hs

theorem lane_resumed : (resumed s l t).lane l = (s.lane l).putThread t { s.thread l t with st := .run } :=
  lane_modLane hs

include ht

theorem thread_resumed : (resumed s l t).thread l t = { s.thread l t with st := .run } :=
  thread_modLane_putThread hs ht

theorem laneRuns_resumed (hexec : (s.lane l).executing = true) (hbudget : (s.thread l t).used < s.budget t)
    (hisa : 1 ≤ s.isa) : laneRuns (resumed s l t) l t 1 := by
  rw [laneRuns, thread_resumed hs ht, lane_resumed hs]
  exact ⟨hexec, rfl, hbudget, hisa⟩

/-- What completes in the resumed state completes as in the state before, the waiting thread being the one that runs. -/
theorem resumed_finish {g : LaneSt → LaneSt} {n : Nat} (hthreads : ∀ ln, (g ln).threads = ln.threads)
    (hg : ∀ ln u, g (ln.putThread t u) = (g ln).putThread t u) :
    ((resumed s l t).modLane l g).finish l t n c = (s.modLane l g).finish l t n c := by
  have hold : (s.modLane l g).thread l t = s.thread l t := by
    rw [State.thread, lane_modLane hs, hthreads, State.thread]
  have hnew : ((resumed s l t).modLane l g).thread l t = { s.thread l t with st := .run } := by
    rw [← thread_resumed hs ht, State.thread, lane_modLane (resumed_lanes_length.trans hs), hthreads, State.thread]
  rw [resumed, modLane_modLane] at hnew ⊢
  refine finish_congr (fun ln th => ?_) ?_
  · rw [hg, putThread_putThread]
  · rw [hold, hnew, finishes, finishes]

/-- A waiting thread whose general ring holds an entry takes it and goes on. -/
theorem exec_waitEnd_of_general {e : BitVec 64} {es : List (BitVec 64)} (hd : d ≠ 0) (hmay : s.mayTake r t = true)
    (hr : r.toNat < 96) (hring : (s.lane l).rings.getD r.toNat [] = e :: es) (hexec : (s.lane l).executing = true)
    (hst : (s.thread l t).st = .wait) (hwait : (s.thread l t).waiting = some (d, r.toNat))
    (hbudget : (s.thread l t).used < s.budget t) (hisa : 1 ≤ s.isa)
    (hc : ((s.thread l t).cpu.setEntry d ⟨e, true⟩).flags false true false .good = c)
    (hpc : (c.advance 1).pc < s.codeWords) :
    exec (.waitEnd l t) s =
      .next ((s.modLane l (setRing r es)).finish l t 1 (c.advance 1)) := by
  have hentry : ((resumed s l t).lane l).takeEntry r = some (⟨e, true⟩, setRing r es ((resumed s l t).lane l)) :=
    takeEntry_of_general hr (by rw [lane_resumed hs]; exact hring)
  have hcpu : ((resumed s l t).thread l t).cpu = (s.thread l t).cpu := by rw [thread_resumed hs ht]
  have hmay' : (resumed s l t).mayTake r t = true := hmay
  have hpc' : (c.advance 1).pc < (resumed s l t).codeWords := hpc
  have heff : waitEff d r l t (resumed s l t) ((resumed s l t).thread l t).cpu =
      .done ((resumed s l t).modLane l (setRing r es)) c := by
    rw [waitEff_of_ends hd hmay' (waitEnds_of_some hentry), takeEff_of_some (resumed_lanes_length.trans hs) hentry,
      hcpu, ← hc]
  rw [exec_waitEnd hst hwait (waitEnds_of_some (takeEntry_of_general hr hring)),
    issueLane_of_runs (laneRuns_resumed hs ht hexec hbudget hisa) rfl, heff, settle_done hpc']
  exact congrArg _ (resumed_finish hs ht (fun _ => rfl) fun _ _ => rfl)

end Goes

end Rings

end Sys2Proof.Proofs
end

section
/-! SUPPORT. The statements about keep ranges and rings (R239, R243 to R250, R255, R276, R277), from the cases above. -/

namespace Sys2Proof.Proofs

open Sys2Proof.Machine Sys2Proof.Laws

section Full

variable {s : State} {l : LaneId} {t : ThreadId} {c : Cpu} {d : Reg} {r : BitVec 7}

/-! ## A POST to a full ring (R245) -/

theorem advance_flags (c : Cpu) (z n l : Bool) (ct : Tag) (k : Nat) :
    (c.flags z n l ct).advance k = (c.advance k).flags z n l ct := by
  unfold Cpu.advance Cpu.flags
  dsimp only
  split <;> rfl

/-- The state after a POST to a full ring: the thread goes on, and RING_FULL is reported (R245, R255, R256). -/
theorem exec_post_of_full (heven : d.val % 2 = 0) (hd : d ≠ 0) (hmay : s.mayPost r t = true)
    (hfull : 32 ≤ ((s.lane l).rings.getD r.toNat []).length) (hhalt : (s.thread l t).haltAt = none)
    (hruns : laneRuns s l t 1) (hpc : ((s.thread l t).cpu.advance 1).pc < s.codeWords) :
    let th := s.thread l t
    exec (.post (.lane l t) d r) s =
      .next ((s.modLane l (·.putThread t
        (finishes th 1 ((th.cpu.advance 1).flags true false false .good)))).reportThread l t 6
          { th with used := th.used + 1 }) := by
  intro th
  have hlegal : ringReg d = true := decide_eq_true heven
  have hpc' : ((th.cpu.flags true false false .good).advance 1).pc < s.codeWords := by
    rw [advance_flags]
    exact hpc
  rw [exec_post, issueLane_of_runs hruns hlegal, postBody_of_may hd hmay, if_pos hfull, State.settle, State.complete,
    if_pos hpc', finish_eq, advance_flags]
  simp only [finishes, hhalt, th]

theorem canonical_modLane {g : LaneSt → LaneSt} (h : canonical s = true) (hg : ∀ ln, (g ln).keep = ln.keep) :
    canonical (s.modLane l g) = true :=
  (modLane_steady l ⟨h, rfl, .inl rfl⟩ fun ln hk => by rwa [hg]).canon

/-- A report of any fault but OVERRUN sets TFAULT (R256). -/
theorem reportThread_tfault {th : Thread} {code : Nat} (h : canonical s = true) (hcode : code ≠ 1) :
    (s.reportThread l t code th).fld (A.lnStatus l.val) F.lnStatus_tfault = 1 := by
  rw [State.reportThread, if_neg hcode]
  exact event_flag (canonical_modLane h fun _ => rfl) ⟨by decide, by decide⟩ rfl

end Full

/-- Settles O17: each case is a `threadFault`, which leaves memories, rings and registers. -/
theorem rangeFaults : Obligations.RangeFaults := by
  refine ⟨fun s l t d a imm hs ht => ?_, fun s l t d r hs ht hruns => ?_⟩
  · intro th ea faults
    have hfaults : ∀ {i : Instr} {n k : Nat} {legal : Bool} {body : State → Cpu → Nat → Eff},
        exec i s = keepInstr (.lane l t) a imm k n legal body s → legal = true → s.keepOk t ea k = false →
          laneRuns s l t n → faults i := by
      intro i n k legal body hexec hlegal hreach hruns
      obtain ⟨hst, hcode, hpc, hused, hcpu⟩ := thread_threadFault (t := t) (code := 4) hs ht
      exact ⟨_, exec_keepInstr_of_not_reach hexec hlegal hreach hruns, hst, hcode, hpc, hused, hcpu,
        fun m n => congrArg (fun p => sget TWord.zero p.1 n) threadFault_memories⟩
    refine ⟨fun hok hruns => ⟨hfaults exec_ldk rfl hok hruns, hfaults exec_stk rfl hok hruns⟩,
      fun hok hruns heven hd => ?_⟩
    have hpair := isPair_of_even heven hd
    exact ⟨hfaults exec_ldk2 hpair hok hruns, hfaults exec_stk2 hpair hok hruns⟩
  · intro th faults
    have hfaults : ∀ {i : Instr} {legal : Bool} {body : State → Cpu → Eff},
        exec i s = .next (s.issueLane l t 1 false legal body) → legal = true →
          body s th.cpu = .fault 5 0 → faults i := by
      intro i legal body hexec hlegal hbody
      obtain ⟨hst, hcode, hpc, hused, hcpu⟩ := thread_threadFault (t := t) (code := 5) hs ht
      exact ⟨_, exec_of_fault hexec hlegal hruns hbody, hst, hcode, hpc, hused, hcpu,
        congrArg (fun p => p.2.1) threadFault_memories, congrArg (fun p => p.2.2) threadFault_memories⟩
    refine ⟨fun heven hbar => ?_, fun heven hbar => ?_, fun hbar => ?_⟩
    · have hno : d = 0 ∨ ¬s.mayTake r t = true := by simpa using hbar
      exact ⟨hfaults exec_take (decide_eq_true heven) (if_pos hno),
        hfaults (exec_wait_of_run (st_of_runs hruns)) (decide_eq_true heven) (if_pos hno)⟩
    · have hno : d = 0 ∨ ¬s.mayPost r t = true := by
        obtain hd | hr | hmay := hbar
        · exact .inl hd
        · exact .inr (by simp [mayPost_of_fixed hr])
        · exact .inr (by simp [hmay])
      exact hfaults exec_post (decide_eq_true heven) (if_pos hno)
    · have hno : ¬s.mayCount r t = true := by simp [hbar]
      exact hfaults exec_rcnt rfl (if_pos hno)

/-- Settles O18: the ring's oldest entry by the kind of ring, the turns of a WAIT by whether it ends. -/
theorem ringTransfer : Obligations.RingTransfer := by
  intro s l t d x r hs ht c odd pairOk sets general source low high tagOf head plain without entry waits
  have hhead : ∀ e, (c.setEntry d ⟨e, true⟩).flags false true false .good = head e := fun e =>
    congrArg (Cpu.flags · false true false .good) (setEntry_head c d e)
  have hplain : ∀ e, (c.setEntry d ⟨e, false⟩).flags false false false .good = plain e := fun e =>
    congrArg (Cpu.flags · false false false .good) (setEntry_plain c d e)
  refine ⟨fun ⟨heven, hd⟩ hmay =>
      ⟨fun hr => ⟨fun e es h => ?_, fun h => ?_⟩, fun hr => ⟨fun e es h => ?_, fun h => ?_⟩⟩,
    fun ⟨heven, hd⟩ hmay hroom => ?_, fun hmay => ?_, fun e es ⟨_, hd⟩ hmay hr h hexec hst hwait hbudget hisa hpc => ?_⟩
  · exact laneDoes_take_wait_of_some heven hd hmay hs (takeEntry_of_general hr h) (hhead e)
  · have hnone := takeEntry_of_general_nil hr h
    have heff := takeEff_of_none (s := s) (l := l) (d := d) (c := c) hnone
    exact ⟨laneDoes_take heven hd hmay heff,
      fun hposters => laneDoes_wait heven hd hmay ((waitEnds_of_none hr hnone).trans hposters) heff,
      fun hposters hruns => exec_wait_of_turn heven hd hmay hr hnone hposters hruns⟩
  · refine laneDoes_take_wait_of_some heven hd hmay hs (takeEntry_of_fixed hr h) ?_
    obtain ⟨bits, _ | _⟩ := e
    · exact hplain bits
    · exact hhead bits
  · have heff := takeEff_of_none (s := s) (l := l) (d := d) (c := c) (takeEntry_of_fixed_nil hr h)
    exact ⟨laneDoes_take heven hd hmay heff, laneDoes_wait heven hd hmay (waitEnds_of_fixed hr) heff⟩
  · exact laneDoes_of_done exec_post (decide_eq_true heven)
      ((postBody_of_may hd hmay).trans (if_neg (Nat.not_le.2 hroom)))
  · exact laneDoes_of_done exec_rcnt rfl (if_neg (not_not.2 hmay))
  · exact exec_waitEnd_of_general hs ht hd hmay hr h hexec hst hwait hbudget hisa (hhead e) hpc

/-- Settles O19: the state after the POST, read field by field. -/
theorem ringFull : Obligations.RingFull := by
  intro s l t d r hs ht h th heven hd hmay hfull hhalt hruns hpc
  let th' := finishes th 1 ((th.cpu.advance 1).flags true false false .good)
  let v := s.modLane l (·.putThread t th')
  let u := v.reportThread l t 6 { th with used := th.used + 1 }
  have hlane : u.lane l = { (s.lane l).putThread t th' with
      reports := (s.lane l).reports ++ [⟨t.val, 6, th.cpu.pc, th.used + 1⟩] } := by
    rw [lane_reportThread, lane_modLane ((modLane_lanes_length ..).trans hs), lane_modLane hs]
    rfl
  have hthread : u.thread l t = th' := (thread_of_lane hlane).trans (putThread_getD ht)
  refine ⟨u, exec_post_of_full heven hd hmay hfull hhalt hruns hpc, ?_, ?_, ?_, ?_, ?_, ?_⟩
  · rw [hthread]
    rfl
  · rw [hthread]
    rfl
  · rw [hthread]
    rfl
  · rw [hlane]
    rfl
  · rw [hlane]
  · exact reportThread_tfault (canonical_modLane h fun _ => rfl) (by decide)

end Sys2Proof.Proofs
end

section
/-! SUPPORT. The time instructions (R254, R278): pairs of registers as numbers of ticks, and sums that saturate. -/

namespace Sys2Proof.Proofs

open Sys2Proof.Machine Sys2Proof.Laws

section Times

variable {s : State} {l : LaneId} {t : ThreadId} {c : Cpu} {d a : Reg} {sel : BitVec 18}

/-! ## Pairs (R267, R278) -/

/-- The context with pair d set to the low 64 bits of an integer. -/
def setTicks (d : Reg) (c : Cpu) (n : Int) (t : Tag) : Cpu :=
  (c.set d ⟨BitVec.ofInt 32 n, t⟩).set (d + 1) ⟨BitVec.ofInt 32 (n / 4294967296), t⟩

theorem setPair_eq (c : Cpu) (d : Reg) (n : Nat) (t : Tag) : c.setPair d n t = setTicks d c n t := by
  have hhigh : ((n : Int) / 4294967296) = ((n / 2 ^ 32 : Nat) : Int) := rfl
  rw [setTicks, hhigh, BitVec.ofInt_natCast, BitVec.ofInt_natCast]
  rfl

/-- A 64-bit result below 0 or past the last tick saturates with tag BAD. -/
theorem setSat_eq (c : Cpu) (d : Reg) (n : Int) (t : Tag) : c.setSat d n t =
    if n < 0 then setTicks d c 0 .bad
    else if 18446744073709551615 < n then setTicks d c 18446744073709551615 .bad
    else setTicks d c n t := by
  have hsat : satU64 n t = if n < 0 then (0, .bad)
      else if 18446744073709551615 < n then (18446744073709551615, .bad) else (n.toNat, t) :=
    ite_ite_comm _ _ _ _ fun h => by omega
  rw [Cpu.setSat, hsat]
  split
  · exact setPair_eq c d 0 .bad
  · split
    · exact setPair_eq c d 18446744073709551615 .bad
    · rw [setPair_eq, Int.toNat_of_nonneg (by omega)]

/-- The flags of a comparison of two numbers of ticks. -/
theorem flags_natCast (c : Cpu) (m n : Nat) (ct : Tag) :
    c.flags (decide (m = n)) (decide (m < n)) (decide (m < n)) ct =
      { c with z := decide ((m : Int) = n), n := decide ((m : Int) < n), l := decide ((m : Int) < n), ct := ct } := by
  simp only [Cpu.flags, Int.ofNat_inj, Int.ofNat_lt]

/-! ## FRM (R278) -/

/-- What FRM reads of its lane. -/
def frameConst (ln : LaneSt) (n : Nat) : Nat :=
  match n with
  | 0 => ln.fCur.toNat
  | 1 => ln.fPrev.toNat
  | 2 => ln.frame
  | _ => ln.period

theorem frameConst_eq (ln : LaneSt) {n : Nat} (hn : n < 4) :
    (frameConst ln n : Int) = [(ln.fCur.toNat : Int), ln.fPrev.toNat, ln.frame, ln.period].getD n 0 := by
  interval_cases n <;> rfl

theorem exec_frm : exec (.frm (.lane l t) d sel) s =
    .next (s.issueLane l t 1 false (isPair d && decide (sel.toNat < 4)) fun s c =>
      .done s (c.setPair d (frameConst (s.lane l) sel.toNat) .good)) := rfl

theorem exec_tdue : exec (.tdue (.lane l t) a) s = .next (s.issueLane l t 1 false (isPair a) fun s c =>
    .done s (c.flags (decide (c.pair a = (s.lane l).fCur.toNat)) (decide (c.pair a < (s.lane l).fCur.toNat))
      (decide (c.pair a < (s.lane l).fCur.toNat)) (c.pairTag a))) := rfl

end Times

/-- Settles O20: each instruction by its own equation, on pairs read as integers. -/
theorem timeInstructions : Obligations.TimeInstructions := by
  intro s l t d a b x y sel hdv hd hav ha hbv hb odd ticks tag2 put sat sat32 near both ln c
  have hpd := isPair_of_even hdv hd
  have hpa := isPair_of_even hav ha
  have hpb := isPair_of_even hbv hb
  have hda : (isPair d && isPair a) = true := by rw [hpd, hpa]; rfl
  have hab : (isPair a && isPair b) = true := by rw [hpa, hpb]; rfl
  have hdab : (isPair d && isPair a && isPair b) = true := by rw [hda, hpb]; rfl
  have hsat32 : ∀ n t, satS n t = sat32 n t := satS_eq_ite
  have hnear : ∀ n m, roundDiv n m = near n m := roundDiv_eq_ite
  have hsat : ∀ c n t, c.setSat d n t = sat c n t := fun c => setSat_eq c d
  refine ⟨fun hsel => ?_, laneDoes_of_done exec_tdue hpa (congrArg _ (flags_natCast _ _ _ _)),
    bothDo_of_issueCpu (fun _ => rfl) hda fun c => hsat _ _ _,
    bothDo_of_issueCpu (fun _ => rfl) hdab fun c => hsat _ _ _,
    bothDo_of_issueCpu (fun _ => rfl) hdab fun c => hsat _ _ _,
    bothDo_of_issueCpu (fun _ => rfl) hab fun c => flags_natCast _ _ _ _,
    bothDo_set (fun _ => rfl) hab fun c => hsat32 _ _,
    bothDo_set (fun _ => rfl) hab fun c => (hsat32 _ _).trans (congrArg (sat32 · _) (hnear _ _)),
    bothDo_of_issueCpu (fun _ => rfl) hpd fun c => (hsat _ _ _).trans (congrArg (sat c · _) (hnear _ _)),
    bothDo_of_issueCpu (fun _ => rfl) hpd fun c => ?_⟩
  · refine laneDoes_of_done exec_frm (by rw [hpd, decide_eq_true hsel]; rfl) ?_
    rw [setPair_eq, frameConst_eq _ hsel]
    rfl
  · rw [Nat.mul_comm]
    exact setPair_eq c d _ _

end Sys2Proof.Proofs
end

section
/-! SUPPORT. Events of the lanes (R241, R345, R347 to R350, R352): heartbeats and the canary, the end of a repair's
copy, scrubs and the hand-on of a transaction: one equation per case. -/

namespace Sys2Proof.Proofs

open Sys2Proof.Machine Sys2Proof.Laws

section Cases

variable {s : State} {l : LaneId} {ticks : BitVec 32} {h : Heartbeat} {r : Repair} {x : HandOn} {a b c : Bool}

/-! ## Heartbeats and the canary (R345, R347) -/

/-- The heartbeat of lane l has reached the voters. -/
def heartbeatArrived (s : State) (l : LaneId) (h : Heartbeat) : State :=
  { s with tly := { s.tly with
    sent := s.tly.sent.set l.val none, arrived := s.tly.arrived.set l.val (some h) } }

/-- How far the lane's cycles depart from twice the canary's ticks. -/
def clockOff (h : Heartbeat) (ticks : BitVec 32) : Int := h.cycles - 2 * ticks.toNat

/-- The heartbeat has arrived and the lane's clock is shown. -/
def clockShown (s : State) (l : LaneId) (h : Heartbeat) (ticks : BitVec 32) : State :=
  (heartbeatArrived s l h).setFld (A.tlyClk l.val) F.tlyClk_ppm
    (BitVec.ofInt 16 (roundDiv (clockOff h ticks * 100000) (2 * ticks.toNat))).toNat

theorem execHeartbeat_of_none (hsent : s.tly.sent.getD l.val none = none) : execHeartbeat l ticks s = .next s := by
  rw [execHeartbeat, hsent]

theorem execHeartbeat_of_sent (hsent : s.tly.sent.getD l.val none = some h) : execHeartbeat l ticks s = .next (
    if h.cycles < 20000 ∨ ticks.toNat = 0 then heartbeatArrived s l h
    else if ticks.toNat < 25 * (clockOff h ticks).natAbs then
      (clockShown s l h ticks).modTly fun t => { t with drifted := l :: t.drifted }
    else clockShown s l h ticks) := by
  rw [execHeartbeat, hsent]
  rfl

/-- Too short a frame, or a canary that has not counted, shows nothing. -/
theorem execHeartbeat_of_short (hsent : s.tly.sent.getD l.val none = some h)
    (hshort : h.cycles < 20000 ∨ ticks.toNat = 0) :
    execHeartbeat l ticks s = .next (heartbeatArrived s l h) := by
  rw [execHeartbeat_of_sent hsent, if_pos hshort]

theorem execHeartbeat_of_measured (hsent : s.tly.sent.getD l.val none = some h) (hlong : 20000 ≤ h.cycles)
    (hticks : 0 < ticks.toNat) : execHeartbeat l ticks s = .next (
      if ticks.toNat < 25 * (clockOff h ticks).natAbs then
        (clockShown s l h ticks).modTly fun t => { t with drifted := l :: t.drifted }
      else clockShown s l h ticks) := by
  have hmeasured : ¬(h.cycles < 20000 ∨ ticks.toNat = 0) := by omega
  rw [execHeartbeat_of_sent hsent, if_neg hmeasured]

/-! ## The end of a repair's copy (R352) -/

theorem execRepairCopyEnd_of_none (hrep : s.tly.repair = none) : execRepairCopyEnd l s = .next s := by
  rw [execRepairCopyEnd, hrep]

theorem execRepairCopyEnd_of_released (hrep : s.tly.repair = some r) (hl : r.lane = l)
    (hrel : r.released.isSome = true) (hcopy : r.copied = false) :
    let d := s.lane r.donor
    let copied := s.modLane l fun ln => { ln with
      keep := d.keep, code := if r.code then d.code else ln.code, fault := .none }
    let coded := if r.code then copied.setReg (A.lnCodedig l.val) (copied.reg (A.lnCodedig r.donor.val)) else copied
    let us := (s.tbc.toNat - (s.frame.f.toNat + 500)) / 100
    execRepairCopyEnd l s = .next ((coded.setFld A.tlyRejoin F.tlyRejoin_copy (Nat.min us 65535)).modTly
      fun t => { t with repair := some { r with copied := true } }) := by
  intro d copied coded us
  have hgo : r.lane = l ∧ r.released.isSome = true ∧ ¬r.copied = true := ⟨hl, hrel, Bool.eq_false_iff.1 hcopy⟩
  have hus : (coded.tbc.toNat - (coded.frame.f.toNat + 500)) / 100 = us := by
    unfold coded
    split <;> rfl
  rw [execRepairCopyEnd, hrep, ← hus]
  exact next_of_pos hgo

/-! ## Hand-on (R348 to R350) -/

theorem execTransactionHandOn_of_none (hnone : s.nextHandOn = none) : execTransactionHandOn a b c s = .next s := by
  rw [execTransactionHandOn, hnone, ite_self]

theorem execTransactionHandOn_of_some (hheld : s.heldReset = false) (hnext : s.nextHandOn = some x) :
    let taken := s.modTly fun t => { t with handOn := t.handOn.erase x }
    let good := taken.voters.filter fun v => [a, b, c].getD v false
    execTransactionHandOn a b c s = .next (((taken.judge good).deliverTxn x.txn good).timeHandOn x.beyond) := by
  rw [execTransactionHandOn, if_neg (Bool.eq_false_iff.1 hheld), hnext]

end Cases

/-- Settles O51: each event by its cases, a scrub by what it finds. -/
theorem laneEvents : Obligations.LaneEvents := by
  intro s l ticks h r x a b c beat t off shown d copied coded us timed lost fails taken good
  refine ⟨execHeartbeat_of_short, fun hsent hlong hticks => ⟨fun hin => ?_, fun hout => ?_⟩, execHeartbeat_of_none,
    execRepairCopyEnd_of_released, execRepairCopyEnd_of_none, rfl, rfl, rfl, rfl, rfl,
    execTransactionHandOn_of_some, execTransactionHandOn_of_none⟩
  · exact (execHeartbeat_of_measured hsent hlong hticks).trans (next_of_neg (Nat.not_lt.2 hin))
  · exact (execHeartbeat_of_measured hsent hlong hticks).trans (next_of_pos hout)

end Sys2Proof.Proofs
end

section
/-! SUPPORT. Transfers of control (R255, R273, R284): what an instruction that jumps leaves, on a lane and on the core. -/

namespace Sys2Proof.Proofs

open Sys2Proof.Machine Sys2Proof.Laws

section Transfers

variable {s s' : State} {l : LaneId} {t : ThreadId} {n p : Nat} {i : Instr} {c : Cpu} {free legal : Bool}
  {body : State → Cpu → Eff}

theorem settle_jump (h : p < s.codeWords) :
    s.settle l t n (.jump s' c p) = s'.finish l t n { c with pc := p } := if_pos h

theorem laneGoes_of_jump (hexec : exec i s = .next (s.issueLane l t n free legal body)) (hlegal : legal = true)
    (hbody : body s (s.thread l t).cpu = .jump s' c p) : laneGoes s l t n i s' c p := by
  intro hruns hp
  rw [hexec, issueLane_of_runs hruns hlegal, hbody, settle_jump hp]

theorem settleCore_jump (h : codeOk p = true) :
    s.settleCore (.jump s' c p) = s'.modCore fun k => { k with cpu := { c with pc := p } } := if_pos h

/-- A jump from the issued state that changes what it would of s' goes on as the statements say. -/
theorem coreGoes_of_jump (hexec : exec i s = .next (s.issueCore n legal body)) (hlegal : legal = true)
    (hbody : body (coreIssued s n) s.core.cpu = .jump (coreIssued s' n) c p) (hruns : coreRuns s)
    (hp : codeOk p = true) : exec i s = .next (coreAfter s' n { c with pc := p }) := by
  rw [hexec, issueCore_of_runs hruns hlegal, hbody, settleCore_jump hp]
  rfl

/-- An instruction of both sets that jumps, with what it makes of its register context. -/
theorem bothGo_of_issue {i : Who → Instr} {f : Cpu → Cpu} {q : Who → Cpu → Nat}
    (hexec : ∀ w, exec (i w) s = .next (s.issue w 1 true fun s c => .jump s (f c) (q w c))) {lp cp : Cpu → Nat}
    (hlane : ∀ l t c, q (.lane l t) c = lp c) (hcore : ∀ c, q .core c = cp c) : bothGo s i f lp cp := by
  have hissue : ∀ l t, exec (i (.lane l t)) s =
      .next (s.issueLane l t 1 false true fun s c => .jump s (f c) (q (.lane l t) c)) := fun l t => hexec (.lane l t)
  have hissueCore : exec (i .core) s = .next (s.issueCore 1 true fun s c => .jump s (f c) (q .core c)) := hexec .core
  refine ⟨fun l t => laneGoes_of_jump (hissue l t) rfl ?_, coreGoes_of_jump hissueCore rfl ?_⟩
  · rw [hlane]
  · rw [hcore]

end Transfers

/-! ## Branches (R270, R273) -/

section Branch

variable {s : State} {l : LaneId} {t : ThreadId} {w : Who} {k : BitVec 4} {target : BitVec 16} {d : Reg} {c : Cpu}

/-- What a conditional branch does (R273). -/
def branchBody (w : Who) (k : BitVec 4) (target : BitVec 16) (s : State) (c : Cpu) : Eff :=
  if c.holds k then .jump s c (codeTarget w c.pc target) else .done s c

theorem branchBody_of_holds (h : c.holds k = true) :
    branchBody w k target s c = .jump s c (codeTarget w c.pc target) := if_pos h

theorem branchBody_of_not_holds (h : c.holds k = false) : branchBody w k target s c = .done s c :=
  if_neg (Bool.eq_false_iff.1 h)

theorem exec_bcc_lane : exec (.bcc (.lane l t) k target) s =
    .next (s.issueLane l t 1 false (condOk k) (branchBody (.lane l t) k target)) := rfl

theorem exec_bcc_core : exec (.bcc .core k target) s =
    .next (s.issueCore 1 (condOk k) (branchBody .core k target)) := rfl

/-- What a jump with a link does (R273, R284). -/
def linkBody (w : Who) (d : Reg) (target : BitVec 16) (s : State) (c : Cpu) : Eff :=
  .jump s (c.set d ⟨BitVec.ofNat 32 (c.pc + pcStep w), .good⟩) (codeTarget w c.pc target)

theorem exec_jal_lane : exec (.jal (.lane l t) d target) s =
    .next (s.issueLane l t 1 false true (linkBody (.lane l t) d target)) := rfl

theorem exec_jal_core : exec (.jal .core d target) s = .next (s.issueCore 1 true (linkBody .core d target)) := rfl

end Branch

/-- Settles O13: a branch by its condition, the other transfers as jumps of both sets. -/
theorem branches : Obligations.Branches := by
  intro s d a k lv target holds there link leave
  refine ⟨fun hk => ?_, fun l t => laneGoes_of_jump exec_jal_lane rfl rfl, coreGoes_of_jump exec_jal_core rfl rfl,
    bothGo_of_issue (fun _ => rfl) (fun _ _ _ => rfl) fun _ => rfl,
    bothGo_of_issue (fun _ => rfl) (fun _ _ _ => rfl) fun _ => rfl⟩
  have hlegal : condOk k = true := decide_eq_true hk
  have hholds : ∀ c : Cpu, c.holds k = holds c := fun c => holds_eq_getD c hk
  exact ⟨fun l t h => laneGoes_of_jump exec_bcc_lane hlegal (branchBody_of_holds ((hholds _).trans h)),
    fun l t h => laneDoes_of_done exec_bcc_lane hlegal (branchBody_of_not_holds ((hholds _).trans h)),
    fun hruns h => coreGoes_of_jump exec_bcc_core hlegal (branchBody_of_holds ((hholds _).trans h)) hruns,
    fun h => coreDoes_of_done exec_bcc_core hlegal (branchBody_of_not_holds ((hholds _).trans h))⟩

end Sys2Proof.Proofs
end

section
/-! SUPPORT. Loops (R274): what LOOP does by its number of passes, and the levels that end at an instruction. -/

namespace Sys2Proof.Proofs

open Sys2Proof.Machine Sys2Proof.Laws

section Open

variable {s : State} {l : LaneId} {t : ThreadId} {w : Who} {a : Reg} {lv : BitVec 2} {body max : BitVec 10} {c : Cpu}

/-! ## LOOP -/

/-- The passes a LOOP asks for: MAX for w0, else the register's value up to MAX. -/
def loopPasses (a : Reg) (max : BitVec 10) (c : Cpu) : Nat :=
  if a = 0 then max.toNat else Nat.min (c.get a).val.toNat max.toNat

/-- The context with level lv open over the next `body` words. -/
def loopOpened (w : Who) (a : Reg) (lv : BitVec 2) (body max : BitVec 10) (c : Cpu) : Cpu :=
  let n := loopPasses a max c
  { c with loops := c.loops.set lv.toNat ⟨true, c.pc + pcStep w, c.pc + pcStep w * body.toNat, n, n⟩ }

/-- The context with level lv inactive. -/
def loopSkipped (lv : BitVec 2) (c : Cpu) : Cpu :=
  { c with loops := c.loops.modify lv.toNat fun v => { v with active := false } }

/-- What LOOP does: no pass is a transfer behind the body (log entry 95). -/
def loopBody (w : Who) (a : Reg) (lv : BitVec 2) (body max : BitVec 10) (s : State) (c : Cpu) : Eff :=
  if loopPasses a max c = 0 then .jump s (loopSkipped lv c) (c.pc + pcStep w * (body.toNat + 1))
  else .done s (loopOpened w a lv body max c)

theorem loopBody_of_passes (h : loopPasses a max c ≠ 0) :
    loopBody w a lv body max s c = .done s (loopOpened w a lv body max c) := if_neg h

theorem loopBody_of_none (h : loopPasses a max c = 0) :
    loopBody w a lv body max s c = .jump s (loopSkipped lv c) (c.pc + pcStep w * (body.toNat + 1)) := if_pos h

theorem exec_loop_lane : exec (.loop (.lane l t) a lv body max) s = .next (s.issueLane l t 1 false
    (decide (body ≠ 0 ∧ max ≠ 0)) (loopBody (.lane l t) a lv body max)) := rfl

theorem exec_loop_core : exec (.loop .core a lv body max) s =
    .next (s.issueCore 1 (decide (body ≠ 0 ∧ max ≠ 0)) (loopBody .core a lv body max)) := rfl

end Open

section Levels

variable {a n u v : Nat} {ls : List LoopLvl} {c : Cpu}

/-! ## Levels that end at an instruction -/

/-- Level v of a list of levels. -/
def lvlAt (ls : List LoopLvl) (v : Nat) : LoopLvl := ls.getD v LoopLvl.off

/-- Whether the body of an active level ends at `a`. -/
def endsAt (a : Nat) (x : LoopLvl) : Bool := x.active && x.stop == a

/-- A level that makes no further pass at `a`: inactive where its body ends there. -/
def closedAt (a : Nat) (x : LoopLvl) : LoopLvl := if endsAt a x then { x with active := false } else x

theorem lvlAt_set (hv : v < ls.length) (x : LoopLvl) : lvlAt (ls.set v x) u = if u = v then x else lvlAt ls u := by
  by_cases h : u = v
  · subst h
    simp [lvlAt, hv]
  · simp [lvlAt, h, List.getElem?_set_ne (Ne.symm h)]

/-- The highest level loops back where it ends with passes left. -/
theorem loopEnd_succ_of_again (hends : endsAt a (lvlAt ls v) = true) (hrem : 1 < (lvlAt ls v).rem) :
    loopEnd a (v + 1) ls =
      (ls.set v { lvlAt ls v with rem := (lvlAt ls v).rem - 1 }, some (lvlAt ls v).start) :=
  (if_pos hends).trans (if_pos hrem)

/-- The highest level, where it does not loop back, is closed, and the levels below it decide. -/
theorem loopEnd_succ_of_closed (hv : v < ls.length) (hrem : endsAt a (lvlAt ls v) = true → (lvlAt ls v).rem ≤ 1) :
    loopEnd a (v + 1) ls = loopEnd a v (ls.set v (closedAt a (lvlAt ls v))) := by
  by_cases hends : endsAt a (lvlAt ls v) = true
  · rw [closedAt, if_pos hends]
    exact (if_pos hends).trans (if_neg (Nat.not_lt.2 (hrem hends)))
  · have hsame : ls.set v (lvlAt ls v) = ls := by
      rw [lvlAt, List.getD_eq_getElem _ _ hv, List.set_getElem_self]
    rw [closedAt, if_neg hends, hsame]
    exact if_neg hends

/-- Where no level below n loops back, those that end become inactive. -/
theorem loopEnd_of_no_pass (hn : n ≤ ls.length)
    (hrem : ∀ v < n, endsAt a (lvlAt ls v) = true → (lvlAt ls v).rem ≤ 1) :
    (loopEnd a n ls).2 = none ∧
      ∀ u, lvlAt (loopEnd a n ls).1 u = if u < n then closedAt a (lvlAt ls u) else lvlAt ls u := by
  induction n generalizing ls with
  | zero => exact ⟨rfl, fun u => rfl⟩
  | succ n ih =>
    have hbelow : ∀ v < n, lvlAt (ls.set n (closedAt a (lvlAt ls n))) v = lvlAt ls v := fun v hv => by
      rw [lvlAt_set hn, if_neg hv.ne]
    rw [loopEnd_succ_of_closed hn (hrem n n.lt_succ_self)]
    obtain ⟨hnone, hlvl⟩ := ih (ls := ls.set n (closedAt a (lvlAt ls n))) (by rw [List.length_set]; omega)
      fun v hv => by rw [hbelow v hv]; exact hrem v (by omega)
    refine ⟨hnone, fun u => ?_⟩
    rw [hlvl, lvlAt_set hn]
    obtain h | rfl | h := Nat.lt_trichotomy u n
    · rw [if_pos h, if_neg h.ne, if_pos (by omega)]
    · rw [if_neg (lt_irrefl u), if_pos rfl, if_pos u.lt_succ_self]
    · rw [if_neg (by omega), if_neg h.ne', if_neg (by omega)]

/-- The highest level below n that ends with passes left loops back with one pass less; higher ones that end become
inactive. -/
theorem loopEnd_of_pass (hn : n ≤ ls.length) (hv : v < n) (hends : endsAt a (lvlAt ls v) = true)
    (hrem : 1 < (lvlAt ls v).rem)
    (hhigher : ∀ u, v < u → u < n → endsAt a (lvlAt ls u) = true → (lvlAt ls u).rem ≤ 1) :
    (loopEnd a n ls).2 = some (lvlAt ls v).start ∧
      ∀ u, lvlAt (loopEnd a n ls).1 u =
        if u = v then { lvlAt ls v with rem := (lvlAt ls v).rem - 1 }
        else if v < u ∧ u < n then closedAt a (lvlAt ls u) else lvlAt ls u := by
  induction n generalizing ls with
  | zero => exact absurd hv v.not_lt_zero
  | succ n ih =>
    obtain rfl | hlt := Nat.eq_or_lt_of_le (Nat.le_of_lt_succ hv)
    · rw [loopEnd_succ_of_again hends hrem]
      refine ⟨rfl, fun u => ?_⟩
      have hno : ¬(v < u ∧ u < v + 1) := by omega
      rw [lvlAt_set hn, if_neg hno]
    · have hbelow : ∀ u < n, lvlAt (ls.set n (closedAt a (lvlAt ls n))) u = lvlAt ls u := fun u hu => by
        rw [lvlAt_set hn, if_neg hu.ne]
      rw [loopEnd_succ_of_closed hn (hhigher n hlt n.lt_succ_self)]
      have hlevel := hbelow v hlt
      obtain ⟨hsome, hlvl⟩ := ih (ls := ls.set n (closedAt a (lvlAt ls n))) (by rw [List.length_set]; omega) hlt
        (by rw [hlevel]; exact hends) (by rw [hlevel]; exact hrem)
        fun u hvu hu => by rw [hbelow u hu]; exact hhigher u hvu (by omega)
      rw [hlevel] at hsome hlvl
      refine ⟨hsome, fun u => ?_⟩
      rw [hlvl, lvlAt_set hn]
      by_cases h : u = n
      · subst h
        simp [hlt.ne', hlt]
      · have hiff : u < n + 1 ↔ u < n := by omega
        simp only [if_neg h, hiff]

/-! ## The advance of the PC -/

theorem advance_regs (c : Cpu) (step : Nat) : (c.advance step).regs = c.regs := by
  unfold Cpu.advance
  split <;> rfl

theorem advance_loops (c : Cpu) (step : Nat) : (c.advance step).loops = (loopEnd c.pc 4 c.loops).1 := by
  unfold Cpu.advance
  split <;> simp [*]

theorem advance_pc (c : Cpu) (step : Nat) :
    (c.advance step).pc = ((loopEnd c.pc 4 c.loops).2).getD (c.pc + step) := by
  unfold Cpu.advance
  split <;> simp [*]

end Levels

/-- Settles O14: LOOP by its number of passes, then the levels that end at the PC by whether one has passes left. -/
theorem loops : Obligations.Loops := by
  refine ⟨fun s a lv body max hbody hmax => ?_, fun c step hlen => ?_⟩
  · intro passes opens skips past
    have hlegal : decide (body ≠ 0 ∧ max ≠ 0) = true := decide_eq_true ⟨hbody, hmax⟩
    exact ⟨fun l t h => laneDoes_of_done exec_loop_lane hlegal (loopBody_of_passes h),
      fun l t h => laneGoes_of_jump exec_loop_lane hlegal (loopBody_of_none h),
      fun h => coreDoes_of_done exec_loop_core hlegal (loopBody_of_passes h),
      fun h => coreGoes_of_jump exec_loop_core hlegal (loopBody_of_none h)⟩
  · intro lv ends closed
    have hfour : 4 ≤ c.loops.length := hlen.ge
    have hpc := advance_pc c step
    have hlevels : ∀ u, (c.advance step).loops.getD u LoopLvl.off = lvlAt (loopEnd c.pc 4 c.loops).1 u := fun u =>
      congrArg (lvlAt · u) (advance_loops c step)
    refine ⟨fun v hv hends hrem hhigher => ?_, fun hrem => ?_, advance_regs c step⟩
    · obtain ⟨hsome, hlvl⟩ := loopEnd_of_pass hfour hv hends hrem hhigher
      simp only [hlevels]
      rw [hsome] at hpc
      refine ⟨hpc, (hlvl v).trans (if_pos rfl), fun u _ huv => ?_, fun u hu hvu => ?_⟩
      · have hno : ¬(v < u ∧ u < 4) := by omega
        rw [hlvl, if_neg huv.ne, if_neg hno]
        rfl
      · rw [hlvl, if_neg hvu.ne', if_pos ⟨hvu, hu⟩]
        rfl
    · obtain ⟨hnone, hlvl⟩ := loopEnd_of_no_pass hfour hrem
      simp only [hlevels]
      rw [hnone] at hpc
      exact ⟨hpc, fun u hu => (hlvl u).trans (if_pos hu)⟩

end Sys2Proof.Proofs
end

section
/-! SUPPORT. Register accesses of the lanes (R279, R280, R320): what REGR and REGW post, and what a thread that takes a
fault has posted. -/

namespace Sys2Proof.Proofs

open Sys2Proof.Machine Sys2Proof.Laws

section Access

variable {s : State} {l m : LaneId} {t : ThreadId} {a b : Reg} {req : BitVec 18} {c : Cpu} {write : Bool} {addr : Word}
  {ct : Tag} {body : TxnBody} {th : Thread} {st : ThreadState} {code : Nat}

/-! ## The access (R279, R320) -/

theorem regAccess_of_bad (h : ct = .bad) :
    regAccess l t write addr ct body s c = .done s (c.flags true false false ct) := if_pos h

theorem regAccess_of_not_may (h : ct ≠ .bad) (hmay : s.mayAccess t write addr.toNat = false) :
    regAccess l t write addr ct body s c = .fault 7 0 :=
  (if_neg h).trans (if_pos (Bool.eq_false_iff.1 hmay))

theorem regAccess_of_may (h : ct ≠ .bad) (hmay : s.mayAccess t write addr.toNat = true) :
    regAccess l t write addr ct body s c =
      if (s.lane l).room < 1 then .done (s.markFull l) (c.flags true false false ct)
      else .done (s.modLane l fun ln => ln.post t ln.fCur body) (c.flags false false false ct) :=
  (if_neg h).trans (if_neg (not_not.2 hmay))

theorem room_lt_iff (s : State) (l : LaneId) : (s.lane l).room < 1 ↔ ¬roomFor s l 1 := by
  unfold LaneSt.room roomFor
  omega

/-- What REGR does. -/
def readBody (a : Reg) (req : BitVec 18) (l : LaneId) (t : ThreadId) (s : State) (c : Cpu) : Eff :=
  regAccess l t false (c.get a).val (c.get a).tag (.regRead (c.get a).val req.toNat) s c

theorem exec_regr : exec (.regr (.lane l t) a req) s =
    .next (s.issueLane l t 1 false (decide (req.toNat < 65536)) (readBody a req l t)) := rfl

/-- What REGW does. -/
def writeBody (a b : Reg) (l : LaneId) (t : ThreadId) (s : State) (c : Cpu) : Eff :=
  regAccess l t true (c.get a).val ((c.get a).tag.worst (c.get b).tag) (.regWrite (c.get a).val (c.get b).val) s c

theorem exec_regw : exec (.regw (.lane l t) a b) s =
    .next (s.issueLane l t 1 false true (writeBody a b l t)) := rfl

/-! ## What a thread that stops has posted (R259) -/

/-- A thread without an open group posts nothing as it stops. -/
theorem stopThread_outbox (hgroup : th.group = none) :
    ((s.stopThread l t th st).lane m).outbox = (s.lane m).outbox := by
  have hdrop : ∀ ln : LaneSt, ln.dropGroup t th = ln := fun ln => by rw [LaneSt.dropGroup, hgroup]
  exact (lane_completeFrame_of_eq (p := LaneSt.outbox) (fun _ => rfl) m).trans
    (lane_modLane_of_eq (p := LaneSt.outbox) (fun ln => by rw [hdrop]; rfl) m)

theorem threadFault_outbox (hgroup : (s.thread l t).group = none) :
    ((s.threadFault l t code).lane m).outbox = (s.lane m).outbox := by
  have htaken : (takesFault (s.thread l t) code).group = none := hgroup
  rw [threadFault_eq, stopThread_outbox htaken, lane_reportThread]
  exact lane_modLane_of_eq (p := LaneSt.outbox) (fun _ => by rfl) m

end Access

section Instruction

/-! ## An instruction that makes one access -/

variable {s : State} {l : LaneId} {t : ThreadId} {i : Instr} {legal write : Bool} {addr : Word} {ct : Tag}
  {post : TxnBody} {body : State → Cpu → Eff}
  (hexec : exec i s = .next (s.issueLane l t 1 false legal body)) (hlegal : legal = true)
  (hbody : body s (s.thread l t).cpu = regAccess l t write addr ct post s (s.thread l t).cpu)

include hexec hlegal hbody

theorem laneDoes_of_bad_access (h : ct = .bad) :
    laneDoes s l t 1 i s ((s.thread l t).cpu.flags true false false .bad) :=
  laneDoes_of_done hexec hlegal (hbody.trans (h ▸ regAccess_of_bad h))

/-- A permitted access is posted where the outbox has room. -/
theorem laneDoes_of_permitted_access (h : ct ≠ .bad) (hmay : s.mayAccess t write addr.toNat = true) :
    (roomFor s l 1 → laneDoes s l t 1 i (s.modLane l fun ln => ln.post t ln.fCur post)
      ((s.thread l t).cpu.flags false false false ct)) ∧
    (¬roomFor s l 1 → laneDoes s l t 1 i (s.markFull l) ((s.thread l t).cpu.flags true false false ct)) := by
  have heff := hbody.trans (regAccess_of_may h hmay)
  exact ⟨fun hroom => laneDoes_of_done hexec hlegal (heff.trans (if_neg fun hlt => (room_lt_iff s l).1 hlt hroom)),
    fun hfull => laneDoes_of_done hexec hlegal (heff.trans (if_pos ((room_lt_iff s l).2 hfull)))⟩

/-- An access the image does not permit takes TXN and posts nothing (R255, R333). -/
theorem fault_of_refused_access (hs : s.lanes.length = 3) (ht : (s.lane l).threads.length = 128) (h : ct ≠ .bad)
    (hmay : s.mayAccess t write addr.toNat = false) (hruns : laneRuns s l t 1) :
    ∃ u, exec i s = .next u ∧ (u.thread l t).st = .faulted ∧ (u.thread l t).fcode = 7 ∧
      ((s.thread l t).group = none → (u.lane l).outbox = (s.lane l).outbox) := by
  obtain ⟨hst, hcode, _⟩ := thread_threadFault (t := t) (code := 7) hs ht
  exact ⟨_, exec_of_fault hexec hlegal hruns (hbody.trans (regAccess_of_not_may h hmay)), hst, hcode,
    threadFault_outbox⟩

end Instruction

/-- Settles O21: both instructions make one access each, by its tag, the image's permission and the outbox's room. -/
theorem registerAccess : Obligations.RegisterAccess := by
  intro s l t a b req hs ht hreq th c x y tag sets sends refuses
  have hlegal : decide (req.toNat < 65536) = true := decide_eq_true hreq
  exact ⟨laneDoes_of_permitted_access exec_regr hlegal rfl, laneDoes_of_bad_access exec_regr hlegal rfl,
    fault_of_refused_access exec_regr hlegal rfl hs ht, laneDoes_of_permitted_access exec_regw rfl rfl,
    laneDoes_of_bad_access exec_regw rfl rfl, fault_of_refused_access exec_regw rfl rfl hs ht⟩

end Sys2Proof.Proofs
end

section
/-! SUPPORT. The entry into an exception or interrupt of the core (R290), and the fields of MSTAT it changes (R287). -/

namespace Sys2Proof.Proofs

open Sys2Proof.Machine Sys2Proof.Laws

/-! ## One-bit fields of a word -/

section OneBit

variable {i j : Nat} {w : Word} {n : Nat}

theorem oneBit_get_set (hi : i < 32) : (⟨i, i⟩ : Fld).get ((⟨i, i⟩ : Fld).set w n) = n % 2 := by
  have hwidth : i + 1 - i = 1 := Nat.add_sub_cancel_left i 1
  rw [fld_get_set ⟨le_rfl, hi⟩, hwidth, pow_one]

theorem oneBit_get_set_ne (hi : i < 32) (hne : i ≠ j) :
    (⟨j, j⟩ : Fld).get ((⟨i, i⟩ : Fld).set w n) = (⟨j, j⟩ : Fld).get w :=
  fld_get_set_apart ⟨le_rfl, hi⟩ le_rfl (lt_or_gt_of_ne hne)

theorem oneBit_get_mod : (⟨i, i⟩ : Fld).get w % 2 = (⟨i, i⟩ : Fld).get w := by
  rw [flag_get]
  cases w.getLsbD i <;> rfl

end OneBit

/-! ## MSTAT (R287, R290) -/

/-- MSTAT after an entry: S, IE and X saved, supervisor state, interrupts off, loop bank 1. -/
def mstatEntered (w : Word) : Word :=
  let m := mstatPs.set w (mstatS.get w)
  let m := mstatPie.set m (mstatIe.get w)
  let m := mstatPx.set m (mstatX.get w)
  mstatX.set (mstatIe.set (mstatS.set m 1) 0) 1

theorem mstatEntered_fields (w : Word) :
    mstatS.get (mstatEntered w) = 1 ∧ mstatIe.get (mstatEntered w) = 0 ∧ mstatX.get (mstatEntered w) = 1 ∧
    mstatPs.get (mstatEntered w) = mstatS.get w ∧ mstatPie.get (mstatEntered w) = mstatIe.get w ∧
    mstatPx.get (mstatEntered w) = mstatX.get w := by
  simp [mstatEntered, mstatS, mstatIe, mstatX, mstatPs, mstatPie, mstatPx, oneBit_get_set, oneBit_get_set_ne,
    oneBit_get_mod]

/-- MSTAT after ERET: S, IE and X as the entry saved them. -/
def mstatReturned (w : Word) : Word :=
  mstatX.set (mstatIe.set (mstatS.set w (mstatPs.get w)) (mstatPie.get w)) (mstatPx.get w)

theorem mstatReturned_fields (w : Word) :
    mstatS.get (mstatReturned w) = mstatPs.get w ∧ mstatIe.get (mstatReturned w) = mstatPie.get w ∧
    mstatX.get (mstatReturned w) = mstatPx.get w := by
  simp [mstatReturned, mstatS, mstatIe, mstatX, mstatPs, mstatPie, mstatPx, oneBit_get_set, oneBit_get_set_ne,
    oneBit_get_mod]

/-! ## The core after an entry (R290, R291) -/

/-- A write of MSTAT, with the bank of loop levels that X then selects. -/
theorem setMstat_eq (k : Core) (w : Word) : k.setMstat w =
    { k with
      mstat := w
      bank := if mstatX.get w = mstatX.get k.mstat then k.bank else k.cpu.loops
      cpu := { k.cpu with loops := if mstatX.get w = mstatX.get k.mstat then k.cpu.loops else k.bank } } := by
  unfold Core.setMstat
  split <;> rfl

theorem enter_eq (k : Core) (epc : Nat) (cause : Word) (eaddr : Option Word) (vec : Nat) :
    k.enter epc cause eaddr vec = { k with
      epc := BitVec.ofNat 32 epc, ecause := cause, eflags := k.cpu.eflags, eaddr := eaddr.getD k.eaddr
      mstat := mstatEntered k.mstat
      bank := if mstatX.get (mstatEntered k.mstat) = mstatX.get k.mstat then k.bank else k.cpu.loops
      waiting := false
      cpu := { k.cpu with loops := List.replicate 4 LoopLvl.off, pc := vec % 2 ^ 32 } } := by
  unfold Core.enter
  cases eaddr <;> simp only [setMstat_eq] <;> rfl

/-! ## Taking an exception (R285, R288, R290) -/

section Exception

variable {s : State} {n code arg epc p : Nat} {i : Instr} {legal : Bool} {body : State → Cpu → Eff}
  {c : Cpu} {e : Eff}

/-- The state after an instruction of n cycles that takes an exception instead of its effect. -/
def excepted (s : State) (n code arg : Nat) (eaddr : Option Word) (epc : Nat) : State :=
  (coreIssued s n).modCore (·.exception code arg eaddr epc)

/-- What an exception makes of the core: the cause and the flags in their registers, MSTAT entered, the PC at the
vector, and nothing else but the cycles counted (R290). -/
theorem excepted_core (s : State) (n code arg : Nat) (eaddr : Option Word) (epc : Nat) :
    (excepted s n code arg eaddr epc).core = { s.core with
      epc := BitVec.ofNat 32 epc, ecause := BitVec.ofNat 32 (arg * 256 + code), eflags := s.core.cpu.eflags
      eaddr := eaddr.getD s.core.eaddr, mstat := mstatEntered s.core.mstat
      bank := if mstatX.get (mstatEntered s.core.mstat) = mstatX.get s.core.mstat then s.core.bank else s.core.cpu.loops
      waiting := false, cycles := s.core.cycles + BitVec.ofNat 64 n
      cpu := { s.core.cpu with
        loops := List.replicate 4 LoopLvl.off, pc := (s.core.vbase.toNat + 4 * code) % 2 ^ 32 } } :=
  enter_eq (coreIssued s n).core epc _ eaddr _

section Runs

variable (hexec : exec i s = .next (s.issueCore n legal body)) (hruns : coreRuns s)

include hexec hruns

theorem exec_of_illegal (hlegal : legal = false) :
    exec i s = .next (excepted s n 1 0 none s.core.cpu.pc) := by
  obtain ⟨hheld, hpc⟩ := hruns
  have hpc' : codeOk (coreIssued s n).core.cpu.pc = true := hpc
  rw [hexec, State.issueCore, if_neg (Bool.eq_false_iff.1 hheld), hlegal]
  dsimp only
  rw [← coreIssued, hpc']
  rfl

variable (hlegal : legal = true)

include hlegal

theorem exec_of_effect (hbody : body (coreIssued s n) s.core.cpu = e) :
    exec i s = .next ((coreIssued s n).settleCore e) := by
  rw [hexec, issueCore_of_runs hruns hlegal, hbody]

theorem exec_of_coreFault {addr : Word} (hcode : code ≠ 1)
    (hbody : body (coreIssued s n) s.core.cpu = .fault code addr) :
    exec i s = .next (excepted s n code 0 (some addr) s.core.cpu.pc) := by
  rw [exec_of_effect hexec hruns hlegal hbody, State.settleCore, if_neg hcode]
  rfl

theorem exec_of_priv (hbody : body (coreIssued s n) s.core.cpu = .priv) :
    exec i s = .next (excepted s n 2 0 none s.core.cpu.pc) :=
  exec_of_effect hexec hruns hlegal hbody

theorem exec_of_sys (hbody : body (coreIssued s n) s.core.cpu = .sys arg) :
    exec i s = .next (excepted s n 5 arg none (s.core.cpu.pc + 4)) :=
  exec_of_effect hexec hruns hlegal hbody

/-- A jump to no code address takes CODE_RANGE (R284). -/
theorem exec_of_jump_outside (hp : codeOk p = false)
    (hbody : body (coreIssued s n) s.core.cpu = .jump (coreIssued s n) c p) :
    exec i s = .next (excepted s n 3 0 (some (BitVec.ofNat 32 p)) s.core.cpu.pc) := by
  rw [exec_of_effect hexec hruns hlegal hbody, State.settleCore, if_neg (Bool.eq_false_iff.1 hp)]
  rfl

end Runs

end Exception

end Sys2Proof.Proofs
end

section
/-! SUPPORT. Exceptions, interrupts and the return from them (R285 to R290), from the entry into them. -/

namespace Sys2Proof.Proofs

open Sys2Proof.Machine Sys2Proof.Laws

/-! ## Instructions in task state (R285) -/

section Task

variable {s : State} {n : Nat} {c : Cpu} {d a : Reg} {imm : BitVec 18} {go e : Eff}

theorem supervisor_of_task (h : mstatS.get s.core.mstat ≠ 1) : (coreIssued s n).supervisor = false :=
  decide_eq_false h

theorem supervisor_of_supervisor (h : mstatS.get s.core.mstat = 1) : (coreIssued s n).supervisor = true :=
  decide_eq_true h

/-- What only the supervisor may do takes PRIV in task state. -/
theorem priv_of_task (h : mstatS.get s.core.mstat ≠ 1) :
    (if !(coreIssued s n).supervisor then .priv else e) = Eff.priv := by
  rw [supervisor_of_task h]
  rfl

theorem privileged_of_supervisor (h : mstatS.get s.core.mstat = 1) :
    (if !(coreIssued s n).supervisor then .priv else e) = e := by
  rw [supervisor_of_supervisor h]
  rfl

/-- What CSRR does. -/
def csrBody (d : Reg) (csr : BitVec 18) (s : State) (c : Cpu) : Eff :=
  if !s.supervisor && !(csr.toNat == 0x0A || csr.toNat == 0x0B) then .fault 2 (csr.zeroExtend 32)
  else .done s (c.set d ⟨s.csr csr.toNat, .good⟩)

theorem exec_csrr : exec (.csrr .core d imm) s = .next (s.issueCore 1 (csrOk imm.toNat) (csrBody d imm)) := rfl

/-- Task state reads the cycle counter only. -/
theorem csrBody_of_task (h : mstatS.get s.core.mstat ≠ 1) (himm : imm.toNat < 10) :
    csrBody d imm (coreIssued s n) c = .fault 2 (imm.zeroExtend 32) := by
  have hlow : (imm.toNat == 0x0A) = false := beq_false_of_ne (by omega)
  have hhigh : (imm.toNat == 0x0B) = false := beq_false_of_ne (by omega)
  rw [csrBody, supervisor_of_task h, hlow, hhigh]
  rfl

/-- LDM is a memory instruction with the address it names. -/
theorem exec_ldm : ∃ go : State → Cpu → Eff, exec (.ldm .core d a imm) s =
    .next (s.issueCore 1 true fun s c => s.coreMemory (c.effective a imm) (go s c)) := ⟨fun _ _ => _, rfl⟩

/-- Task state loads from the SRAM only. -/
theorem coreMemory_of_task {x : Int} (h : mstatS.get s.core.mstat ≠ 1) (hx : x < 0x80000000 ∨ 0x80040000 ≤ x) :
    (coreIssued s n).coreMemory x go = .fault 2 (BitVec.ofInt 32 x) := by
  have hout : inSram x = false := by
    rw [inSram, Bool.and_eq_false_iff, decide_eq_false_iff_not, decide_eq_false_iff_not]
    omega
  rw [State.coreMemory, supervisor_of_task h, hout]
  rfl

/-! ## SYS, and jumps of the core -/

theorem exec_sys : exec (.sys .core imm) s =
    .next (s.issueCore 1 (decide (imm.toNat < 65536)) fun _ _ => .sys imm.toNat) := rfl

theorem exec_jr_core : exec (.jr .core a) s =
    .next (s.issueCore 1 true fun s c => .jump s c (c.get a).val.toNat) := rfl

end Task

/-! ## The return from an exception (R290) -/

section Return

variable {s : State}

/-- The core with the flags and MSTAT an entry saved. -/
def coreReturned (k : Core) (c : Cpu) : Core :=
  { k with cpu := c.fromEflags k.eflags }.setMstat (mstatReturned k.mstat)

theorem coreReturned_eq (k : Core) (c : Cpu) : coreReturned k c =
    let same := mstatX.get (mstatReturned k.mstat) = mstatX.get k.mstat
    { k with
      mstat := mstatReturned k.mstat, bank := if same then k.bank else c.loops
      cpu := { c.fromEflags k.eflags with loops := if same then c.loops else k.bank } } :=
  setMstat_eq ..

/-- What ERET does. -/
def returnBody (s : State) (c : Cpu) : Eff :=
  if !s.supervisor then .priv
  else .jump { s with core := coreReturned s.core c } (coreReturned s.core c).cpu (coreReturned s.core c).epc.toNat

theorem exec_eret : exec (.eret .core) s = .next (s.issueCore 1 true returnBody) := rfl

/-- What WFI does. -/
def waitBody (s : State) (c : Cpu) : Eff :=
  if !s.supervisor then .priv else .done (s.modCore fun k => { k with waiting := s.dueInterrupt.isNone }) c

theorem exec_wfi : exec (.wfi .core) s = .next (s.issueCore 1 true waitBody) := rfl

/-- The core that goes on at EPC. -/
def coreResumed (k : Core) : Core :=
  { coreReturned k k.cpu with cpu := { (coreReturned k k.cpu).cpu with pc := k.epc.toNat } }

theorem coreResumed_eq (k : Core) : coreResumed k =
    let same := mstatX.get (mstatReturned k.mstat) = mstatX.get k.mstat
    { k with
      mstat := mstatReturned k.mstat, bank := if same then k.bank else k.cpu.loops
      cpu := { k.cpu.fromEflags k.eflags with
        loops := if same then k.cpu.loops else k.bank, pc := k.epc.toNat } } := by
  rw [coreResumed, coreReturned_eq]

theorem exec_eret_of_supervisor (hruns : coreRuns s) (hsup : mstatS.get s.core.mstat = 1)
    (hepc : codeOk s.core.epc.toNat = true) :
    exec (.eret .core) s = .next ((coreIssued s 1).modCore coreResumed) := by
  have hsame : (coreReturned (coreIssued s 1).core s.core.cpu).epc = s.core.epc := by
    rw [coreReturned_eq]
    rfl
  rw [exec_of_effect exec_eret hruns rfl (privileged_of_supervisor hsup), hsame, settleCore_jump hepc]
  rfl

/-- WFI waits until an interrupt is due. -/
theorem exec_wfi_of_supervisor (hruns : coreRuns s) (hsup : mstatS.get s.core.mstat = 1)
    (hpc : codeOk (s.core.cpu.advance 4).pc = true) :
    exec (.wfi .core) s = .next { s with core := { s.core with
      cycles := s.core.cycles + 1, waiting := s.dueInterrupt.isNone, cpu := s.core.cpu.advance 4 } } := by
  rw [exec_of_effect exec_wfi hruns rfl (privileged_of_supervisor hsup), settleCore_done hpc]
  rfl

end Return

/-! ## Interrupts (R288, R289) -/

section Interrupt

variable {s : State} {n : Nat}

/-- Interrupt m is pending, and enabled in IMASK. -/
def interruptDue (s : State) (m : Nat) : Prop := s.core.imask.getLsbD m = true ∧ s.pendingAt m = true

theorem interruptDue_iff (s : State) (m : Nat) :
    (decide (s.core.imask.toNat / 2 ^ m % 2 = 1) && s.pendingAt m) = true ↔ interruptDue s m := by
  rw [← Nat.testBit_eq_decide_div_mod_eq, Bool.and_eq_true]
  rfl

theorem dueInterrupt_of_lowest (hn : n < 25) (hdue : interruptDue s n) (hlower : ∀ m < n, ¬interruptDue s m) :
    s.dueInterrupt = some n := by
  simp only [State.dueInterrupt, List.find?_range_eq_some, interruptDue_iff, List.mem_range, Bool.not_eq_true']
  refine ⟨hdue, hn, fun m hm => ?_⟩
  rw [← Bool.not_eq_true, interruptDue_iff]
  exact hlower m hm

theorem dueInterrupt_of_none (hnone : ∀ m < 25, ¬interruptDue s m) : s.dueInterrupt = none := by
  simp only [State.dueInterrupt, List.find?_eq_none, List.mem_range, interruptDue_iff]
  exact hnone

theorem exec_interruptEntry_of_due (hdue : s.dueInterrupt = some n) (hie : mstatIe.get s.core.mstat = 1) :
    exec .interruptEntry s = .next (s.modCore fun k => (k.interrupt n).taken n) := by
  have hexec : exec .interruptEntry s = execInterruptEntry s := rfl
  rw [hexec, execInterruptEntry, hdue]
  exact next_of_pos hie

theorem exec_interruptEntry_of_not_due (h : s.dueInterrupt = none ∨ mstatIe.get s.core.mstat ≠ 1) :
    exec .interruptEntry s = .next s := by
  have hexec : exec .interruptEntry s = execInterruptEntry s := rfl
  rw [hexec, execInterruptEntry]
  obtain hnone | hoff := h
  · rw [hnone]
  · cases s.dueInterrupt with
    | none => rfl
    | some n => exact next_of_neg hoff

/-- Taking an interrupt ends the request of one without a flag. -/
theorem taken_eq (k : Core) (n : Nat) : k.taken n = { k with
    ipend := if n = 6 ∨ n = 7 then k.ipend &&& ~~~(BitVec.ofNat 32 (2 ^ n)) else k.ipend } := by
  unfold Core.taken
  split <;> rfl

/-- What an interrupt makes of the core (R290). -/
theorem interrupted_eq (k : Core) (n : Nat) : (k.interrupt n).taken n = { k with
    epc := BitVec.ofNat 32 k.cpu.pc, ecause := BitVec.ofNat 32 (0x80000000 + n), eflags := k.cpu.eflags
    mstat := mstatEntered k.mstat
    bank := if mstatX.get (mstatEntered k.mstat) = mstatX.get k.mstat then k.bank else k.cpu.loops
    waiting := false, ipend := if n = 6 ∨ n = 7 then k.ipend &&& ~~~(BitVec.ofNat 32 (2 ^ n)) else k.ipend
    cpu := { k.cpu with
      loops := List.replicate 4 LoopLvl.off, pc := (k.vbase.toNat + 0x40 + 4 * n) % 2 ^ 32 } } := by
  rw [taken_eq, Core.interrupt, enter_eq]
  rfl

end Interrupt

theorem eflags_eq (c : Cpu) : c.eflags =
    BitVec.ofNat 32 ((if c.z then 1 else 0) + (if c.n then 2 else 0) + (if c.l then 4 else 0) + 8 * c.ct.code) :=
  congrArg (BitVec.ofNat 32) (by omega)

/-- Settles O28: an exception by its entry, ERET and WFI in supervisor state, an interrupt by whether one is due. -/
theorem coreExceptions : Obligations.CoreExceptions := by
  refine ⟨fun s d a imm r hruns => ?_, fun s hruns hsup => ⟨fun hepc => ?_, exec_wfi_of_supervisor hruns hsup⟩,
    fun s n => ⟨fun hn hdue hlower hie => ?_, fun hno => ?_, rfl⟩⟩
  · intro k c ea bits takes task
    have htakes : ∀ {i : Instr} {n code arg epc : Nat} {ea : Option Word} {eaddr : Word},
        exec i s = .next (excepted s n code arg ea epc) → ea.getD k.eaddr = eaddr → takes i code arg epc eaddr := by
      intro i n code arg epc ea eaddr hexec headdr
      obtain ⟨hs, hie, hx, hps, hpie, hpx⟩ := mstatEntered_fields k.mstat
      have hself : excepted s n code arg ea epc = { s with core := (excepted s n code arg ea epc).core } := rfl
      refine ⟨_, hexec, ?_⟩
      rw [excepted_core] at hself ⊢
      exact ⟨rfl, rfl, headdr, eflags_eq c, hs, hie, hx, hps, hpie, hpx, rfl, rfl, rfl, rfl, rfl, hself⟩
    have hillegal : ∀ {i : Instr} {body : State → Cpu → Eff},
        exec i s = .next (s.issueCore 1 false body) → takes i 1 0 c.pc k.eaddr := fun hexec =>
      htakes (exec_of_illegal hexec hruns rfl) rfl
    have hvalue : imm.zeroExtend 32 = BitVec.ofNat 32 imm.toNat := (BitVec.ofNat_toNat 32 imm).symm
    refine ⟨hillegal rfl, hillegal rfl, hillegal rfl, hillegal rfl, hillegal rfl, hillegal rfl, hillegal rfl,
      fun himm => ?_, fun htask => ⟨?_, ?_⟩, fun htask himm => ?_, fun htask hout => ?_, fun hout => ?_, fun hp => ?_⟩
    · exact htakes (exec_of_sys exec_sys hruns (decide_eq_true himm) rfl) rfl
    · exact htakes (exec_of_priv exec_eret hruns rfl (priv_of_task htask)) rfl
    · exact htakes (exec_of_priv exec_wfi hruns rfl (priv_of_task htask)) rfl
    · have hlegal : csrOk imm.toNat = true := decide_eq_true (by omega)
      exact htakes (exec_of_coreFault exec_csrr hruns hlegal (by decide) (csrBody_of_task htask himm)) hvalue
    · obtain ⟨go, hexec⟩ := exec_ldm (s := s) (d := d) (a := a) (imm := imm)
      exact htakes (exec_of_coreFault hexec hruns rfl (by decide) (coreMemory_of_task htask hout)) rfl
    · have hreach : (coreIssued s 1).keepReach .core (c.ea a imm) 1 = false := by
        have hea : c.ea a imm = ea := rfl
        rw [hea]
        exact decide_eq_false (by omega)
      exact htakes (exec_of_coreFault (exec_ldk.trans keepInstr_eq) hruns rfl (by decide)
        (keepBody_of_not_reach hreach)) rfl
    · have hpc : BitVec.ofNat 32 (c.get a).val.toNat = (c.get a).val := by
        rw [BitVec.ofNat_toNat, BitVec.setWidth_eq]
      exact htakes (exec_of_jump_outside exec_jr_core hruns rfl hp rfl) hpc
  · obtain ⟨hs, hie, hx⟩ := mstatReturned_fields s.core.mstat
    refine ⟨_, exec_eret_of_supervisor hruns hsup hepc, ?_⟩
    rw [State.modCore, coreResumed_eq]
    exact ⟨rfl, rfl, rfl, rfl, rfl, rfl, hs, hie, hx, by rw [← hx]; rfl, rfl⟩
  · have hlowest := dueInterrupt_of_lowest hn hdue hlower
    obtain ⟨hs, hoff, -, -, hpie, -⟩ := mstatEntered_fields s.core.mstat
    refine ⟨_, exec_interruptEntry_of_due hlowest hie, ?_⟩
    rw [State.modCore, interrupted_eq]
    exact ⟨rfl, rfl, rfl, hs, hoff, hpie.trans hie, rfl, rfl, rfl, rfl⟩
  · exact exec_interruptEntry_of_not_due (hno.imp_left dueInterrupt_of_none)

end Sys2Proof.Proofs
end

section
/-! SUPPORT. The effects of an alarm instruction (R292 to R294, R319, R320): its keep writes and its transactions where
the image permits them and the outbox has room, and the fields of words it reads and writes. -/

namespace Sys2Proof.Proofs

open Sys2Proof.Machine Sys2Proof.Laws

section Effects

variable {s : State} {l : LaneId} {t : ThreadId} {ws : List (Nat × TWord)} {ps : List (Stamp × TxnBody)} {c full : Cpu}

/-! ## Effects (R294, R319, R320) -/

theorem applyFx_of_room (hmay : (s.decl t).journal = true ∨ ps = []) (hroom : ps.length ≤ (s.lane l).room) :
    applyFx l t s ⟨ws, ps, c, full⟩ = .done (withEffects s l t ws ps) c := by
  have hpermitted : ¬(ps.any (fun p => isJournal p.2) && !(s.decl t).journal) = true := by
    obtain hmay | rfl := hmay
    · rw [hmay, Bool.not_true, Bool.and_false]
      exact Bool.false_ne_true
    · exact Bool.false_ne_true
  have hfits : ¬(s.lane l).room < (ps.filter fun p => (s.lane l).takesRoom t p.2).length :=
    Nat.not_lt.2 ((List.length_filter_le _ _).trans hroom)
  exact (if_neg hpermitted).trans (if_neg hfits)

/-- An instruction without transactions needs neither permission nor room. -/
theorem applyFx_nil : applyFx l t s ⟨ws, [], c, full⟩ = .done (withEffects s l t ws []) c :=
  applyFx_of_room (.inr rfl) (Nat.zero_le _)

/-- An instruction that posts at most one record. -/
theorem applyFx_of_le_one (hjnl : (s.decl t).journal = true) (hroom : roomFor s l 1) (hlen : ps.length ≤ 1) :
    applyFx l t s ⟨ws, ps, c, full⟩ = .done (withEffects s l t ws ps) c :=
  applyFx_of_room (.inl hjnl) (hlen.trans (Nat.not_lt.1 fun hlt => (room_lt_iff s l).1 hlt hroom))

theorem length_ite_singleton_le {α : Type} (p : Prop) [Decidable p] (x : α) :
    (if p then [x] else []).length ≤ 1 := by
  split
  · exact le_rfl
  · exact Nat.zero_le 1

end Effects

/-! ## Fields and flags of words -/

theorem bits_zero (w : Word) (hi : Nat) : bits w hi 0 = w.toNat % 2 ^ (hi + 1) := by
  rw [bits, pow_zero, Nat.div_one, Nat.sub_zero]

theorem bits_top (w : Word) : bits w 31 16 = w.toNat / 65536 :=
  Nat.mod_eq_of_lt (Nat.div_lt_of_lt_mul w.isLt)

theorem ofNat_b2n (x : Bool) : BitVec.ofNat 32 (b2n x) = if x then 1 else 0 := by cases x <;> rfl

theorem bitOf_b2n (x : Bool) : bitOf (BitVec.ofNat 32 (b2n x)) 0 = x := by cases x <;> rfl

theorem ofNat_two_bits (x y : Bool) :
    BitVec.ofNat 32 (2 * b2n x + b2n y) = (if x then 2 else 0) ||| (if y then 1 else 0) := by
  cases x <;> cases y <;> rfl

theorem ofNat_three_bits (x y z : Bool) : BitVec.ofNat 32 (4 * b2n x + 2 * b2n y + b2n z) =
    (if x then 4 else 0) ||| (if y then 2 else 0) ||| (if z then 1 else 0) := by
  cases x <;> cases y <;> cases z <;> rfl

end Sys2Proof.Proofs
end

section
/-! SUPPORT. Limits, timers and delays (R295 to R297). -/

namespace Sys2Proof.Proofs

open Sys2Proof.Machine Sys2Proof.Laws

section Delays

variable {s : State} {l : LaneId} {t : ThreadId} {c : Cpu} {d a b : Reg} {high : Bool}

/-! ## Limits (R295) -/

theorem satS_toInt (n : Int) : (satS n .good).val.toInt = max (-2147483648) (min n 2147483647) := by
  rw [satS_eq_ite]
  split
  · rw [max_eq_left (by omega)]
    rfl
  · split
    · rw [min_eq_right (by omega)]
      rfl
    · rw [min_eq_left (by omega), max_eq_right (by omega)]
      exact BitVec.toInt_ofInt_eq_self (by decide) (by omega) (by omega)

/-- A negative hysteresis counts as 0. -/
theorem hysteresis_eq (n : Int) : (if n < 0 then 0 else n) = max 0 n := by
  rw [max_comm, max_def_lt]

/-- LIMH and LIML write a condition r, and tell in Z whether it is the old one. -/
theorem setCondition_eq (r old : Bool) (x ct : Tag) :
    (c.set d ⟨BitVec.ofNat 32 (b2n r), x⟩).flags (decide (bitOf (BitVec.ofNat 32 (b2n r)) 0 = old)) false false ct =
      { c.set d ⟨if r then 1 else 0, x⟩ with z := r == old, n := false, l := false, ct := ct } := by
  rw [bitOf_b2n, ofNat_b2n, Bool.beq_eq_decide_eq]
  rfl

theorem limit_of_bad (h : (c.get a).tag = .bad ∨ c.pairTag b = .bad) : limit high d a b c =
    let old := bitOf (c.get d).val 0
    { c.set d ⟨if old then 1 else 0, .bad⟩ with z := old == old, n := false, l := false, ct := (c.get d).tag } := by
  simp only [limit, if_pos h]
  exact setCondition_eq _ _ _ _

/-- The condition by the value, the limit and the hysteresis (R295), the sum of the two saturating. -/
def limitHolds (high old : Bool) (v lim hyst : Int) : Bool :=
  let sat (n : Int) : Int := max (-2147483648) (min n 2147483647)
  if high then decide ((if old then sat (lim - hyst) else lim) < v)
  else decide (v < (if old then sat (lim + hyst) else lim))

theorem limitHolds_eq (high old : Bool) (v lim hyst : Int) : limitHolds high old v lim hyst =
    if high then
      if old then decide ((satS (lim - hyst) .good).val.toInt < v) else decide (lim < v)
    else
      if old then decide (v < (satS (lim + hyst) .good).val.toInt) else decide (v < lim) := by
  rw [satS_toInt, satS_toInt]
  cases high <;> cases old <;> rfl

theorem limit_of_good (h : ¬((c.get a).tag = .bad ∨ c.pairTag b = .bad)) : limit high d a b c =
    let old := bitOf (c.get d).val 0
    let r := limitHolds high old (c.get a).val.toInt (c.get b).val.toInt (max 0 (c.get (hiReg b)).val.toInt)
    { c.set d ⟨if r then 1 else 0, (c.get a).tag.worst (c.pairTag b)⟩ with
      z := r == old, n := false, l := false, ct := (c.get d).tag } := by
  simp only [limit, if_neg h, hysteresis_eq, ← limitHolds_eq]
  exact setCondition_eq _ _ _ _

theorem exec_limh : exec (.limh (.lane l t) d a b) s =
    .next (s.issueLane l t 1 false (isPair b) fun s c => .done s (limit true d a b c)) := rfl

theorem exec_liml : exec (.liml (.lane l t) d a b) s =
    .next (s.issueLane l t 1 false (isPair b) fun s c => .done s (limit false d a b c)) := rfl

/-! ## The timer step (R297) -/

variable {m : Timer} {x : Bool} {n del don doff f : Nat}

/-- A timer that is off for a condition `x` stamped n, with delay `del`: it takes the condition at once, takes it where
the delay ran out before the seam, or starts. -/
def timerStart (m : Timer) (x : Bool) (n del f : Nat) : Timer :=
  if x = m.out then m
  else if del = 0 then { m with out := x, stamp := n, wrote := true }
  else if addTicks n del < f then { m with out := x, run := false, stamp := addTicks n del, wrote := true }
  else { m with run := true, stamp := addTicks n del, wrote := true }

theorem timerStart_of_same (hx : x = m.out) : timerStart m x n del f = m := if_pos hx

theorem timerStart_of_no_delay (hx : x ≠ m.out) (hdel : del = 0) : timerStart m x n del f =
    { m with out := x, stamp := n, wrote := true } := (if_neg hx).trans (if_pos hdel)

theorem timerStart_of_over (hx : x ≠ m.out) (hdel : del ≠ 0) (hf : addTicks n del < f) : timerStart m x n del f =
    { m with out := x, run := false, stamp := addTicks n del, wrote := true } :=
  (if_neg hx).trans ((if_neg hdel).trans (if_pos hf))

theorem timerStart_of_due (hx : x ≠ m.out) (hdel : del ≠ 0) (hf : f ≤ addTicks n del) : timerStart m x n del f =
    { m with run := true, stamp := addTicks n del, wrote := true } :=
  (if_neg hx).trans ((if_neg hdel).trans (if_neg (Nat.not_lt.2 hf)))

theorem timerStep_of_off (h : m.run = false) : timerStep m x n don doff f =
    { timerStart m x n (if x then don else doff) f with inp := x } := by
  by_cases hx : x = m.out <;> simp [timerStep, timerStart, h, hx]

/-- A timer that has run out gives out what it ran for. -/
def timerRanOut (m : Timer) : Timer := { m with out := !m.out, run := false }

@[simp] theorem timerRanOut_run : (timerRanOut m).run = false := rfl

@[simp] theorem timerRanOut_out : (timerRanOut m).out = !m.out := rfl

/-- A timer whose condition came back after it ran out starts again. -/
theorem timerStep_of_ran_out (hrun : m.run = true) (hx : x = m.out) (hn : m.stamp < n) : timerStep m x n don doff f =
    { timerStart (timerRanOut m) x n (if x then don else doff) f with inp := x } := by
  simp [timerStep, timerStart, timerRanOut, hrun, hx, hn]

/-- A timer whose condition came back in time stops. -/
theorem timerStep_of_back (hrun : m.run = true) (hx : x = m.out) (hn : n ≤ m.stamp) : timerStep m x n don doff f =
    { m with run := false, stamp := n, wrote := true, inp := x } := by
  simp [timerStep, hrun, hx, Nat.not_lt.2 hn]

/-- A timer whose condition stands gives it out where it ran out before the seam, and else runs on. -/
theorem timerStep_of_standing (hrun : m.run = true) (hx : x ≠ m.out) : timerStep m x n don doff f =
    { (if m.stamp < f then { m with out := x, run := false } else m) with inp := x } := by
  simp [timerStep, hrun, hx]

end Delays

/-- Settles O22: the limits by whether an operand is BAD, the timer step by whether the timer runs and whether its
condition came back, and the delays by that step. -/
theorem limitsTimersDelays : Obligations.LimitsTimersDelays := by
  refine ⟨fun s l t d a b heven hb => ?_, fun m x n don doff f => ?_, fun s l t d a b heven hb => ?_⟩
  · intro odd c old v lim hyst limTag bad sat out worst
    have hpair := isPair_of_even heven hb
    refine ⟨fun hbad => ⟨?_, ?_⟩, fun hgood => ⟨?_, ?_⟩⟩
    · exact laneDoes_of_done exec_limh hpair (congrArg _ (limit_of_bad hbad))
    · exact laneDoes_of_done exec_liml hpair (congrArg _ (limit_of_bad hbad))
    · exact laneDoes_of_done exec_limh hpair (congrArg _ (limit_of_good hgood))
    · exact laneDoes_of_done exec_liml hpair (congrArg _ (limit_of_good hgood))
  · intro u del due changed
    have hoff (hrun : m.run = false) : u = { timerStart m x n del f with inp := x } := timerStep_of_off hrun
    have hagain (hrun : m.run = true) (hx : x = m.out) (hn : m.stamp < n) :
        u = { timerStart (timerRanOut m) x n del f with inp := x } := timerStep_of_ran_out hrun hx hn
    have hstands (hrun : m.run = true) (hx : x ≠ m.out) :
        u = { (if m.stamp < f then { m with out := x, run := false } else m) with inp := x } :=
      timerStep_of_standing hrun hx
    have hback (hx : x = m.out) : x ≠ (timerRanOut m).out := hx ▸ (Bool.not_ne_self m.out).symm
    have hdue : addTicks n del = due := rfl
    refine ⟨rfl, fun hrun hx => ?_, fun hrun hx hdel => ?_, fun hrun hx hdel hf => ?_, fun hrun hx hdel hf => ?_,
      fun hrun hx hn => ?_, fun hrun hx hf => ?_, fun hrun hx hf => ?_,
      fun hrun hx hn hdel => ?_, fun hrun hx hn hdel hf => ?_, fun hrun hx hn hdel hf => ?_⟩
    · simp [changed, hoff hrun, timerStart_of_same hx, hrun]
    · simp [changed, hoff hrun, timerStart_of_no_delay hx hdel, hrun]
    · simp [changed, hoff hrun, timerStart_of_over hx hdel hf, hdue]
    · simp [changed, hoff hrun, timerStart_of_due hx hdel hf, hdue]
    · simp [changed, u, timerStep_of_back hrun hx hn]
    · simp [changed, hstands hrun hx, hf]
    · simp [changed, hstands hrun hx, Nat.not_lt.2 hf, hrun]
    · simp [changed, hagain hrun hx hn, timerStart_of_no_delay (hback hx) hdel]
    · simp [changed, hagain hrun hx hn, timerStart_of_over (hback hx) hdel hf, hdue]
    · simp [changed, hagain hrun hx hn, timerStart_of_due (hback hx) hdel hf, hdue]
  · intro c base rd cfg st m cond acts hok
    have hpair := isPair_of_even heven hb
    have hacts : ∀ {i on off}, exec i s = .next (s.issueLane l t 2 false (isPair b) (delay on off d a b l t)) →
        acts on off i := by
      intro i on off hexec
      refine laneDoes_of_done hexec hpair ?_
      rw [delay, if_neg (not_not.2 hok)]
      simp only [applyFx_nil, bits_zero, bits_top, ofNat_three_bits, ofNat_b2n, Cpu.flags, ← Bool.beq_eq_decide_eq]
      rfl
    exact ⟨hacts rfl, hacts rfl, hacts rfl⟩

end Sys2Proof.Proofs
end

section
/-! SUPPORT. Alarm points (R298 to R301): the alarm step, and ALM and ACK on an alarm the thread reaches. -/

namespace Sys2Proof.Proofs

open Sys2Proof.Machine Sys2Proof.Laws

section Alarms

variable {s : State} {l : LaneId} {t : ThreadId} {c : Cpu} {d a b : Reg}

theorem exec_alm : exec (.alm (.lane l t) d a b) s =
    .next (s.issueLane l t 3 false (isPair b) (almEff d a b l t)) := rfl

theorem exec_ack : exec (.ack (.lane l t) d a b) s =
    .next (s.issueLane l t 2 false (isPair b) (ackEff d a b l t)) := rfl

/-! ## The alarm step (R299, R300) -/

variable {x : AState} {cond sup latch : Bool}

/-- Mask bits 4 and 5: the effective condition came or went (R299). -/
def effectiveMask (x : AState) (now : Bool) : Nat :=
  (if now && !(x.cond && !x.supp) then 16 else 0) + (if (x.cond && !x.supp) && !now then 32 else 0)

theorem effectiveMask_add (x : AState) (now : Bool) (k : Nat) : effectiveMask x now + k =
    k + (if now && !(x.cond && !x.supp) then 16 else 0) + (if (x.cond && !x.supp) && !now then 32 else 0) := by
  rw [effectiveMask]
  omega

theorem alarmStep_of_rises (hrises : (cond && !sup && !x.active) = true) : alarmStep x cond sup latch =
    ({ x with cond := cond, supp := cond && sup, active := true, unack := true },
      effectiveMask x (cond && !sup) + if x.unack then 1 else 5) := by
  cases hunack : x.unack <;> simp [alarmStep, effectiveMask, hrises, hunack]

theorem alarmStep_of_falls (hfalls : (!(cond && !sup) && x.active && (!latch || !x.unack)) = true) :
    alarmStep x cond sup latch =
      ({ x with cond := cond, supp := cond && sup, active := false }, effectiveMask x (cond && !sup) + 2) := by
  have hstays : ¬(cond && !sup && !x.active) = true := by
    rw [Bool.and_eq_true, Bool.and_eq_true, Bool.not_eq_true'] at hfalls
    obtain ⟨⟨hnow, -⟩, -⟩ := hfalls
    rw [hnow, Bool.false_and]
    exact Bool.false_ne_true
  simp only [alarmStep, effectiveMask, if_neg hstays, if_pos hfalls]

theorem alarmStep_of_stays (hrises : ¬(cond && !sup && !x.active) = true)
    (hfalls : ¬(!(cond && !sup) && x.active && (!latch || !x.unack)) = true) : alarmStep x cond sup latch =
      ({ x with cond := cond, supp := cond && sup }, effectiveMask x (cond && !sup)) := by
  simp only [alarmStep, effectiveMask, if_neg hrises, if_neg hfalls]

theorem alarmStep_eq (x : AState) (cond sup latch : Bool) :
    let before := x.cond && !x.supp
    let now := cond && !sup
    let falls := !now && x.active && (!latch || !x.unack)
    let rises := now && !x.active
    alarmStep x cond sup latch =
      ({ x with cond := cond, supp := cond && sup, active := rises || (x.active && !falls), unack := x.unack || rises },
        (if rises then 1 else 0) + (if falls then 2 else 0) + (if rises && !x.unack then 4 else 0)
          + (if now && !before then 16 else 0) + (if before && !now then 32 else 0)) := by
  intro before now falls rises
  by_cases hrises : rises = true
  · obtain ⟨hnow, hactive⟩ : now = true ∧ x.active = false := by simpa [rises] using hrises
    rw [alarmStep_of_rises hrises]
    cases hunack : x.unack <;> simp [effectiveMask_add, falls, rises, now, before, hnow, hactive]
  · by_cases hfalls : falls = true
    · rw [alarmStep_of_falls hfalls]
      simp [effectiveMask_add, hrises, hfalls, now, before]
    · rw [alarmStep_of_stays hrises hfalls]
      simp [effectiveMask, hrises, hfalls, now, before]

/-- The change mask of an acknowledgement (R301): bit 3, and bit 1 where the alarm falls. -/
theorem ofNat_ackMask (falls : Bool) : BitVec.ofNat 32 (8 + 2 * b2n falls) = if falls then 10 else 8 := by
  cases falls <;> rfl

end Alarms

/-- Settles O23: the alarm step by whether the alarm rises or falls, ALM by the tag of its condition and the alarm's
group, and ACK by whether there is something to acknowledge. -/
theorem alarms : Obligations.Alarms := by
  refine ⟨fun x c sup latch => ?_, fun s l t d a b base heven hb => ?_, fun s l t d a b base heven hb => ?_⟩
  · intro u mask before now falls rises
    have hstep := alarmStep_eq x c sup latch
    exact ⟨congrArg Prod.snd hstep, congrArg Prod.fst hstep⟩
  · intro c n rd w cfg x stamp acts hrec hjnl hroom
    have hpair := isPair_of_even heven hb
    have hacts : ∀ g : Option Nat, rd.tag ≠ .bad →
        (if bitOf cfg 14 then (s.groupRec t (bits cfg 5 0)).map some else some none) = some g →
        acts (g.elim false fun gb => bitOf (s.kword l (gb + 1)).val 28)
          (g.elim (c.pair b) fun gb => max (c.pair b) (s.kpair l (gb + 6))) := by
      intro g hgood hg
      refine laneDoes_of_done exec_alm hpair ?_
      rw [almEff, hrec]
      dsimp only
      rw [if_neg hgood, hg]
      dsimp only
      rw [applyFx_of_le_one hjnl hroom]
      · cases g <;> simp only [ite_not] <;> rfl
      · exact length_ite_singleton_le _ _
    refine ⟨fun hbad => laneDoes_of_done exec_alm hpair ?_, fun hgood hout => ?_, fun g hgood hin hgrp => ?_⟩
    · rw [almEff, hrec]
      dsimp only
      rw [if_pos hbad, applyFx_nil]
      rfl
    · exact hacts none hgood (if_neg (Bool.eq_false_iff.1 hout))
    · refine hacts (some g) hgood ?_
      rw [bits_zero]
      exact (if_pos hin).trans (congrArg _ hgrp)
  · intro c n rd w x stamp falls org u ws hrec
    have hpair := isPair_of_even heven hb
    refine ⟨fun hnone => laneDoes_of_done exec_ack hpair ?_, fun hgood hunack hjnl hroom =>
      laneDoes_of_done exec_ack hpair ?_⟩
    · rw [ackEff, hrec]
      dsimp only
      rw [if_pos hnone]
      rfl
    · have hacks : ¬(rd.tag = .bad ∨ x.unack = false) := by simp [hgood, hunack]
      rw [ackEff, hrec]
      dsimp only
      rw [if_neg hacks, applyFx_of_le_one hjnl hroom le_rfl]
      simp only [bits_zero, ofNat_ackMask]
      rfl

end Sys2Proof.Proofs
end

section
/-! SUPPORT. Groups and counters (R302 to R307): the suppression step and GSUP, the first-up alarm and FUP, running
hours and starts. -/

namespace Sys2Proof.Proofs

open Sys2Proof.Machine Sys2Proof.Laws

section Groups

variable {s : State} {l : LaneId} {t : ThreadId} {c : Cpu} {d a b : Reg} {g : GState} {n rel due f : Nat}

/-! ## Suppression (R303) -/

theorem gsupStep_of_inhibited : gsupStep g true n rel due f =
    ({ g with supp := true, relrun := false, inh := true }, if g.supp then none else some n, none) := by
  cases hsupp : g.supp <;> simp [gsupStep, hsupp]

/-- The release delay starts where the inhibit of a suppressed group ends. -/
def releaseStarts (g : GState) : Bool := g.supp && !g.relrun && g.inh

/-- Where the release is due. -/
def releaseDue (g : GState) (n rel due : Nat) : Nat :=
  if releaseStarts g then min (n + rel * 10000000) 18446744073709551615 else due

/-- The suppression ends where the release delay ran out before the seam. -/
def releaseEnds (g : GState) (n rel due f : Nat) : Bool :=
  (g.relrun || releaseStarts g) && decide (releaseDue g n rel due < f)

theorem gsupStep_of_released : gsupStep g false n rel due f =
    let ends := releaseEnds g n rel due f
    ({ g with supp := g.supp && !ends, relrun := (g.relrun || releaseStarts g) && !ends, inh := false },
      if ends then some (releaseDue g n rel due) else none,
      if releaseStarts g then some (releaseDue g n rel due) else none) := by
  have hstep : gsupStep g false n rel due f =
      if releaseEnds g n rel due f then ({ g with supp := false, relrun := false, inh := false },
        some (releaseDue g n rel due), if releaseStarts g then some (releaseDue g n rel due) else none)
      else ({ g with relrun := g.relrun || releaseStarts g, inh := false }, none,
        if releaseStarts g then some (releaseDue g n rel due) else none) := rfl
  rw [hstep]
  cases releaseEnds g n rel due f <;> simp

theorem exec_gsup : exec (.gsup (.lane l t) d a b) s =
    .next (s.issueLane l t 2 false (isPair b) (gsupEff d a b l t)) := rfl

/-! ## The first-up alarm (R304) -/

/-- An alarm that is activated before another, or with it and of a lower number. -/
theorem or_earlier_eq (p : Bool) (x y n m : Nat) :
    (p || decide (x < y) || (decide (x = y) && decide (n < m))) = (p || decide (x < y ∨ x = y ∧ n < m)) := by
  rw [Bool.or_assoc, Bool.decide_or, Bool.decide_and]

/-- The first-up alarm's number in its group's record (R302). -/
theorem bits_first (w : Word) : bits w 9 0 = w.toNat % 1024 := bits_zero w 9

/-- The record FUP needs of another alarm, if any. -/
def neededRecord (p : Bool) (r : Option Nat) : Option (Option Nat) := if p then r.map some else some none

theorem neededRecord_eq {p : Bool} {r : Option Nat} {x : Nat} (h : p → r = some x) :
    neededRecord p r = some (if p then some x else none) := by
  cases p with
  | false => rfl
  | true => rw [h rfl]; rfl

theorem elim_ite_some {α : Type} (p : Bool) (x : Nat) (f : Nat → α) :
    ((if p then some x else none).elim [] fun y => [f y]) = if p then [f x] else [] := by
  cases p <;> rfl

/-- What FUP makes of a group by an alarm's change mask (R304): the counts, whether the alarm displaces the first-up
alarm, and whether the group clears. -/
structure FirstUp where
  nact : Nat
  nunack : Nat
  clear : Bool
  takes : Bool
  ends : Bool

/-- The first-up step for the mask of alarm n with record `ab`, on the group with record `gb`. -/
def firstUp (s : State) (l : LaneId) (n ab gb : Nat) (mask : Word) : FirstUp :=
  let gs := GState.of (s.kword l (gb + 1)).val
  let clear := decide (gs.nact = 0 ∧ gs.nunack = 0)
  let nact := groupCount gs.nact (b2n (bitOf mask 0)) (b2n (bitOf mask 1))
  let nunack := groupCount gs.nunack (b2n (bitOf mask 2)) (b2n (bitOf mask 3))
  ⟨nact, nunack, clear,
    bitOf mask 0 && (clear || !gs.fvalid || decide (s.kpair l (ab + 6) < s.kpair l (gb + 4) ∨
      s.kpair l (ab + 6) = s.kpair l (gb + 4) ∧ n < (s.kword l (gb + 2)).val.toNat % 1024)),
    !clear && decide (nact = 0 ∧ nunack = 0)⟩

/-- The writes of FUP (R304), where alarm `o` loses the first-up and alarm `e` ends with it. -/
def fupWrites (s : State) (l : LaneId) (n ab gb : Nat) (u : FirstUp) (o e : Option Nat) : List (Nat × TWord) :=
  let gs := GState.of (s.kword l (gb + 1)).val
  (o.elim [] fun x => [s.putFirst l x false]) ++ (if u.takes then [s.putFirst l ab true] else []) ++
  (e.elim [] fun x => [s.putFirst l x false]) ++
  [(gb + 1, ⟨({ gs with
    nact := u.nact, nunack := u.nunack, fvalid := (u.takes || gs.fvalid) && !u.ends }).word, .good⟩)] ++
  (if u.takes then (gb + 2, ⟨BitVec.ofNat 32 n, .good⟩) :: put64 (gb + 4) (s.kpair l (ab + 6)) else [])

/-- FUP on a group's member, where it reaches the records of the alarms that lose the first-up. -/
theorem fupGroup_of_records {ab gb group : Nat} {o e : Option Nat} :
    let gs := GState.of (s.kword l (gb + 1)).val
    let first := (s.kword l (gb + 2)).val.toNat % 1024
    let u := firstUp s l n ab gb (c.get d).val
    let ws := fupWrites s l n ab gb u o e
    let stamp : Stamp := BitVec.ofNat 64 (s.kpair l (ab + 6))
    let ev : Nat :=
      (if bitOf (c.get d).val 0 && u.clear then 1 else 0) + (if u.ends then 2 else 0) + (if u.takes then 4 else 0)
    neededRecord (u.takes && gs.fvalid) (s.alarmRec t first) = some o →
    neededRecord u.ends (s.alarmRec t (if u.takes then n else first)) = some e →
    (s.decl t).journal = true → roomFor s l 1 →
    fupGroup d n ab group gb l t s c = .done
      (withEffects s l t ws (if ev = 0 then [] else [(stamp, .journal (s.groupJrec l t ws group gb stamp))]))
      ((c.set d ⟨BitVec.ofNat 32 ev, .good⟩).flags (decide (ev = 0)) false false (c.get d).tag) := by
  intro gs first u ws stamp ev ho he hjnl hroom
  have hev : ev = _ := Nat.add_comm _ _
  simp only [neededRecord, u, gs, first, firstUp] at ho he
  rw [fupGroup, bits_first, hev]
  simp only [or_earlier_eq]
  rw [ho, he]
  dsimp only
  rw [← Nat.add_assoc, applyFx_of_le_one hjnl hroom]
  · simp only [ite_not]
    cases o <;> cases e <;> rfl
  · exact length_ite_singleton_le _ _

theorem exec_fup : exec (.fup (.lane l t) d a) s = .next (s.issueLane l t 3 false true (fupEff d a l t)) := rfl

/-! ## Running hours (R306) -/

/-- The ticks RUNH credits from x to y. -/
def runTicks (runs : Bool) (x y : Nat) : Nat := if runs then y - x else 0

/-- RUNH counts where it credits ticks. -/
theorem counts_iff_runTicks (runs : Bool) (x y : Nat) : (runs && decide (x < y)) = true ↔ 0 < runTicks runs x y := by
  cases runs <;> simp [runTicks]

theorem credit_of_runTicks (runs : Bool) (rem secs x y : Nat) :
    (if 0 < runTicks runs x y then credit rem secs (y - x) else (rem, secs)) =
      (if runTicks runs x y = 0 then rem else (rem + runTicks runs x y) % 100000000,
        if runTicks runs x y = 0 then secs
        else min (secs + (rem + runTicks runs x y) / 100000000) 281474976710655) := by
  by_cases hticks : runTicks runs x y = 0
  · rw [if_neg (Nat.not_lt.2 hticks.le), if_pos hticks, if_pos hticks]
  · have hruns : runTicks runs x y = y - x := by
      cases runs with
      | false => exact absurd rfl hticks
      | true => rfl
    rw [if_pos (Nat.pos_of_ne_zero hticks), if_neg hticks, if_neg hticks, hruns]
    rfl

/-- A counter runs up to the seam, or to the stamp of a stop. -/
theorem runs_up_to_eq (was run : Bool) (n f : Nat) :
    (if was then (if run then f else n) else f) = if was && !run then n else f := by
  cases was <;> cases run <;> rfl

/-- SINCE after RUNH: the end of what was credited, or the start of a counter that credits nothing yet. -/
def runSince (was run : Bool) (ticks start stop since : Nat) : Nat :=
  if 0 < ticks then stop else if !was && run then start else since

theorem runSince_eq (was run : Bool) (ticks n stop since : Nat) :
    runSince was run ticks (if was then since else n) stop since =
      if 0 < ticks then stop else if !was && run then n else since := by
  cases was <;> rfl

theorem exec_runh : exec (.runh (.lane l t) d a b) s =
    .next (s.issueLane l t 3 false (isPair b) (runhEff d a b l t)) := rfl

theorem exec_strt : exec (.strt (.lane l t) d a b) s =
    .next (s.issueLane l t 2 false (isPair b) (strtEff d a b l t)) := rfl

end Groups

/-- Settles O24: the suppression step by the inhibit, and the four instructions each by its own equation; FUP by the
records it needs of the alarms that lose the first-up. -/
theorem groupsAndCounters : Obligations.GroupsAndCounters := by
  refine ⟨fun g c n rel due f => ⟨fun hc => ?_, fun hc => ?_⟩, fun s l t d a b base heven hb => ?_,
    fun s l t d a ab gb o e => ?_, fun s l t d a b heven hb => ?_, fun s l t d a b heven hb => ?_⟩
  · rw [hc]
    exact gsupStep_of_inhibited
  · rw [hc, gsupStep_of_released]
    exact ⟨rfl, rfl, rfl⟩
  · intro c n rd g
    generalize hstep : gsupStep g _ _ _ _ _ = step
    obtain ⟨g', sup, due⟩ := step
    intro u tick ws stamp hrec hjnl hroom
    refine laneDoes_of_done exec_gsup (isPair_of_even heven hb) ?_
    rw [gsupEff, hrec]
    dsimp only
    rw [bits_top, bitOf, hstep, applyFx_of_le_one hjnl hroom]
    · simp only [ofNat_b2n, Cpu.flags, ite_not, ← Bool.beq_eq_decide_eq]
      cases sup <;> cases due <;> rfl
    · exact length_ite_singleton_le _ _
  · intro c n rd m cfg g gs first astamp fstamp clear count nact nunack takes ends ev mark ws stamp out hrec
    refine ⟨fun hout => laneDoes_of_done exec_fup rfl ?_,
      fun hin hgrp hjnl hroom ho he => laneDoes_of_done exec_fup rfl ?_⟩
    · rw [fupEff, hrec]
      dsimp only
      rw [bitOf, if_neg (Bool.eq_false_iff.1 hout)]
      rfl
    · have hg : bits cfg 5 0 = g := bits_zero _ _
      have hmember : fupGroup d n ab g gb l t s c = _ :=
        fupGroup_of_records (neededRecord_eq ho) (neededRecord_eq he) hjnl hroom
      rw [fupEff, hrec]
      dsimp only
      rw [bitOf, if_pos hin, hg, hgrp]
      dsimp only
      rw [hmember, fupWrites, elim_ite_some, elim_ite_some]
      rfl
  · intro c base rd st was run rem since secs jsecs f start stop ticks rem' secs' since' posts ws stamp hok hjnl hroom
    refine laneDoes_of_done exec_runh (isPair_of_even heven hb) ?_
    rw [runhEff, if_neg (not_not.2 hok)]
    dsimp only
    rw [applyFx_of_le_one hjnl hroom]
    · simp only [runs_up_to_eq, counts_iff_runTicks, credit_of_runTicks, ← runSince_eq, ofNat_two_bits, ofNat_b2n,
        Cpu.flags, ← Bool.beq_eq_decide_eq]
      rfl
    · exact length_ite_singleton_le _ _
  · intro c base rd st on counts starts ws stamp hok hjnl hroom
    refine laneDoes_of_done exec_strt (isPair_of_even heven hb) ?_
    rw [strtEff, if_neg (not_not.2 hok)]
    dsimp only
    rw [applyFx_of_le_one hjnl hroom]
    · simp only [ofNat_two_bits, ofNat_b2n, Cpu.flags]
      rfl
    · exact length_ite_singleton_le _ _

end Sys2Proof.Proofs
end

section
/-! SUPPORT. The queue of start permits (R379, R380): its order, what a token grants of it and what that
costs (assumption 47). -/

namespace Sys2Proof.Proofs

open Sys2Proof.Machine Sys2Proof.Laws

section Permits

variable {s : State} {r x y : PermitReq} {q : List PermitReq} {units : Nat}

/-! ## The order of the queue (R379) -/

theorem permitPrio_le_of_before (h : s.permitBefore r x = true) : s.permitPrio r ≤ s.permitPrio x := by
  simp only [State.permitBefore, Bool.or_eq_true, Bool.and_eq_true, decide_eq_true_eq] at h
  obtain hlt | ⟨heq, -⟩ := h
  · exact hlt.le
  · exact heq.le

theorem permitPrio_le_of_not_before (h : ¬s.permitBefore r x = true) : s.permitPrio x ≤ s.permitPrio r := by
  simp only [State.permitBefore, Bool.or_eq_true, decide_eq_true_eq] at h
  exact Nat.not_lt.1 fun hlt => h (.inl hlt)

theorem permitInsert_eq_orderedInsert (s : State) (r : PermitReq) (q : List PermitReq) :
    s.permitInsert r q = q.orderedInsert (fun a b => s.permitBefore a b = true) r := by
  induction q with
  | nil => rfl
  | cons x q ih => rw [State.permitInsert, List.orderedInsert_cons, ih]

theorem mem_permitInsert : y ∈ s.permitInsert r q ↔ y = r ∨ y ∈ q := by
  rw [permitInsert_eq_orderedInsert, List.mem_orderedInsert]

/-- A request put in its place of a queue with lower priority numbers first leaves it so. -/
theorem permitInsert_pairwise (r : PermitReq) (h : q.Pairwise fun a b => s.permitPrio a ≤ s.permitPrio b) :
    (s.permitInsert r q).Pairwise fun a b => s.permitPrio a ≤ s.permitPrio b := by
  induction q with
  | nil => exact List.pairwise_singleton _ r
  | cons x q ih =>
    obtain ⟨hx, hq⟩ := List.pairwise_cons.1 h
    rw [State.permitInsert]
    split
    case isTrue hbefore =>
      have hrx := permitPrio_le_of_before hbefore
      refine List.pairwise_cons.2 ⟨fun y hy => ?_, h⟩
      obtain rfl | hyq := List.mem_cons.1 hy
      · exact hrx
      · exact hrx.trans (hx y hyq)
    case isFalse hbefore =>
      refine List.pairwise_cons.2 ⟨fun y hy => ?_, ih hq⟩
      obtain rfl | hyq := mem_permitInsert.1 hy
      · exact permitPrio_le_of_not_before hbefore
      · exact hx y hyq

/-- The queue of a token stands with lower priority numbers first. -/
theorem foldl_permitInsert_pairwise (s : State) (rs : List PermitReq) :
    (rs.foldl (fun q r => s.permitInsert r q) []).Pairwise fun a b => s.permitPrio a ≤ s.permitPrio b :=
  List.foldlRecOn rs _ .nil fun _ h r _ => permitInsert_pairwise r h

/-! ## What a token grants (R379, R380) -/

theorem permitGrants_sublist (s : State) (q : List PermitReq) (units : Nat) : (s.permitGrants q units).Sublist q := by
  fun_induction State.permitGrants s q units with
  | case1 => exact .slnil
  | case2 r q units hdeferred ih => exact ih.cons r
  | case3 r q units hready hdear => exact List.nil_sublist _
  | case4 r q units hready hfits ih => exact ih.cons_cons r

theorem groupDeferred_of_mem_permitGrants (h : r ∈ s.permitGrants q units) :
    s.groupDeferred (r.term / 8) = false := by
  fun_induction State.permitGrants s q units with
  | case1 => exact absurd h List.not_mem_nil
  | case2 x q units hdeferred ih => exact ih h
  | case3 x q units hready hdear => exact absurd h List.not_mem_nil
  | case4 x q units hready hfits ih =>
    obtain rfl | hr := List.mem_cons.1 h
    · exact Bool.eq_false_iff.2 hready
    · exact ih hr

/-- What is granted costs no more than the units of the token, counted on from what was spent before. -/
theorem foldl_permitCost_permitGrants_le (s : State) (q : List PermitReq) (units spent : Nat) :
    (s.permitGrants q units).foldl (fun n r => n + s.permitCost r) spent ≤ spent + units := by
  fun_induction State.permitGrants s q units generalizing spent with
  | case1 => exact Nat.le_add_right _ _
  | case2 r q units hdeferred ih => exact ih spent
  | case3 r q units hready hdear => exact Nat.le_add_right _ _
  | case4 r q units hready hfits ih =>
    calc _ ≤ spent + s.permitCost r + (units - s.permitCost r) := ih _
      _ = spent + units := by omega

end Permits

end Sys2Proof.Proofs
end

section
/-! SUPPORT. Events of the trip matrix and of start permits (R366, R379 to R381): one equation per case. -/

namespace Sys2Proof.Proofs

open Sys2Proof.Machine Sys2Proof.Laws

section Cases

variable {s : State} {n : TripId} {r : PermitReq}

/-! ## Trip terms (R366) -/

/-- The state in which term k is latched where it latches: a lone copy counts for both (assumption 48). -/
def tripHeld (s : State) (k : Nat) : State :=
  if s.fld (A.trpCfg k) F.trpCfg_latch = 1 then s.setBitAt A.trpLatched k true else s

/-- A latch leaves what is asserted. -/
theorem reg_tripHeld_trpAssert (s : State) (k : Nat) : (tripHeld s k).reg A.trpAssert = s.reg A.trpAssert := by
  unfold tripHeld
  split
  · exact reg_setBit_ne (by decide)
  · rfl

theorem tripHeld_eq_ite_bit (s : State) (k : Nat) :
    (if s.bit (A.trpCfg k) F.trpCfg_latch then s.setBitAt A.trpLatched k true else s) = tripHeld s k := by
  simp only [tripHeld, State.bit, decide_eq_true_eq]

theorem execDupMismatch_eq (s : State) (n : TripId) :
    let held := tripHeld s n.val
    let asserted := if (held.reg A.trpAssert).getLsbD n.val then held else held.assertTerm n.val
    execDupMismatch n s = .next ((List.range 48).foldl State.resolveGate (((asserted.event A.trpStatus
      F.trpStatus_dupmismatch).satInc A.trpCnt F.trpCnt_mismatches).report 61 n.val)) := by
  intro held asserted
  rw [execDupMismatch, tripHeld_eq_ite_bit, ← reg_tripHeld_trpAssert s n.val]

/-! ## The stagger (R381) -/

theorem execStaggerSlot_of_running (hbegan : s.field.staggerBegan = true) (hgoing : s.field.staggerDone = false) :
    execStaggerSlot s = .next s.staggerNext.staggerCheck :=
  next_of_pos (by rw [hbegan, hgoing]; rfl)

theorem execStaggerSlot_of_idle (hidle : s.field.staggerBegan = false ∨ s.field.staggerDone = true) :
    execStaggerSlot s = .next s := by
  refine next_of_neg ?_
  obtain hbegan | hdone := hidle
  · simp [hbegan]
  · simp [hdone]

/-! ## Deferred requests (R380) -/

theorem execDeferLong_of_none (hnone : (s.field.permits.find? fun q => q.deferred.isSome && !q.long) = none) :
    execDeferLong s = .next s := by
  rw [execDeferLong, hnone]

theorem execDeferLong_of_some (hsome : (s.field.permits.find? fun q => q.deferred.isSome && !q.long) = some r) :
    let late := s.modField fun f => { f with permits := f.permits.map fun q =>
      { q with long := q.long || (q.term == r.term && q.loop == r.loop) } }
    execDeferLong s = .next ((late.event A.supPmtStatus F.supPmtStatus_deferlong).report 6 (r.term / 8)) := by
  rw [execDeferLong, hsome]

end Cases

/-- Settles O48: a token by the order of its queue and by what it grants of it, the other events by their cases. -/
theorem outputEvents : Obligations.OutputEvents := by
  refine ⟨fun s => ?_, fun s n found r => ?_⟩
  · intro entered groups marked counted u queue units given cost
    have hcost : cost ≤ units := (foldl_permitCost_permitGrants_le u queue units 0).trans_eq (Nat.zero_add units)
    exact ⟨rfl, hcost, permitGrants_sublist u queue units,
      foldl_permitInsert_pairwise u u.field.permits, fun r => groupDeferred_of_mem_permitGrants⟩
  · exact ⟨execDupMismatch_eq s n, rfl, execStaggerSlot_of_running, execStaggerSlot_of_idle, execDeferLong_of_none,
      execDeferLong_of_some⟩

end Sys2Proof.Proofs
end

section
/-! SUPPORT. The register ports of the journal, the event recorder and the clock: what the block of each makes of a
write, and what a read of them does besides. -/

namespace Sys2Proof.Proofs

open Sys2Proof.Machine Sys2Proof.Laws

section Ports

variable {s t : State} {m a n : Nat} {w : Word} {corr : Bool}

/-! ## Accesses -/

/-- A command that is a read of a register has the side effect of that read. -/
theorem readDoes_of_effect {x : Master} {c : Instr} (hc : exec c s = s.masterRead x a) (ha : a < 2 ^ 32)
    (ht : s.readEffect x.id a = t) : readDoes s x c a t := by
  have hto : (BitVec.ofNat 32 a).toNat = a := Nat.mod_eq_of_lt ha
  intro hheld
  rw [hc, State.masterRead, if_neg (by simp [hheld])]
  refine ⟨fun hread => ?_, fun hread => ?_⟩
  · rw [State.busRead, hto, if_pos hread, ht]
  · rw [busRead_of_unreadable (by rwa [hto])]

/-- An accepted lookup (R421): the write of JNL_LOOK, whose read of the flash may correct a word (R434). -/
theorem lookup_of_ok {x : Master} (hheld : s.heldReset = false) (hok : s.writeOk x.id A.jnlLook w = true) :
    s.lookup x w corr = .next ((s.lookWritten w corr).writeSeen s x.id A.jnlLook) := by
  have hwrite : s.busWriteWith x.id (BitVec.ofNat 32 A.jnlLook) w corr =
      ((s.lookWritten w corr).writeSeen s x.id A.jnlLook, true) := if_pos hok
  rw [State.lookup, if_neg (by simp [hheld]), hwrite]

/-! ## The registers, by their rows -/

theorem blockOwn_records : blockOwn A.jnlCtrl = true ∧ blockOwn A.jnlWcmd = true ∧ blockOwn A.jnlFcmd = true ∧
    blockOwn A.evrSwtrig = true ∧ blockOwn A.evrClear = true ∧ blockOwn A.rtcFclr = true := by decide +kernel

/-- Every time register but RTC_SUBSEC, which is read-only. -/
theorem blockOwn_timeAddr {f : TimeField} (h : f ≠ .subsec) : blockOwn (timeAddr f) = true := by
  cases f
  case subsec => exact absurd rfl h
  all_goals decide +kernel

/-! ## The journal's ports (R424, R432, R435) -/

/-- Setting COMPACT_NOW asks for a compaction, whatever else JNL_CTRL holds. -/
theorem blockWritten_jnlCtrl_of_compactnow (h : F.jnlCtrl_compactnow.get w = 1) :
    s.blockWritten m A.jnlCtrl w corr = (s.storeReg m A.jnlCtrl w).modJnl fun j => { j with compAsked := true } :=
  if_pos h

theorem compactnow_get_set (w : Word) : F.jnlCtrl_compactnow.get (F.jnlCtrl_compactnow.set w 1) = 1 :=
  fld_get_set_of_lt ⟨by decide, by decide⟩ (by decide)

theorem blockWritten_jnlWcmd : s.blockWritten m A.jnlWcmd w corr = s.wcmdWritten m w := rfl

theorem wcmdWritten_append : s.wcmdWritten m 1 = s.append m := rfl

theorem wcmdWritten_gopen : s.wcmdWritten m 2 = s.groupOpen m := rfl

theorem wcmdWritten_gclose : s.wcmdWritten m 4 = s.groupClose m := rfl

/-- The raw operation that JNL_FADDR and JNL_FDATA describe, begun with command n (R432). -/
def rawBegun (s : State) (n : Nat) : State :=
  let fd (i : Nat) : Nat := (s.reg (A.jnlFdata i)).toNat * 4294967296 ^ i
  ({ s with jnl := { s.jnl with raw := some ⟨n, s.fld A.jnlFaddr F.jnlFaddr_word,
    BitVec.ofNat 128 (fd 0 + fd 1 + fd 2 + fd 3), false⟩ } } : State).setFld A.jnlFstate F.jnlFstate_busy 1

theorem blockWritten_jnlFcmd (h : F.jnlFcmd_cmd.get w = n) : s.blockWritten m A.jnlFcmd w corr = rawBegun s n := by
  have hdata : ∀ d : Nat → Nat, d 0 + 2 ^ 32 * d 1 + 2 ^ 64 * d 2 + 2 ^ 96 * d 3 =
      d 0 * 4294967296 ^ 0 + d 1 * 4294967296 ^ 1 + d 2 * 4294967296 ^ 2 + d 3 * 4294967296 ^ 3 := fun d => by omega
  have hwrite : s.blockWritten m A.jnlFcmd w corr = s.fcmdWritten w := rfl
  rw [hwrite, State.fcmdWritten, hdata fun i => (s.reg (A.jnlFdata i)).toNat, h]
  rfl

/-! ## The recorder's triggers and clearing (R436, R447) -/

theorem blockWritten_evrSwtrig (detail : BitVec 16) :
    s.blockWritten m A.evrSwtrig (BitVec.ofNat 32 detail.toNat) corr = s.evrEvent 7 detail.toNat 0 s.tbc := by
  have hdetail := detail.isLt
  have hget : F.evrSwtrig_detail.get (BitVec.ofNat 32 detail.toNat) = detail.toNat := by
    simp only [Fld.get, F.evrSwtrig_detail, BitVec.toNat_ofNat]
    omega
  have hwrite : s.blockWritten m A.evrSwtrig (BitVec.ofNat 32 detail.toNat) corr =
      s.swtrigWritten (BitVec.ofNat 32 detail.toNat) := rfl
  rw [hwrite, State.swtrigWritten, hget]

/-- The word of EVR_CLEAR with a key and an area. -/
def clearWord (key : Nat) (area : BitVec 2) : Word := BitVec.ofNat 32 (key * 65536 + area.toNat)

theorem highKey_add_area (key : Nat) (area : BitVec 2) :
    highKey key + area.zeroExtend 32 = clearWord key area := by
  rw [clearWord, BitVec.ofNat_add, BitVec.ofNat_toNat, highKey]

theorem clearWord_get {key : Nat} (hkey : key < 65536) (area : BitVec 2) :
    F.evrClear_key.get (clearWord key area) = key ∧ F.evrClear_area.get (clearWord key area) = area.toNat := by
  have harea := area.isLt
  simp only [clearWord, Fld.get, F.evrClear_key, F.evrClear_area, BitVec.toNat_ofNat]
  omega

theorem blockWritten_evrClear : s.blockWritten m A.evrClear w corr = s.clearWritten w := rfl

theorem clearWritten_arm (area : BitVec 2) : s.clearWritten (clearWord 0xA5A5 area) =
    { s with evr := { s.evr with armed := some (area.toNat, s.tbc) } } := by
  obtain ⟨hkey, harea⟩ := clearWord_get (key := 0xA5A5) (by decide) area
  rw [State.clearWritten, hkey, harea]
  rfl

theorem clearWritten_confirm_of_unarmed {area : BitVec 2} (hnone : s.evr.armed = none) :
    s.clearWritten (clearWord 0x5A5A area) = { s with evr := { s.evr with armed := none } } := by
  obtain ⟨hkey, harea⟩ := clearWord_get (key := 0x5A5A) (by decide) area
  rw [State.clearWritten, hkey, harea, hnone]
  rfl

/-- The second key clears where its area is armed, within 1 ms and with no clear going on; else it disarms. -/
theorem clearWritten_confirm_of_armed {area : BitVec 2} {armed : Nat} {at_ : Stamp}
    (hsome : s.evr.armed = some (armed, at_)) :
    s.clearWritten (clearWord 0x5A5A area) =
      if (armed = area.toNat ∧ (s.tbc - at_).toNat ≤ 100000) ∧ s.evr.clearing = none then
        s.clearConfirmed area.toNat
      else { s with evr := { s.evr with armed := none } } := by
  obtain ⟨hkey, harea⟩ := clearWord_get (key := 0x5A5A) (by decide) area
  rw [State.clearWritten, hkey, harea, hsome]
  simp only [Bool.and_eq_true, decide_eq_true_eq, Option.isNone_iff_eq_none, true_and, Nat.reduceEqDiff, if_false]
  rfl

/-- The second key disarms where nothing is armed, or another area, or too long ago. -/
theorem clearWritten_disarm {area : BitVec 2}
    (h : s.evr.armed = none ∨
      ∃ a t, s.evr.armed = some (a, t) ∧ (a ≠ area.toNat ∨ 100000 < (s.tbc - t).toNat)) :
    s.clearWritten (clearWord 0x5A5A area) = { s with evr := { s.evr with armed := none } } := by
  obtain hnone | ⟨a, t, hsome, hother | hlate⟩ := h
  · exact clearWritten_confirm_of_unarmed hnone
  · exact (clearWritten_confirm_of_armed hsome).trans (if_neg fun h => hother h.1.1)
  · exact (clearWritten_confirm_of_armed hsome).trans (if_neg fun h => Nat.not_le.2 hlate h.1.2)

/-! ## The recorder's window (R446) -/

theorem readEffect_evrWend : s.readEffect m A.evrWend = s.wendRead m := rfl

/-- The slots of the area that master m's cursor stands in: 256 of FIRST, 4,096 of LAST. -/
def windowSlots (s : State) (m : Nat) : Nat := if s.fld (bank m A.evrCursor) F.evrCursor_area = 1 then 256 else 4096

theorem wendRead_forward (hauto : s.fld (bank m A.evrCursor) F.evrCursor_auto = 1)
    (hdir : s.fld (bank m A.evrCursor) F.evrCursor_dir = 0) :
    s.wendRead m = s.setFld (bank m A.evrCursor) F.evrCursor_slot
      ((s.fld (bank m A.evrCursor) F.evrCursor_slot + 1) % windowSlots s m) := by
  simp [State.wendRead, State.bit, windowSlots, hauto, hdir]

theorem wendRead_backward (hauto : s.fld (bank m A.evrCursor) F.evrCursor_auto = 1)
    (hdir : s.fld (bank m A.evrCursor) F.evrCursor_dir = 1) :
    s.wendRead m = s.setFld (bank m A.evrCursor) F.evrCursor_slot
      ((s.fld (bank m A.evrCursor) F.evrCursor_slot + windowSlots s m - 1) % windowSlots s m) := by
  simp [State.wendRead, State.bit, windowSlots, hauto, hdir]

theorem wendRead_of_still (hauto : s.fld (bank m A.evrCursor) F.evrCursor_auto = 0) : s.wendRead m = s := by
  refine if_neg ?_
  rw [bit_eq_false (by simp [hauto])]
  exact Bool.false_ne_true

/-! ## The time registers (R459, R461, R462) -/

theorem timeAddr_bounds (f : TimeField) : A.rtcSubsec ≤ timeAddr f ∧ timeAddr f ≤ A.rtcYear := by
  cases f <;> decide

theorem timeAddr_ne_year {f : TimeField} (h : f ≠ .year) : timeAddr f ≠ A.rtcYear := by
  cases f
  case year => exact absurd rfl h
  all_goals decide

theorem timeAddr_stageable {f : TimeField} (hyear : f ≠ .year) (hsub : f ≠ .subsec) :
    A.rtcSec ≤ timeAddr f ∧ timeAddr f < A.rtcYear := by
  cases f
  case year => exact absurd rfl hyear
  case subsec => exact absurd rfl hsub
  all_goals decide

theorem readEffect_timeAddr (f : TimeField) : s.readEffect m (timeAddr f) = s.timeRead m (timeAddr f) :=
  if_pos (timeAddr_bounds f)

theorem timeRead_of_unfrozen (ha : a ≠ A.rtcYear) (h : s.shadowOf m = none) : s.timeRead m a =
    { s with rtc := { s.rtc with shadows := s.rtc.shadows ++ [(m, s.rtcNow, s.tbc)] } } := by
  rw [State.timeRead, if_neg ha, h]
  rfl

theorem timeRead_of_frozen (ha : a ≠ A.rtcYear) (h : s.shadowOf m ≠ none) : s.timeRead m a = s := by
  rw [State.timeRead, if_neg ha, if_pos (Option.isSome_iff_ne_none.2 h)]

theorem blockWritten_rtc (hlo : 0x00040000 ≤ a) (hhi : a < 0x00050000) :
    s.blockWritten m a w corr = s.rtcWritten m a w := by
  unfold State.blockWritten
  iterate 2 rw [if_neg (by omega)]
  rw [if_pos ⟨hlo, hhi⟩]

/-- The registers of SEC to MONTH stage what is written to them. -/
theorem blockWritten_rtc_stage (hlo : A.rtcSec ≤ a) (hhi : a < A.rtcYear) :
    s.blockWritten m a w corr = s.stageTime m a w.toNat := by
  have hlo' : 0x00040008 ≤ a := hlo
  have hhi' : a < 0x0004001C := hhi
  rw [blockWritten_rtc (by omega) (by omega), State.rtcWritten, if_neg hhi.ne, if_pos ⟨hlo, hhi⟩]

theorem blockWritten_rtcYear : s.blockWritten m A.rtcYear w corr = s.commitTime m w.toNat := rfl

/-! ## The clock's flags (R464) -/

theorem blockWritten_rtcFclr : s.blockWritten m A.rtcFclr w corr = s.fclrWritten w := rfl

theorem fclrWritten_osf : s.fclrWritten 1 = if s.oscOk then s.setFld A.rtcFlags F.rtcFlags_osf 0 else s := by
  have hosf : F.rtcFclr_osf.get 1 = 1 := rfl
  have hlbv : ¬F.rtcFclr_lbv.get 1 = 1 := by decide
  rw [State.fclrWritten, if_neg fun h => hlbv h.1]
  simp only [hosf, true_and]
  rfl

theorem fclrWritten_lbv : s.fclrWritten 2 =
    if 2300 ≤ s.fld A.rtcVbat F.rtcVbat_mv then s.setFld A.rtcFlags F.rtcFlags_lbv 0 else s := by
  have hosf : ¬(F.rtcFclr_osf.get 2 = 1 ∧ s.oscOk) := fun h => absurd h.1 (by decide)
  have hlbv : F.rtcFclr_lbv.get 2 = 1 := rfl
  rw [State.fclrWritten, if_neg hosf]
  simp only [hlbv, true_and]
  rfl

end Ports

/-- Settles O37: each command is a write or a read of its register, with the effect of its block; EVR_CLEAR by what is
armed, a read by the master's cursor or shadows. -/
theorem recordAndClockRegisters : Obligations.RecordAndClockRegisters := by
  obtain ⟨hctrl, hwcmd, hfcmd, hswtrig, hclear, hfclr⟩ := blockOwn_records
  refine ⟨fun s m corr detail area => ?_, fun s m f w => ?_⟩
  · intro ctrl look fd raw cursor slots slot
    have htrigger : exec (.evrSwtrig m detail) s = s.masterWrite m A.evrSwtrig (BitVec.ofNat 32 detail.toNat) :=
      congrArg (s.masterWrite m A.evrSwtrig) (BitVec.ofNat_toNat 32 detail).symm
    have harm : exec (.evrClearArm m area) s = s.masterWrite m A.evrClear (clearWord 0xA5A5 area) :=
      congrArg (s.masterWrite m A.evrClear) (highKey_add_area 0xA5A5 area)
    have hconfirm : exec (.evrClearConfirm m area) s = s.masterWrite m A.evrClear (clearWord 0x5A5A area) :=
      congrArg (s.masterWrite m A.evrClear) (highKey_add_area 0x5A5A area)
    exact ⟨writeDoes_of_block rfl hctrl (blockWritten_jnlCtrl_of_compactnow (compactnow_get_set _)),
      lookup_of_ok, lookup_of_ok,
      writeDoes_of_block rfl hwcmd (blockWritten_jnlWcmd.trans wcmdWritten_append),
      writeDoes_of_block rfl hwcmd (blockWritten_jnlWcmd.trans wcmdWritten_gopen),
      writeDoes_of_block rfl hwcmd (blockWritten_jnlWcmd.trans wcmdWritten_gclose),
      writeDoes_of_block rfl hfcmd (blockWritten_jnlFcmd rfl),
      writeDoes_of_block rfl hfcmd (blockWritten_jnlFcmd rfl),
      writeDoes_of_block rfl hfcmd (blockWritten_jnlFcmd rfl),
      writeDoes_of_block htrigger hswtrig (blockWritten_evrSwtrig detail),
      writeDoes_of_block harm hclear (blockWritten_evrClear.trans (clearWritten_arm area)),
      fun t harmed htime hidle =>
        writeDoes_of_block hconfirm hclear ((clearWritten_confirm_of_armed harmed).trans
          (if_pos ⟨⟨rfl, htime⟩, hidle⟩)),
      fun h => writeDoes_of_block hconfirm hclear (blockWritten_evrClear.trans (clearWritten_disarm h)),
      fun hauto hdir => readDoes_of_effect rfl (by decide) (readEffect_evrWend.trans (wendRead_forward hauto hdir)),
      fun hauto hdir => readDoes_of_effect rfl (by decide) (readEffect_evrWend.trans (wendRead_backward hauto hdir)),
      fun hauto => readDoes_of_effect rfl (by decide) (readEffect_evrWend.trans (wendRead_of_still hauto))⟩
  · intro addr
    have haddr : addr f = timeAddr f := by cases f <;> rfl
    have hlt : timeAddr f < 2 ^ 32 := (timeAddr_bounds f).2.trans_lt (by decide)
    rw [haddr]
    exact ⟨fun hyear h => readDoes_of_effect rfl hlt
        ((readEffect_timeAddr f).trans (timeRead_of_unfrozen (timeAddr_ne_year hyear) h)),
      fun hyear h => readDoes_of_effect rfl hlt
        ((readEffect_timeAddr f).trans (timeRead_of_frozen (timeAddr_ne_year hyear) h)),
      readDoes_of_effect rfl (by decide) rfl,
      fun hyear hsub => writeDoes_of_block rfl (blockOwn_timeAddr hsub)
        (blockWritten_rtc_stage (timeAddr_stageable hyear hsub).1 (timeAddr_stageable hyear hsub).2),
      writeDoes_of_block rfl (blockOwn_timeAddr (f := .year) (by decide)) blockWritten_rtcYear,
      fun h => writeDoes_of_block rfl hfclr (blockWritten_rtcFclr.trans (fclrWritten_osf.trans (if_pos h))),
      fun h => writeDoes_of_block rfl hfclr
        (blockWritten_rtcFclr.trans (fclrWritten_osf.trans (if_neg (by simp [h])))),
      fun h => writeDoes_of_block rfl hfclr (blockWritten_rtcFclr.trans (fclrWritten_lbv.trans (if_pos h))),
      fun h => writeDoes_of_block rfl hfclr
        (blockWritten_rtcFclr.trans (fclrWritten_lbv.trans (if_neg (Nat.not_le.2 h))))⟩

end Sys2Proof.Proofs
end

section
/-! SUPPORT. The calendar of the clock (R454): the days before a year and before a month, and the second after a time as
one second more in the count of seconds since 2000. -/

namespace Sys2Proof.Proofs

open Sys2Proof.Machine Sys2Proof.Laws

section Calendar

variable {t : RtcTime} {y m : Nat}

/-! ## Days -/

/-- Days of the century before a year. -/
def daysBeforeYear (y : Nat) : Nat := 365 * y + (y + 3) / 4

/-- Days of a year before its month m. -/
def daysBeforeMonth (y m : Nat) : Nat := (List.range (m - 1)).foldl (fun n i => n + monthDays y (i + 1)) 0

/-- Days of the century before a time's own. -/
def dayNumber (t : RtcTime) : Nat := daysBeforeYear t.year + daysBeforeMonth t.year t.month + (t.date - 1)

theorem seconds_eq (t : RtcTime) : t.seconds = ((dayNumber t * 24 + t.hour) * 60 + t.min) * 60 + t.sec := rfl

theorem daysBeforeYear_succ (y : Nat) : daysBeforeYear (y + 1) = daysBeforeYear y + if y % 4 = 0 then 366 else 365 := by
  unfold daysBeforeYear
  split <;> omega

/-- After the century's last year comes its first. -/
theorem daysBeforeYear_wrap (h : y < 100) : daysBeforeYear ((y + 1) % 100) = daysBeforeYear (y + 1) % 36525 := by
  rcases Nat.lt_or_ge (y + 1) 100 with hnext | hend
  · rw [Nat.mod_eq_of_lt hnext]
    unfold daysBeforeYear
    omega
  · rw [show y + 1 = 100 by omega]
    rfl

theorem daysBeforeMonth_one (y : Nat) : daysBeforeMonth y 1 = 0 := rfl

theorem daysBeforeMonth_succ (h : 1 ≤ m) : daysBeforeMonth y (m + 1) = daysBeforeMonth y m + monthDays y m := by
  obtain ⟨k, rfl⟩ := Nat.exists_eq_add_of_le' h
  simp [daysBeforeMonth, List.range_succ]

/-- December ends the year. -/
theorem daysBeforeMonth_december (y : Nat) : daysBeforeMonth y 12 + 31 = if y % 4 = 0 then 366 else 365 := by
  by_cases h : y % 4 = 0 <;> simp [daysBeforeMonth, List.range_succ, monthDays, leapYear, h]

theorem monthDays_bounds (y m : Nat) : 28 ≤ monthDays y m ∧ monthDays y m ≤ 31 := by
  unfold monthDays
  split_ifs <;> omega

theorem daysBeforeMonth_mono {a b : Nat} (h : a ≤ b) : daysBeforeMonth y a ≤ daysBeforeMonth y b := by
  induction b, h using Nat.le_induction with
  | base => rfl
  | succ b _ ih =>
    rcases Nat.eq_zero_or_pos b with rfl | hb
    · exact ih
    · rw [daysBeforeMonth_succ hb]
      omega

/-- A time with its hour, minute and second replaced. -/
theorem seconds_clock (t : RtcTime) (hour min sec : Nat) :
    ({ t with sec := sec, min := min, hour := hour } : RtcTime).seconds =
      ((dayNumber t * 24 + hour) * 60 + min) * 60 + sec := rfl

/-! ## Dates and times of the calendar -/

/-- A date that exists, of 2000 to 2099. -/
def DateExists (t : RtcTime) : Prop :=
  1 ≤ t.month ∧ t.month ≤ 12 ∧ 1 ≤ t.date ∧ t.date ≤ monthDays t.year t.month ∧ t.year < 100

/-- A time of the calendar. -/
def TimeExists (t : RtcTime) : Prop := t.sec < 60 ∧ t.min < 60 ∧ t.hour < 24 ∧ DateExists t

theorem dayNumber_lt (h : DateExists t) : dayNumber t < 36525 := by
  obtain ⟨hmonth, hmonth', hdate, hdate', hyear⟩ := h
  have hend : daysBeforeMonth t.year (t.month + 1) ≤ daysBeforeMonth t.year 13 :=
    daysBeforeMonth_mono (by omega)
  rw [daysBeforeMonth_succ hmonth, daysBeforeMonth_succ (by decide)] at hend
  have hdec := daysBeforeMonth_december t.year
  have hlast : monthDays t.year 12 = 31 := rfl
  unfold dayNumber daysBeforeYear
  split at hdec <;> omega

/-- The day after, at the same time of the day. -/
def nextDay (t : RtcTime) : RtcTime :=
  if t.date < monthDays t.year t.month then { t with date := t.date + 1 }
  else if t.month < 12 then { t with date := 1, month := t.month + 1 }
  else { t with date := 1, month := 1, year := (t.year + 1) % 100 }

/-- The day after a date that exists is the next day of the century, whose last is followed by its first. -/
theorem nextDay_date (h : DateExists t) :
    DateExists (nextDay t) ∧ dayNumber (nextDay t) = (dayNumber t + 1) % 36525 := by
  obtain ⟨hmonth, hmonth', hdate, hdate', hyear⟩ := h
  unfold nextDay
  split
  next hday =>
    have hnum : dayNumber { t with date := t.date + 1 } = dayNumber t + 1 := by simp only [dayNumber]; omega
    have hex : DateExists { t with date := t.date + 1 } := ⟨hmonth, hmonth', by simp, hday, hyear⟩
    exact ⟨hex, by rw [← hnum, Nat.mod_eq_of_lt (dayNumber_lt hex)]⟩
  next hday =>
    have hlast : t.date = monthDays t.year t.month := by omega
    split
    next hdec =>
      have hnum : dayNumber { t with date := 1, month := t.month + 1 } = dayNumber t + 1 := by
        simp only [dayNumber, daysBeforeMonth_succ hmonth]
        omega
      have hfirst := (monthDays_bounds t.year (t.month + 1)).1
      have hex : DateExists { t with date := 1, month := t.month + 1 } :=
        ⟨by simp, hdec, le_rfl, by simp only; omega, hyear⟩
      exact ⟨hex, by rw [← hnum, Nat.mod_eq_of_lt (dayNumber_lt hex)]⟩
    next hdec =>
      have hdec : t.month = 12 := by omega
      have hex : DateExists { t with date := 1, month := 1, year := (t.year + 1) % 100 } :=
        ⟨le_rfl, by simp, le_rfl, by simp [monthDays], Nat.mod_lt _ (by decide)⟩
      have hday : dayNumber t + 1 = daysBeforeYear (t.year + 1) := by
        have hend := daysBeforeMonth_december t.year
        have hlen : monthDays t.year 12 = 31 := rfl
        rw [daysBeforeYear_succ, dayNumber, hlast, hdec, hlen]
        omega
      refine ⟨hex, ?_⟩
      simp only [dayNumber, daysBeforeMonth_one] at hday ⊢
      rw [hday, ← daysBeforeYear_wrap hyear]
      rfl

/-! ## The second after (R454) -/

theorem next_of_sec (h : t.sec < 59) : t.next = { t with sec := t.sec + 1 } := if_pos h

theorem next_of_min (hsec : ¬t.sec < 59) (hmin : t.min < 59) : t.next = { t with sec := 0, min := t.min + 1 } := by
  rw [RtcTime.next, if_neg hsec, if_pos hmin]

theorem next_of_hour (hsec : ¬t.sec < 59) (hmin : ¬t.min < 59) (hhour : t.hour < 23) :
    t.next = { t with sec := 0, min := 0, hour := t.hour + 1 } := by
  rw [RtcTime.next, if_neg hsec, if_neg hmin, if_pos hhour]

theorem next_of_midnight (hsec : ¬t.sec < 59) (hmin : ¬t.min < 59) (hhour : ¬t.hour < 23) :
    t.next = { nextDay t with sec := 0, min := 0, hour := 0 } := by
  rw [RtcTime.next, if_neg hsec, if_neg hmin, if_neg hhour]
  dsimp only [nextDay]
  split_ifs <;> rfl

/-- The second after a time of the calendar is the next second of the century, whose last is followed by its first: each
digit that rolls over carries into the next, and at midnight the day does. -/
theorem next_time (h : TimeExists t) :
    TimeExists t.next ∧ t.next.seconds = (t.seconds + 1) % (36525 * 86400) := by
  obtain ⟨hsec, hmin, hhour, hdate⟩ := h
  have hday := dayNumber_lt hdate
  by_cases hs : t.sec < 59
  · rw [next_of_sec hs, seconds_clock, seconds_eq]
    exact ⟨⟨Nat.succ_lt_succ hs, hmin, hhour, hdate⟩, by omega⟩
  by_cases hm : t.min < 59
  · rw [next_of_min hs hm, seconds_clock, seconds_eq]
    exact ⟨⟨Nat.zero_lt_succ 59, Nat.succ_lt_succ hm, hhour, hdate⟩, by omega⟩
  by_cases hh : t.hour < 23
  · rw [next_of_hour hs hm hh, seconds_clock, seconds_eq]
    exact ⟨⟨Nat.zero_lt_succ 59, Nat.zero_lt_succ 59, Nat.succ_lt_succ hh, hdate⟩, by omega⟩
  · obtain ⟨hexists, hnum⟩ := nextDay_date hdate
    rw [next_of_midnight hs hm hh, seconds_clock, seconds_eq, hnum]
    exact ⟨⟨Nat.zero_lt_succ 59, Nat.zero_lt_succ 59, Nat.zero_lt_succ 23, hexists⟩, by omega⟩

end Calendar

end Sys2Proof.Proofs
end

section
/-! SUPPORT. The real-time clock (R450 to R465): the time its registers hold once it is set, and its events, one equation
per case. -/

namespace Sys2Proof.Proofs

open Sys2Proof.Machine Sys2Proof.Laws

section Clock

variable {s : State} {t : RtcTime} {a : Nat} {q : RtcLoadReq} {rest : List RtcLoadReq}

/-! ## The time set (R454) -/

/-- The words the registers of the time are set to, in the order of their writes. -/
def timeWords (t : RtcTime) : List (Nat × Word) :=
  [(A.rtcSec, BitVec.ofNat 32 t.sec), (A.rtcMin, BitVec.ofNat 32 t.min), (A.rtcHour, BitVec.ofNat 32 t.hour),
    (A.rtcDate, BitVec.ofNat 32 t.date), (A.rtcMonth, BitVec.ofNat 32 t.month), (A.rtcYear, BitVec.ofNat 32 t.year),
    (A.rtcSubsec, BitVec.ofNat 32 0)]

theorem reg_foldl_setReg_ne {l : List (Nat × Word)} (h : a ∉ l.map Prod.fst) :
    (l.foldl (fun u x => u.setReg x.1 x.2) s).reg a = s.reg a := by
  induction l generalizing s with
  | nil => rfl
  | cons x l ih =>
    obtain ⟨hx, hl⟩ := not_or.1 (mt List.mem_cons.2 h)
    exact (ih hl).trans (reg_setReg_ne hx)

/-- Registers written once each hold what is written to them. -/
theorem reg_foldl_setReg {l : List (Nat × Word)} {w : Word} (hcanon : canonical s = true)
    (honce : (l.map Prod.fst).Nodup) (hmem : (a, w) ∈ l) : (l.foldl (fun u x => u.setReg x.1 x.2) s).reg a = w := by
  induction l generalizing s with
  | nil => cases hmem
  | cons x l ih =>
    obtain ⟨hx, hl⟩ := List.nodup_cons.1 honce
    rcases List.mem_cons.1 hmem with rfl | hmem
    · exact (reg_foldl_setReg_ne hx).trans (reg_setReg hcanon)
    · exact ih (canonical_setReg hcanon) hl hmem

theorem setTime_eq_timeWords (s : State) (t : RtcTime) : s.setTime t =
    ((timeWords t).foldl (fun u x => u.setReg x.1 x.2) s).modRtc fun r => { r with secondAt := s.tbc } := rfl

theorem timeWords_nodup (t : RtcTime) : ((timeWords t).map Prod.fst).Nodup :=
  show [A.rtcSec, A.rtcMin, A.rtcHour, A.rtcDate, A.rtcMonth, A.rtcYear, A.rtcSubsec].Nodup by decide

/-- A field of the time reads what the clock has been set to. -/
theorem fld_setTime {f : Fld} {n bound : Nat} (hcanon : canonical s = true)
    (hmem : (a, BitVec.ofNat 32 n) ∈ timeWords t) (hn : n < bound)
    (hfits : f.lo = 0 ∧ f.hi < 32 ∧ bound ≤ 2 ^ (f.hi + 1)) : (s.setTime t).fld a f = n := by
  obtain ⟨hlo, hhi, hbound⟩ := hfits
  have hn : n < 2 ^ (f.hi + 1) := hn.trans_le hbound
  have hreg : (s.setTime t).reg a = BitVec.ofNat 32 n := by
    rw [setTime_eq_timeWords, modRtc_reg, reg_foldl_setReg hcanon (timeWords_nodup t) hmem]
  have hword : n < 2 ^ 32 := hn.trans_le (Nat.pow_le_pow_right (by decide) hhi)
  rw [State.fld, hreg, Fld.get, BitVec.toNat_ofNat, Nat.mod_eq_of_lt hword, hlo, pow_zero, Nat.div_one]
  exact Nat.mod_eq_of_lt hn

/-- A second begins with SUBSEC 0 (the ticks since it began, assumption 60), and a clock that stands shows the SUBSEC 0 it
was set with. -/
theorem subsecNow_setTime (hcanon : canonical s = true) : (s.setTime t).subsecNow = 0 := by
  have hbegan : (s.setTime t).tbc - (s.setTime t).rtc.secondAt = 0 := BitVec.sub_self s.tbc
  have hstood : (s.setTime t).fld A.rtcSubsec F.rtcSubsec_subsec = 0 :=
    fld_setTime hcanon (by simp [timeWords]) Nat.zero_lt_one (by decide)
  rw [State.subsecNow, hbegan, hstood]
  simp

/-- The clock shows the time it has been set to. -/
theorem rtcNow_setTime (hcanon : canonical s = true) (ht : TimeExists t) :
    (s.setTime t).rtcNow = { t with subsec := 0 } := by
  obtain ⟨hsec, hmin, hhour, -, hmonth, -, hdate, hyear⟩ := ht
  have hlast : t.date ≤ 31 := hdate.trans (monthDays_bounds t.year t.month).2
  rw [State.rtcNow, subsecNow_setTime hcanon, fld_setTime hcanon (by simp [timeWords]) hsec (by decide),
    fld_setTime hcanon (by simp [timeWords]) hmin (by decide),
    fld_setTime hcanon (by simp [timeWords]) hhour (by decide),
    fld_setTime hcanon (by simp [timeWords]) (Nat.lt_succ_of_le hlast) (by decide),
    fld_setTime hcanon (by simp [timeWords]) (Nat.lt_succ_of_le hmonth) (by decide),
    fld_setTime hcanon (by simp [timeWords]) hyear (by decide)]

/-! ## Loads (R458, R462) -/

theorem execRtcLoad_of_empty (h : s.rtc.loads = []) : execRtcLoad s = .next s := by
  rw [execRtcLoad, h]

theorem execRtcLoad_of_first (h : s.rtc.loads = q :: rest) :
    let t := q.time s.rtcNow
    let loaded := s.modRtc fun r => { r with loads := rest }
    let set := (loaded.setTime t).event A.rtcStatus F.rtcStatus_committed
    execRtcLoad s = .next (
      if monthDays t.year t.month < t.date then loaded.event A.rtcStatus F.rtcStatus_commiterr
      else if q.fields.length = 5 then set.setBit A.rtcFlags F.rtcFlags_osf false else set) := by
  rw [execRtcLoad, h]

end Clock

/-- Settles O54: the calendar by its count of seconds, the time set by its registers, each event by its case. -/
theorem realTimeClock : Obligations.RealTimeClock := by
  refine ⟨fun s t => ?_, fun s mv m q rest => ?_⟩
  · intro valid
    refine ⟨fun h => ?_, fun h => next_of_pos (bit_eq_true h), fun h => next_of_neg (not_bit h),
      fun hcanon h => rtcNow_setTime hcanon h⟩
    obtain ⟨htime, hsecond⟩ := next_time h
    exact ⟨htime, fun hlt => hsecond.trans (Nat.mod_eq_of_lt hlt),
      fun hlast => by rw [hsecond, hlast, Nat.mod_self]⟩
  · intro read stood back zero zeroed opened posted loaded t set
    exact ⟨rfl, fun h => next_of_pos h, fun h => next_of_neg (Nat.not_lt.2 h), rfl,
      fun h => next_of_pos (bit_eq_true h), fun h => next_of_neg (not_bit h),
      rfl, rfl, rfl, rfl, rfl,
      fun h => next_of_pos h, fun h => next_of_neg (by simp [h]),
      execRtcLoad_of_empty,
      fun h => ⟨fun hdate => (execRtcLoad_of_first h).trans (next_of_pos hdate),
        fun hdate hpart => (execRtcLoad_of_first h).trans
          ((next_of_neg (Nat.not_lt.2 hdate)).trans (next_of_neg hpart)),
        fun hdate hfull => (execRtcLoad_of_first h).trans
          ((next_of_neg (Nat.not_lt.2 hdate)).trans (next_of_pos hfull))⟩⟩

end Sys2Proof.Proofs
end

section
/-! SUPPORT. Ship time and the ports of the network (R462, R498 to R522, R528): one equation per case. -/

namespace Sys2Proof.Proofs

open Sys2Proof.Machine Sys2Proof.Laws

/-! ## Choices -/

section Choices

variable {t u : State} {b : Bool}

theorem next_of_false (h : b = false) : (.next (if !b then t else u) : Out) = .next t := next_of_pos (by simp [h])

theorem next_of_true (h : b = true) : (.next (if !b then t else u) : Out) = .next u := next_of_neg (by simp [h])

end Choices

section ShipTime

variable {s : State}

/-! ## Syncs (R503, R504) -/

section Sync

variable {p : EthPort} {m : PtpData} {ident theta : BitVec 64} {rate : BitVec 32}

theorem execPtpSync_of_no_master (h : s.net.master = none) : execPtpSync p ident theta rate s = .next s := by
  rw [execPtpSync, h]

/-- A Sync that is used: it shows θ, and it sets the rate and the port. -/
def syncShown (s : State) (p : EthPort) (theta : BitVec 64) (rate : BitVec 32) : State :=
  (((s.setFld A.netPtpstate F.netPtpstate_port p.val).setReg A.netTheta (thetaWord theta.toInt)).setRate
    rate.toInt).setDisc true

theorem execPtpSync_of_master (h : s.net.master = some m) : execPtpSync p ident theta rate s = .next (
    if m.ident ≠ ident ∨ (p.val = 1 ∧ s.fld A.netPtpstate F.netPtpstate_port = 0) then s
    else if (syncShown s p theta rate).net.fresh then (syncShown s p theta rate).acquire theta.toInt
    else if (syncShown s p theta rate).ptpState = 2 then (syncShown s p theta rate).syncLocked theta.toInt
    else (syncShown s p theta rate).countGood theta.toInt) := by
  rw [execPtpSync, h]
  rfl

end Sync

/-! ## Ship time set and sent (R462, R506, R519) -/

section UtcTime

variable {ms : Nat}

/-- The lamp room stages and commits the date and time of whole second n of the century. -/
def shipTimeSet (s : State) (n : Nat) : State :=
  let day := dateOf (n / 86400)
  (((((s.stageTime 4 A.rtcSec (n % 60)).stageTime 4 A.rtcMin (n / 60 % 60)).stageTime 4 A.rtcHour
    (n / 3600 % 24)).stageTime 4 A.rtcDate day.2.2).stageTime 4 A.rtcMonth day.2.1).commitTime 4 day.1

theorem execRtcShipSet_of_known (hset : s.fld A.netCtrl F.netCtrl_rtcset = 1) (hlocked : s.ptpState = 2)
    (hutc : s.fld A.netPtpstate F.netPtpstate_utcv = 1) (hgate : s.gateOpen = true) (hms : s.utcMs s.tbc = some ms) :
    execRtcShipSet s = .next (shipTimeSet s (ms / 1000)) := by
  refine (next_of_pos (by simp [bit_eq_true hset, hlocked, bit_eq_true hutc, hgate])).trans ?_
  rw [hms]
  rfl

/-- The associations that take the time element: UP at version 1 with a partner that asks for it. -/
def timePartners (s : State) : List Nat :=
  assocNos.filter fun a => s.assocUp a && s.assocVer a == 1 && decide ((s.assoc a).pcaps / 16 % 2 = 1)

theorem execTimeElementTimer_of_known (hon : s.netOn = true) (hms : s.utcMs s.tbc = some ms) :
    let body := s.timeElem ms
    let sent := (timePartners s).foldl (fun s a => s.sendTo a 0x20 body) s
    execTimeElementTimer s = .next (if sent.fld A.netCtrl F.netCtrl_ctime = 1 then
      (sent.sendCanAll 0 0x20 body).sendCanAll 1 0x20 body else sent) := by
  refine (next_of_true hon).trans ?_
  rw [hms]
  simp only [State.bit, decide_eq_true_eq]
  rfl

end UtcTime

end ShipTime

/-! ## The ports (R498, R499, R508) -/

section Ports

variable {s : State} {p : EthPort} {c : CanPort}

theorem execLinkChange_of_up (hen : s.fld (A.netPcfg p.val) F.netPcfg_en = 1) (low : Bool) :
    let amp := s.fld (A.netPcfg p.val) F.netPcfg_amp
    execLinkChange p true low s = .next ((s.setBit (A.netPstate p.val) F.netPstate_link true).setBit
      (A.netPstate p.val) F.netPstate_ampact (if amp = 1 then false else if amp = 2 then true else low)) :=
  (next_of_neg (by simp [bit_eq_true hen])).trans (next_of_pos rfl)

theorem execBusOffRecovery_of_auto (hen : s.fld (A.netCcfg c.val) F.netCcfg_en = 1)
    (hauto : s.fld (A.netCcfg c.val) F.netCcfg_auto = 1) (hoff : s.fld (A.netCstate c.val) F.netCstate_state = 2) :
    execBusOffRecovery c s = .next (s.canActive c.val) :=
  next_of_pos (by simp [bit_eq_true hen, bit_eq_true hauto, hoff])

theorem execBusOffRecovery_of_on (hon : s.fld (A.netCstate c.val) F.netCstate_state ≠ 2) :
    execBusOffRecovery c s = .next s :=
  next_of_neg (by simp [hon])

end Ports

/-! ## Frames received on a C port (R507, R511, R512) -/

section CanFrames

variable {s : State} {c : CanPort} {id : BitVec 29} {data : List Byte}

/-- Whether the frame of an identifier is for this node or every node, from a sender that has an address. -/
def canForUs (s : State) (id : BitVec 29) : Prop :=
  (id.toNat / 256 % 256 = s.fld A.netNodeid F.netNodeid_canaddr ∨ id.toNat / 256 % 256 = 0xFF) ∧
    id.toNat % 256 ≠ 0 ∧ id.toNat % 256 ≠ 0xFF

theorem execCanFrameReceive_of_short (hruns : s.canRuns c.val = true) :
    execCanFrameReceive c false id data s = .next (s.canDiscard c.val) :=
  (next_of_true hruns).trans (next_of_pos rfl)

theorem execCanFrameReceive_of_others (hruns : s.canRuns c.val = true) (hother : ¬canForUs s id) :
    execCanFrameReceive c true id data s = .next s :=
  (next_of_true hruns).trans ((next_of_true rfl).trans (next_of_neg hother))

theorem execCanFrameReceive_of_ours (hruns : s.canRuns c.val = true) (hours : canForUs s id) :
    let rx := s.inc (A.netCcnt c.val) F.netCcnt_rx
    execCanFrameReceive c true id data s = .next (
      if !rx.netOn then rx
      else if id.toNat / 2 ^ 17 % 4 = 0 then rx.canElem c.val (id.toNat % 256) data
      else rx.canSegment c.val (id.toNat % 256) (id.toNat / 2 ^ 19 % 128) (id.toNat / 2 ^ 17 % 4)
        (id.toNat / 2 ^ 16 % 2) data) :=
  (next_of_true hruns).trans ((next_of_true rfl).trans (next_of_pos hours))

end CanFrames

/-- Settles O57: each event of ship time and of the ports by the case of its condition. -/
theorem networkTimeAndPorts : Obligations.NetworkTimeAndPorts := by
  refine ⟨fun s p d m utcOk ofs ns rate ident theta => ?_, fun s q c a src et tr body data up low id => ?_⟩
  · intro state same chosen moved shown t synced u used held free
    refine ⟨fun h => next_of_pos h, fun h => next_of_neg (by simp [h]),
      fun h => ⟨next_of_neg (by simp [h]), execPtpSync_of_no_master h⟩, fun h => ?_,
      rfl,
      fun h => (next_of_true rfl).trans (next_of_pos h),
      fun hacquire hlocked => (next_of_true rfl).trans (next_of_neg (by simp [hacquire, hlocked])),
      fun h => next_of_pos h,
      fun h => next_of_neg h,
      fun ms hms => ⟨fun hset hlocked hutc hgate => execRtcShipSet_of_known hset hlocked hutc hgate hms,
        fun hon => execTimeElementTimer_of_known hon hms⟩,
      fun h => next_of_pos (by simp [h]),
      fun h => next_of_neg (by simp [bit_eq_false h])⟩
    have hsync := execPtpSync_of_master (p := p) (ident := ident) (theta := theta) (rate := rate) h
    exact ⟨next_of_pos (by simp [h]),
      fun hunused => hsync.trans (next_of_pos (not_not.1 hunused)),
      fun hused hfresh => hsync.trans ((next_of_neg hused).trans (next_of_pos hfresh)),
      fun hused hfresh hlocked => hsync.trans ((next_of_neg hused).trans
        ((next_of_neg (ne_true_of_eq_false hfresh)).trans (next_of_pos hlocked))),
      fun hused hfresh hlocked => hsync.trans ((next_of_neg hused).trans
        ((next_of_neg (ne_true_of_eq_false hfresh)).trans (next_of_neg hlocked)))⟩
  · intro p k n dst from_ ours rx amp linked off
    exact ⟨fun h => next_of_false (bit_eq_false h),
      fun h => ⟨(next_of_true (bit_eq_true h)).trans (next_of_pos rfl),
        (next_of_true (bit_eq_true h)).trans (next_of_neg Bool.false_ne_true),
        execLinkChange_of_up h low⟩,
      rfl, rfl,
      fun h => next_of_pos (bit_eq_true h),
      fun h => next_of_neg (not_bit h),
      fun h => ⟨next_of_false h, next_of_neg (ne_true_of_eq_false h)⟩,
      fun h => ⟨execCanFrameReceive_of_short h, execCanFrameReceive_of_others h,
        fun hours hoff => (execCanFrameReceive_of_ours h hours).trans (next_of_false hoff),
        fun hours hon hwhole => (execCanFrameReceive_of_ours h hours).trans
          ((next_of_true hon).trans (next_of_pos hwhole)),
        fun hours hon hpart => (execCanFrameReceive_of_ours h hours).trans
          ((next_of_true hon).trans (next_of_neg hpart)),
        next_of_pos h⟩,
      execBusOffRecovery_of_auto, execBusOffRecovery_of_on,
      rfl, rfl, rfl, rfl, rfl⟩

end Sys2Proof.Proofs
end

section
/-! SUPPORT. The registers of the panel, the network, the lamp room, the update engine, the fault collector and the
supply: what the block of each makes of a write. -/

namespace Sys2Proof.Proofs

open Sys2Proof.Machine Sys2Proof.Laws

section Commands

variable {s t : State} {m a : Nat} {w : Word} {corr : Bool}

/-! ## The registers, by their rows -/

theorem blockOwn_panel : blockOwn A.pnlWcmd = true ∧ blockOwn A.pnlCtrl = true := by decide +kernel

theorem blockOwn_netPcfg : ∀ p : EthPort, blockOwn (A.netPcfg p) = true := by decide +kernel

theorem blockOwn_netMdio : blockOwn A.netMdio = true := by decide +kernel

theorem blockOwn_netAcfg : ∀ i : Assoc, blockOwn (A.netAcfg i) = true := by decide +kernel

theorem blockOwn_lampRoom : blockOwn A.mgsCtrl = true ∧ blockOwn A.mgsWdog = true ∧ blockOwn A.mgsWqpop = true ∧
    blockOwn A.mgsCfgjCmd = true := by decide +kernel

theorem blockOwn_update : blockOwn A.updCmd = true ∧ blockOwn A.updData = true ∧ blockOwn A.updKeycmd = true := by
  decide +kernel

theorem blockOwn_faultsAndSupply : blockOwn A.fltSafe = true ∧ blockOwn A.fltCtrl = true ∧
    blockOwn A.supRst = true := by decide +kernel

/-! ## The panel (R475, R488) -/

theorem blockWritten_pnlWcmd_commit : s.blockWritten m A.pnlWcmd 1 corr = s.waveCommitted := rfl

/-- A table that the checks pass waits for a tick without a running waveform. -/
theorem waveCommitted_of_ok (h : s.wavesOk = true) : s.waveCommitted = { s with pnl := { s.pnl with
    table := some ⟨(List.range 88).map fun i => s.reg (A.pnlWave (i / 4) (i % 4)),
      s.fld A.pnlWstg F.pnlWstg_wver⟩ } } :=
  if_pos h

theorem waveCommitted_of_rejected (h : s.wavesOk = false) :
    s.waveCommitted = s.event A.pnlStatus F.pnlStatus_wavereject :=
  if_neg (ne_true_of_eq_false h)

theorem blockWritten_pnlCtrl : s.blockWritten m A.pnlCtrl w corr =
    (s.storeReg m A.pnlCtrl w).panelCtrlWritten (s.fld A.pnlCtrl F.pnlCtrl_mode) := rfl

/-! ## The network (R499, R528, R529) -/

theorem blockWritten_net (hlo : 0x00500000 ≤ a) (hhi : a < 0x00600000) :
    s.blockWritten m a w corr = s.netWritten m a w := by
  unfold State.blockWritten A.evrSwtrig A.evrClear A.muxTopt A.seqCtrl A.tlyCtrl
  iterate 17 rw [if_neg (by omega)]
  rw [if_pos ⟨hlo, hhi⟩]

theorem blockWritten_netPcfg (p : EthPort) : s.blockWritten m (A.netPcfg p) w corr =
    (s.storeReg m (A.netPcfg p) w).pcfgWritten p := by
  have hp := p.isLt
  have hassoc : ¬(A.netAcfg 0 ≤ A.netPcfg p ∧ A.netPcfg p < A.netAcfg 64 ∧ A.netPcfg p % 0x10 = 0) := by
    unfold A.netAcfg A.netPcfg; omega
  have hident : ¬(A.netPcfg p = A.netNodeid ∨ A.netPcfg p = A.netMacLo ∨ A.netPcfg p = A.netMacHi) := by
    unfold A.netPcfg A.netNodeid A.netMacLo A.netMacHi; omega
  have hport : A.netPcfg 0 ≤ A.netPcfg p ∧ A.netPcfg p < A.netPcfg 2 ∧ A.netPcfg p % 0x10 = 0 := by
    unfold A.netPcfg; omega
  have hidx : (A.netPcfg p - A.netPcfg 0) / 0x10 = p := by unfold A.netPcfg; omega
  rw [blockWritten_net (by unfold A.netPcfg; omega) (by unfold A.netPcfg; omega), State.netWritten, if_neg hassoc,
    if_neg hident, if_pos hport, hidx]

theorem blockWritten_netMdio : s.blockWritten m A.netMdio w corr = (s.storeReg m A.netMdio w).mdioRuns w := rfl

theorem blockWritten_netAcfg (i : Assoc) : s.blockWritten m (A.netAcfg i) w corr = s.acfgWrite i w := by
  have hi := i.isLt
  have hassoc : A.netAcfg 0 ≤ A.netAcfg i ∧ A.netAcfg i < A.netAcfg 64 ∧ A.netAcfg i % 0x10 = 0 := by
    unfold A.netAcfg; omega
  have hidx : (A.netAcfg i - A.netAcfg 0) / 0x10 = i := by unfold A.netAcfg; omega
  rw [blockWritten_net (by unfold A.netAcfg; omega) (by unfold A.netAcfg; omega), State.netWritten, if_pos hassoc, hidx]

/-! ## The lamp room (R532, R533, R535, R537) -/

theorem blockWritten_mgsCtrl : s.blockWritten m A.mgsCtrl w corr = (s.storeReg m A.mgsCtrl w).readyWritten := rfl

theorem blockWritten_mgsWdog : s.blockWritten m A.mgsWdog w corr = s.wdogWritten w := rfl

theorem wdogWritten_of_key : s.wdogWritten 0x00006C72 = { s with mgs := { s.mgs with wdogAt := s.tbc } } := if_pos rfl

/-- Any other key is counted, and kicks nothing. -/
theorem wdogWritten_of_wrong (h : w ≠ 0x00006C72) : s.wdogWritten w = s.satInc A.mgsResets F.mgsResets_badkey :=
  if_neg h

theorem blockWritten_mgsWqpop : s.blockWritten m A.mgsWqpop 1 corr =
    ({ s with mgs := { s.mgs with watch := s.mgs.watch.drop 1 } } : State).showWatch := rfl

theorem blockWritten_mgsCfgjCmd : s.blockWritten m A.mgsCfgjCmd w corr = s.saveWritten w := rfl

/-! ## The update engine (R543, R546, R547, R549) -/

theorem blockWritten_updCmd : s.blockWritten m A.updCmd w corr = s.updCmdWritten m w := rfl

/-- The fields of UPD_CMD's word. -/
theorem updCmd_get {op : Nat} (hop : op < 8) (kind : BitVec 2) :
    F.updCmd_op.get (updCommand op kind) = op ∧ F.updCmd_kind.get (updCommand op kind) = kind.toNat := by
  have hkind := kind.isLt
  simp only [updCommand, Fld.get, F.updCmd_op, F.updCmd_kind, BitVec.toNat_ofNat]
  omega

/-- A command that writes an operation with a kind to UPD_CMD does what the update engine makes of it. -/
theorem writeDoes_of_updCmd {x : Master} {c : Instr} {op : Nat} {kind : BitVec 2}
    (hc : exec c s = s.masterWrite x A.updCmd (updCommand op kind))
    (ht : s.updCmdWritten x.id (updCommand op kind) = t) :
    writeDoes s x c A.updCmd (BitVec.ofNat 32 (256 * kind.toNat + op)) t := by
  have hword : BitVec.ofNat 32 (256 * kind.toNat + op) = updCommand op kind := by rw [updCommand, Nat.mul_comm]
  rw [hword]
  exact writeDoes_of_block hc blockOwn_update.1 (blockWritten_updCmd.trans ht)

section Operations

variable {kind : BitVec 2} {x : Transfer} {act : Activation}

theorem updCmdWritten_open_of_cause {why : Nat}
    (h : s.openCause kind.toNat (s.reg A.updLen).toNat = some why) :
    s.updCmdWritten m (updCommand 1 kind) = (s.setXfer 7).setFld A.updState F.updState_reason why := by
  obtain ⟨hop, hkind⟩ := updCmd_get (op := 1) (by decide) kind
  simp only [State.updCmdWritten, hop, hkind, h]

theorem updCmdWritten_open_of_none (h : s.openCause kind.toNat (s.reg A.updLen).toNat = none) :
    s.updCmdWritten m (updCommand 1 kind) = s.openXfer kind.toNat (s.reg A.updLen).toNat m none 0 := by
  obtain ⟨hop, hkind⟩ := updCmd_get (op := 1) (by decide) kind
  simp only [State.updCmdWritten, hop, hkind, h]

/-- CLOSE is of the register port's own transfer, none of an association's. -/
theorem updCmdWritten_close (hxfer : s.upd.xfer = some x) (hown : x.assoc = none) :
    s.updCmdWritten m (updCommand 2 kind) = s.closeXfer x := by
  obtain ⟨hop, -⟩ := updCmd_get (op := 2) (by decide) kind
  simp only [State.updCmdWritten, hop, hxfer, hown, Option.isNone_none, if_true]

theorem updCmdWritten_abort (hxfer : s.upd.xfer = some x) (hown : x.assoc = none) :
    s.updCmdWritten m (updCommand 3 kind) = s.endXfer x := by
  obtain ⟨hop, -⟩ := updCmd_get (op := 3) (by decide) kind
  simp only [State.updCmdWritten, hop, hxfer, hown, Option.isNone_none, if_true]

theorem updCmdWritten_activate : s.updCmdWritten m (updCommand 4 kind) = s.activate kind.toNat false := by
  obtain ⟨hop, hkind⟩ := updCmd_get (op := 4) (by decide) kind
  simp only [State.updCmdWritten, hop, hkind]

theorem updCmdWritten_rollback : s.updCmdWritten m (updCommand 5 kind) = s.activate kind.toNat true := by
  obtain ⟨hop, hkind⟩ := updCmd_get (op := 5) (by decide) kind
  simp only [State.updCmdWritten, hop, hkind]

theorem updCmdWritten_confirm_of_idle (h : s.upd.act = none) : s.updCmdWritten m (updCommand 6 kind) = s := by
  obtain ⟨hop, -⟩ := updCmd_get (op := 6) (by decide) kind
  simp only [State.updCmdWritten, hop, h]

/-- CONFIRM posts the record of a management image in its trial, once. -/
theorem updCmdWritten_confirm (h : s.upd.act = some act) (hkind : act.kind = 2) (htrial : 2 < act.step)
    (hposted : act.posted = false) :
    s.updCmdWritten m (updCommand 6 kind) =
      (s.offerAct act.slot (if act.rollback then 3 else 2)).setAct (some { act with posted := true }) := by
  obtain ⟨hop, -⟩ := updCmd_get (op := 6) (by decide) kind
  simp only [State.updCmdWritten, hop, h]
  exact if_pos ⟨hkind, htrial, by simp [hposted]⟩

end Operations

/-- A word for the engine is the next four bytes of the transfer that is open. -/
theorem blockWritten_updData {x : Transfer} (hxfer : s.upd.xfer = some x) :
    s.blockWritten m A.updData w corr = s.xferData x (wordBytes w) := by
  have hwrite : s.blockWritten m A.updData w corr = s.updDataWritten w := rfl
  rw [hwrite, State.updDataWritten, hxfer]

theorem blockWritten_updKeycmd : s.blockWritten m A.updKeycmd 0xF05E corr =
    { s with upd := { s.upd with key := some ((List.range 8).map fun j => s.reg (A.updKeystg j)), keyBusy := true } } :=
  rfl

/-! ## The fault collector (R557, R561, R562, R607) -/

theorem blockWritten_fltSafe : s.blockWritten m A.fltSafe (highKey 0x5AFE) corr = s.safeOff := rfl

theorem blockWritten_fltCtrl_rearmf : s.blockWritten m A.fltCtrl 1 corr =
    (s.setFld A.fltState F.fltState_firstvalid 0).modFlt fun f => { f with firstArmed := true } := rfl

theorem blockWritten_fltCtrl_rearmg : s.blockWritten m A.fltCtrl 2 corr =
    (s.setFld A.fltState F.fltState_gravevalid 0).modFlt fun f => { f with graveArmed := true } := rfl

theorem blockWritten_fltCtrl_unhold : s.blockWritten m A.fltCtrl 4 corr = s.setFld A.fltState F.fltState_resetheld 0 :=
  rfl

/-- A command that is a write of FLT_STATUS is a clearing write of it. -/
theorem writeDoes_of_fltStatus {x : Master} {c : Instr} (hc : exec c s = s.masterWrite x A.fltStatus w)
    (ht : s.clearFlags A.fltStatus w = t) : writeDoes s x c A.fltStatus w t := by
  intro hheld hok
  obtain ⟨r, hrow, hkind⟩ : ∃ r, rowOf A.fltStatus = some r ∧ r.kind = .sq := ⟨_, rfl, rfl⟩
  rw [hc, masterWrite_of_ok hheld (by decide) hok, regWritten_of_sq hrow hkind, ht]

theorem clearFlags_fltStatus : s.clearFlags A.fltStatus w =
    (s.setReg A.fltStatus (sqClear (s.reg A.fltStatus) w)).fltStatusWritten (s.reg A.fltStatus) w := rfl

/-- The condition of R607 by the bytes of the two SEQ fields. -/
theorem degradeEnds_iff {cur : Word} : seqFld.get w = seqFld.get cur ∧ F.fltStatus_degrade.get w = 1 ↔
    w.toNat / 16777216 = cur.toNat / 16777216 ∧ F.fltStatus_degrade.get w = 1 := by
  rw [seqFld_get, seqFld_get]

/-! ## The supply manager (R585) -/

theorem blockWritten_supRst : s.blockWritten m A.supRst w corr = s.rstWritten w := rfl

theorem rstWritten_of_key : s.rstWritten (highKey 0x5253) = s.nodeReset 6 :=
  if_pos (show F.supRst_key.get (highKey 0x5253) = 0x5253 by decide)

end Commands

/-- Settles O38: each command is a write of its register, and its block makes of it what is stated; UPD_CMD by its
operation, FLT_STATUS as a clearing write. -/
theorem panelNetworkUpdateRegisters : Obligations.PanelNetworkUpdateRegisters := by
  obtain ⟨hwcmd, hpanel⟩ := blockOwn_panel
  obtain ⟨hmgs, hwdog, hwqpop, hsave⟩ := blockOwn_lampRoom
  obtain ⟨-, hdata, hkey⟩ := blockOwn_update
  obtain ⟨hsafe, hflt, hrst⟩ := blockOwn_faultsAndSupply
  refine ⟨fun s m port a w n => ?_, fun s m kind w => ?_⟩
  · intro st ready off words
    exact ⟨fun h => writeDoes_of_block rfl hwcmd (blockWritten_pnlWcmd_commit.trans (waveCommitted_of_ok h)),
      fun h => writeDoes_of_block rfl hwcmd (blockWritten_pnlWcmd_commit.trans (waveCommitted_of_rejected h)),
      writeDoes_of_block rfl hpanel blockWritten_pnlCtrl,
      writeDoes_of_block rfl (blockOwn_netPcfg port) (blockWritten_netPcfg port),
      writeDoes_of_block rfl blockOwn_netMdio blockWritten_netMdio,
      writeDoes_of_block rfl (blockOwn_netAcfg a) (blockWritten_netAcfg a),
      writeDoes_of_block rfl hmgs blockWritten_mgsCtrl,
      writeDoes_of_block rfl hwdog (blockWritten_mgsWdog.trans wdogWritten_of_key),
      fun h => writeDoes_of_block rfl hwdog (blockWritten_mgsWdog.trans (wdogWritten_of_wrong h)),
      writeDoes_of_block rfl hwqpop blockWritten_mgsWqpop,
      writeDoes_of_block rfl hsave blockWritten_mgsCfgjCmd⟩
  · intro op len staged
    refine ⟨fun why h => writeDoes_of_updCmd rfl (updCmdWritten_open_of_cause h),
      fun h => writeDoes_of_updCmd rfl (updCmdWritten_open_of_none h),
      fun x hx => ⟨writeDoes_of_block rfl hdata (blockWritten_updData hx),
        fun hown => ⟨writeDoes_of_updCmd (kind := 1) rfl (updCmdWritten_close hx hown),
          writeDoes_of_updCmd (kind := 1) rfl (updCmdWritten_abort hx hown)⟩⟩,
      writeDoes_of_updCmd rfl updCmdWritten_activate,
      writeDoes_of_updCmd rfl updCmdWritten_rollback,
      fun h => writeDoes_of_updCmd (kind := 2) rfl (updCmdWritten_confirm_of_idle h),
      fun act h hkind htrial hposted =>
        writeDoes_of_updCmd (kind := 2) rfl (updCmdWritten_confirm h hkind htrial hposted),
      writeDoes_of_block rfl hkey blockWritten_updKeycmd,
      writeDoes_of_block rfl hsafe blockWritten_fltSafe,
      writeDoes_of_block rfl hflt blockWritten_fltCtrl_rearmf,
      writeDoes_of_block rfl hflt blockWritten_fltCtrl_rearmg,
      writeDoes_of_block rfl hflt blockWritten_fltCtrl_unhold,
      ⟨fun hseq hdegrade => ?_, fun h => ?_⟩,
      writeDoes_of_block rfl hrst (blockWritten_supRst.trans rstWritten_of_key)⟩
    · exact writeDoes_of_fltStatus rfl
        (clearFlags_fltStatus.trans (if_pos (degradeEnds_iff.2 ⟨hseq, hdegrade⟩)))
    · exact writeDoes_of_fltStatus rfl (clearFlags_fltStatus.trans (if_neg (mt degradeEnds_iff.1 h)))

end Sys2Proof.Proofs
end

section
/-! SUPPORT. The status panel (R470 to R493): one equation per case of each of its events. -/

namespace Sys2Proof.Proofs

open Sys2Proof.Machine Sys2Proof.Laws

section Panel

variable {s : State}

/-! ## Refresh ticks (R470 to R488) -/

/-- The driver as a refresh tick finds it: both rails measured, a rail that is out again inside its limits. -/
def railsMeasured (s : State) (vp vn : BitVec 16) : State :=
  let inside (v : Nat) : Bool := decide (14550 ≤ v ∧ v ≤ 15450)
  s.modPanel fun p =>
    { p with vp := vp.toNat, vn := vn.toNat, tickAt := s.tbc, hold0 := p.hold1, hold1 := s.fld A.supHold F.supHold_hold
             railOut := p.railOut && !(inside vp.toNat && inside vn.toNat) }

/-- A tick of the driven phases on `u`, whose targets are taken; `changed` where they changed. The segments are held
where a rail is out or the panel stops. -/
def drivenTick (u : State) (changed : Bool) : State :=
  let tabled := if u.anyRun then u else u.applyTable
  let passed := ((tabled.recoveryTick.coldTick).updateTick changed).passTick
  let driven := if passed.pnl.railOut || passed.pnl.stopping then passed
    else (List.range 56).foldl State.tickSegment passed
  (driven.modPanel fun p => { p with tick := p.tick + 1 }).showPanel

/-- What a refresh tick does, by the phase after the targets are taken. -/
theorem execRefreshTick_eq (s : State) (vp vn : BitVec 16) :
    let x := (railsMeasured s vp vn).takeTargets
    let u := x.1
    execRefreshTick vp vn s = .next (
      if u.panelPhase = 1 then (u.setPhase 2).showPanel
      else if u.panelPhase = 7 ∧ !u.pnl.stopping then (u.setPhase 0).showPanel
      else if u.panelPhase = 0 ∨ u.panelPhase = 2 ∨ u.panelPhase = 7 then u.showPanel
      else drivenTick u x.2) := rfl

section Phases

variable {u : State} {changed : Bool} {vp vn : BitVec 16}

variable (hu : (railsMeasured s vp vn).takeTargets = (u, changed))

include hu

/-- The rails have come up: the clear begins (R488). -/
theorem refreshTick_of_rails_starting (h : u.panelPhase = 1) :
    execRefreshTick vp vn s = .next (u.setPhase 2).showPanel := by
  rw [execRefreshTick_eq, hu]
  exact next_of_pos h

/-- The rails have gone down, without a power failure: the panel is off. -/
theorem refreshTick_of_rails_down (h : u.panelPhase = 7) (hgo : u.pnl.stopping = false) :
    execRefreshTick vp vn s = .next (u.setPhase 0).showPanel := by
  have hstarted : u.panelPhase ≠ 1 := by simp [h]
  rw [execRefreshTick_eq, hu]
  exact (next_of_neg hstarted).trans (next_of_pos ⟨h, by simp [hgo]⟩)

/-- Off, in the clear and after a power failure a tick does no more than measure and take the targets. -/
theorem refreshTick_of_idle
    (h : u.panelPhase = 0 ∨ u.panelPhase = 2 ∨ (u.panelPhase = 7 ∧ u.pnl.stopping = true)) :
    execRefreshTick vp vn s = .next u.showPanel := by
  have hstarted : u.panelPhase ≠ 1 := by omega
  have hdown : ¬(u.panelPhase = 7 ∧ !u.pnl.stopping) := by
    rcases h with h | h | ⟨-, hstop⟩
    · simp [h]
    · simp [h]
    · simp [hstop]
  have hidle : u.panelPhase = 0 ∨ u.panelPhase = 2 ∨ u.panelPhase = 7 := h.imp_right (Or.imp_right And.left)
  rw [execRefreshTick_eq, hu]
  exact (next_of_neg hstarted).trans ((next_of_neg hdown).trans (next_of_pos hidle))

theorem refreshTick_of_driven (hoff : u.panelPhase ≠ 0) (hstarted : u.panelPhase ≠ 1) (hclear : u.panelPhase ≠ 2)
    (hdown : u.panelPhase ≠ 7) : execRefreshTick vp vn s = .next (drivenTick u changed) := by
  rw [execRefreshTick_eq, hu]
  exact (next_of_neg hstarted).trans ((next_of_neg fun h => hdown h.1).trans
    (next_of_neg (not_or.2 ⟨hoff, not_or.2 ⟨hclear, hdown⟩⟩)))

end Phases

/-! ## Temperature (R473, R493) -/

section Sensor

variable {temp : BitVec 16}

/-- An invalid reading: TS_OK is 0, and the driver keeps that it was invalid. -/
def sensorInvalid (s : State) : State :=
  (s.setBit A.pnlTemp F.pnlTemp_tsok false).modPanel fun p => { p with tsFault := true }

theorem execPanelTempRead_of_invalid :
    execPanelTempRead temp false s = .next (
      if s.pnl.tsFault then sensorInvalid s else (sensorInvalid s).panelFault F.pnlStatus_tempfault 67 0) := rfl

end Sensor

/-! ## The end of the clear (R488, R489) -/

/-- The driver's state at the end of the clear: its own memory's where that is valid, else the journal's; UNKNOWN where
the intent was of another table; every ledger that is not 0 to be balanced. -/
def panelRecovering (s : State) : State :=
  let begun := if s.pnl.ramValid then s.setFld A.pnlRecov F.pnlRecov_source 1 else s.panelFromJournal
  begun.checkTable.restoreStress.modPanel fun p =>
    { p with tick := 0, firstDriven := none, ramValid := true, covered := List.replicate 56 none
             segs := p.segs.map fun g =>
               if g.ledger.natAbs < ledgerNear.toNat then g
               else { g with run := some ⟨none, g.level, 0, 0, 0, 0, false, true, true, .none⟩ } }

theorem execPanelClearEnd_eq : execPanelClearEnd s = .next (
    if s.panelPhase = 1 ∨ s.panelPhase = 2 then ((panelRecovering s).setPhase 3).showPanel else s) := rfl

/-! ## Power loss (R491, R492) -/

/-- In power-fail, the panel has stopped or its last waveform has ended. -/
theorem panelDone_iff : s.panelPhase = 6 ∧ (s.pnl.stopping ∨ !s.anyRun) ↔
    s.panelPhase = 6 ∧ (s.pnl.stopping = true ∨ s.anyRun = false) := by
  rw [Bool.not_eq_true']

end Panel

/-- Settles O55: a refresh tick by its phase, each other event by its condition. -/
theorem panelEvents : Obligations.PanelEvents := by
  intro s vp vn temp ok n inside seen u tabled passed driven sensed begun checked recovering ledgers
  have hu : (railsMeasured s vp vn).takeTargets = (u, seen.takeTargets.2) := rfl
  have hdriven := refreshTick_of_driven hu
  refine ⟨refreshTick_of_rails_starting hu, refreshTick_of_rails_down hu, refreshTick_of_idle hu, hdriven,
    rfl, fun hwas hok => ?_, fun hwas hok => ?_,
    fun h => next_of_pos (bit_eq_true h), fun h => next_of_neg (not_bit h),
    fun h => next_of_pos h, fun h => next_of_neg (ne_true_of_eq_false h),
    rfl, rfl,
    fun h => next_of_pos h, fun hstarted hclear => next_of_neg (not_or.2 ⟨hstarted, hclear⟩),
    fun hphase hdone => next_of_pos (panelDone_iff.2 ⟨hphase, hdone⟩),
    fun hphase => next_of_neg fun h => hphase h.1⟩
  · subst hok
    exact execPanelTempRead_of_invalid.trans (next_of_pos hwas)
  · subst hok
    exact execPanelTempRead_of_invalid.trans (next_of_neg (ne_true_of_eq_false hwas))

end Sys2Proof.Proofs
end

section
/-! SUPPORT. The first command of the queue. -/

namespace Sys2Proof.Proofs

/-- Settles O1, by the law of a step whose queue is not empty. -/
theorem stepRunsFrontCommand : Obligations.StepRunsFrontCommand := fun _ _ _ hqueue => Laws.step_cons hqueue

end Sys2Proof.Proofs
end

section
/-! SUPPORT. The timebase at a node reset and at the end of journal recovery (R423, R583, R586): a reset leaves TBC at 0
and not counting, and recovery starts it past every stamp it found. -/

namespace Sys2Proof.Proofs

open Sys2Proof.Machine Sys2Proof.Laws

section Timebase

variable {s t : State} {a c n : Nat} {f : Fld} {w : Word} {b : Bool}

/-! ## A timebase that stands (R583) -/

/-- TBC is 0, and TMB_STATE reads as it does from reset, not counting. -/
def TbcStopped (s : State) : Prop := s.tbc = 0 ∧ s.reg A.tmbState = resetWord A.tmbState

theorem TbcStopped.setReg (h : TbcStopped s) (ha : A.tmbState ≠ a) : TbcStopped (s.setReg a w) :=
  ⟨h.1, (reg_setReg_ne ha).trans h.2⟩

theorem TbcStopped.setFld (h : TbcStopped s) (ha : A.tmbState ≠ a) : TbcStopped (s.setFld a f n) := h.setReg ha

theorem TbcStopped.setBit (h : TbcStopped s) (ha : A.tmbState ≠ a) : TbcStopped (s.setBit a f b) := h.setFld ha

theorem TbcStopped.ite {p : Prop} [Decidable p] (hs : TbcStopped s) (ht : TbcStopped t) :
    TbcStopped (if p then s else t) := by
  split
  · exact hs
  · exact ht

theorem TbcStopped.fld (h : TbcStopped s) : s.fld A.tmbState F.tmbState_tbcrun = 0 := by
  rw [State.fld, h.2]
  decide +kernel

/-- A tick of a timebase that stands does nothing. -/
theorem tick_of_stopped (h : s.fld A.tmbState F.tmbState_tbcrun ≠ 1) : s.tick = s := if_neg (not_bit h)

theorem tick_tbc_of_counting (h : s.fld A.tmbState F.tmbState_tbcrun = 1) : s.tick.tbc = s.tbc + 1 := by
  rw [State.tick, if_pos (bit_eq_true h), State.countSecond]
  split <;> rfl

/-! ## Node reset (R583, R586) -/

/-- A number whose entries are all taken away reads as an unlisted one. -/
theorem sget_filter_of_dropped {α : Type} {d : α} {m : List (Nat × α)} {p : Nat × α → Bool}
    (h : ∀ v, p (a, v) = false) : sget d (m.filter p) a = d := by
  induction m with
  | nil => rfl
  | cons x m ih =>
    obtain ⟨k, v⟩ := x
    rw [List.filter_cons]
    split
    · rename_i hp
      have hne : k ≠ a := by
        rintro rfl
        simp [h v] at hp
      rw [sget, if_neg hne, ih]
    · exact ih

/-- TMB_STATE is none of the registers a reset keeps, whatever its cause. -/
theorem tbcStopped_resetBlocks (s : State) (kept : Bool) : TbcStopped (s.resetBlocks kept) := by
  have hdropped : (resetKept A.tmbState || (kept && supplyKeeps A.tmbState)) = false := by
    cases kept <;> decide
  exact ⟨rfl, sget_filter_of_dropped fun _ => hdropped⟩

theorem tbcStopped_takeKey (h : TbcStopped s) (key : Option (List Word)) : TbcStopped (s.takeKey key) := by
  cases key with
  | none => exact h
  | some ws =>
    refine TbcStopped.setBit ?_ (by decide)
    refine List.foldlRecOn (List.range 8) _ h fun u hu j hj => hu.setReg ?_
    have hlt := List.mem_range.1 hj
    simp only [A.tmbState, A.idKeyhash]
    omega

theorem tbcStopped_keepPanel (h : TbcStopped t) : TbcStopped (s.keepPanel t) := ⟨h.1, h.2⟩

theorem tbcStopped_keepFaults (h : TbcStopped t) : TbcStopped (s.keepFaults t) := by
  have hne : A.tmbState ≠ A.fltState := by decide
  have hne' : A.tmbState ≠ A.fltStatus := by decide
  have hshown := ((h.setBit (f := F.fltState_firstvalid) (b := s.bit A.fltState F.fltState_firstvalid) hne).setBit
    (f := F.fltState_gravevalid) (b := s.bit A.fltState F.fltState_gravevalid) hne).setBit
    (f := F.fltState_resetheld) (b := s.bit A.fltState F.fltState_resetheld) hne
  exact TbcStopped.ite ((hshown.setFld hne').setFld hne') hshown

theorem tbcStopped_nodeReset (s : State) (cause : Nat) : TbcStopped (s.nodeReset cause) := by
  have hsup : A.tmbState ≠ A.supState := by decide
  have hcause : A.tmbState ≠ A.supReset := by decide
  unfold State.nodeReset
  extract_lets kept failing u count blocks keyed faults caused staged supplied carried
  have hblocks : TbcStopped blocks := tbcStopped_resetBlocks u kept
  have hkeyed : TbcStopped keyed := .ite hblocks (tbcStopped_takeKey hblocks _)
  have hfaults : TbcStopped faults := .ite (tbcStopped_keepPanel (tbcStopped_keepFaults hkeyed)) hkeyed
  have hcaused : TbcStopped caused := hfaults.setReg hcause
  have hsupplied : TbcStopped supplied := .ite (((hcaused.setFld hsup).setBit hsup).setBit hsup) hcaused
  have hcarried : TbcStopped carried := hsupplied.setBit hsup
  exact .ite (hcarried.setFld hsup) hcarried

/-! ## 64-bit pairs of registers (R53) -/

theorem pair_setReg_ne (hlo : c ≠ a) (hhi : c + 4 ≠ a) : (s.setReg a w).pair c = s.pair c := by
  rw [State.pair, reg_setReg_ne hlo, reg_setReg_ne hhi, State.pair]

theorem pair_setFld_ne (hlo : c ≠ a) (hhi : c + 4 ≠ a) : (s.setFld a f n).pair c = s.pair c :=
  pair_setReg_ne hlo hhi

theorem pair_event_ne (hlo : c ≠ a) (hhi : c + 4 ≠ a) : (s.event a f).pair c = s.pair c :=
  (pair_setFld_ne hlo hhi).trans (pair_setFld_ne hlo hhi)

theorem pair_modJnl (g : JnlSt → JnlSt) : (s.modJnl g).pair c = s.pair c := rfl

theorem canonical_setPair (h : canonical s = true) : canonical (s.setPair a n) = true :=
  canonical_setReg (canonical_setReg h)

/-- A pair reads what was written to it last. -/
theorem pair_setPair (h : canonical s = true) (hn : n < 2 ^ 64) : (s.setPair a n).pair a = n := by
  have hlow : (s.setPair a n).reg a = BitVec.ofNat 32 n := (reg_setReg_ne (by omega)).trans (reg_setReg h)
  have hhigh : (s.setPair a n).reg (a + 4) = BitVec.ofNat 32 (n / 2 ^ 32) := reg_setReg (canonical_setReg h)
  rw [State.pair, hlow, hhigh, BitVec.toNat_ofNat, BitVec.toNat_ofNat]
  omega

/-! ## The end of recovery (R423, R583) -/

section Recovery

variable {ms seq top : Nat}

theorem canonical_endRecovery (h : canonical s = true) (ms : Nat) : canonical (s.endRecovery ms) = true :=
  (endRecovery_steady s ms ⟨h, rfl, .inl rfl⟩).canon

/-- JNL_MAXSTAMP shows the highest stamp that recovery found. -/
theorem maxstamp_endRecovery (h : canonical s = true) (hfound : s.jnl.found = some (seq, top)) (htop : top < 2 ^ 64) :
    (s.endRecovery ms).pair A.jnlMaxstampLo = top := by
  rw [State.endRecovery, hfound]
  dsimp only
  rw [pair_event_ne (by decide) (by decide), pair_setFld_ne (by decide) (by decide), pair_modJnl,
    pair_setFld_ne (by decide) (by decide), pair_setPair (canonical_setPair h) htop]

/-- The tick at which TBC starts after a highest stamp of `top`: two seconds past its second. -/
def tbcBegin (top : Nat) : Nat := (top / second + 2) * second

theorem tbcBegin_eq (top : Nat) : tbcBegin top = (top / 100000000 + 2) * 100000000 := by rw [tbcBegin, second]

/-- TBC set to tick n: the clock's second moves along with it, and the operating seconds count from it. -/
def tbcSet (s : State) (n : Nat) : State :=
  { s with
    tbc := BitVec.ofNat 64 n
    rtc := { s.rtc with secondAt := s.rtc.secondAt + BitVec.ofNat 64 n }
    mgs := { s.mgs with secondAt := BitVec.ofNat 64 n } }

theorem canonical_tbcSet (h : canonical s = true) (n : Nat) : canonical (tbcSet s n) = true := h

theorem startTbc_eq (h : s.pair A.jnlMaxstampLo = top) : s.startTbc =
    (((tbcSet s (tbcBegin top)).setPair A.tmbStartLo (tbcBegin top)).setBit A.tmbState F.tmbState_tbcrun true).event
      A.tmbStatus F.tmbStatus_tbcstart := by
  rw [← h]
  rfl

theorem startTbc_tbc (h : s.pair A.jnlMaxstampLo = top) : s.startTbc.tbc = BitVec.ofNat 64 (tbcBegin top) := by
  rw [startTbc_eq h]
  rfl

/-- TMB_START shows the tick at which TBC starts. -/
theorem startTbc_start (hcanon : canonical s = true) (h : s.pair A.jnlMaxstampLo = top)
    (hbegin : tbcBegin top < 2 ^ 64) : s.startTbc.pair A.tmbStartLo = tbcBegin top := by
  rw [startTbc_eq h, pair_event_ne (by decide) (by decide), State.setBit, pair_setFld_ne (by decide) (by decide),
    pair_setPair (canonical_tbcSet hcanon _) hbegin]

theorem startTbc_counting (h : canonical s = true) : s.startTbc.fld A.tmbState F.tmbState_tbcrun = 1 := by
  rw [startTbc_eq rfl, State.fld, reg_event_ne (by decide)]
  exact of_decide_eq_true (bit_setBit (canonical_setPair (canonical_tbcSet h _)) ⟨by decide, by decide⟩ true)

theorem execRecoveryDone_of_none (hnone : s.jnl.found = none) (ms boot : BitVec 16) :
    execRecoveryDone ms boot s = .next s := next_of_pos (.inr (.inl (by simp [hnone])))

end Recovery

end Timebase

/-- Settles O7: a reset by what it keeps of TMB_STATE, the start of TBC by the stamp that recovery found. -/
theorem timebaseStart : Obligations.TimebaseStart := by
  intro s cause k inst seq top ms boot hcanon reset begin_ started failing read up told
  have hstopped : TbcStopped reset := tbcStopped_nodeReset s cause
  have hrun := hstopped.fld
  refine ⟨⟨hstopped.1, hrun, tick_of_stopped (by simp [hrun])⟩, ⟨_, rfl, rfl⟩, fun hfound hbegin => ?_,
    fun hnone => execRecoveryDone_of_none hnone ms boot⟩
  have hrecovered := canonical_endRecovery hcanon ms.toNat
  have htop : (s.endRecovery ms.toNat).pair A.jnlMaxstampLo = top :=
    maxstamp_endRecovery hcanon hfound (by omega)
  have hbegin_ : tbcBegin top = begin_ := tbcBegin_eq top
  have htbc : started.tbc = BitVec.ofNat 64 begin_ := by rw [startTbc_tbc htop, hbegin_]
  have hstart : started.pair A.tmbStartLo = begin_ := by
    rw [startTbc_start hrecovered htop (by rwa [hbegin_]), hbegin_]
  have hcounting : started.fld A.tmbState F.tmbState_tbcrun = 1 := startTbc_counting hrecovered
  refine ⟨htbc, hstart, hcounting, ?_, fun hphase hheld => next_of_neg ?_⟩
  · rw [tick_tbc_of_counting hcounting, htbc]
  · simp [hphase, hfound, hheld]

end Sys2Proof.Proofs
end

section
/-! SUPPORT. Received elements and image transfers of the SNX exchange (R515 to R527): one equation per case. -/

namespace Sys2Proof.Proofs

open Sys2Proof.Machine

section Elements

variable {s : State} {a : Assoc} {e : RxElem} {i : Instr} {typ least : Nat}

/-! ## Elements taken and discarded (R515, R517) -/

/-- The state once a received element is taken from those that wait. -/
def withoutRx (s : State) (e : RxElem) : State := { s with net := { s.net with rx := s.net.rx.erase e } }

theorem firstRx_of_some (h : (s.net.rx.find? fun e => e.assoc == a.val && e.typ == typ) = some e) :
    s.firstRx a.val typ = some (e, withoutRx s e) := by
  rw [State.firstRx, h]
  rfl

theorem firstRx_of_none (h : (s.net.rx.find? fun e => e.assoc == a.val && e.typ == typ) = none) :
    s.firstRx a.val typ = none := by
  rw [State.firstRx, h]

/-- A command that is the arrival of an element acts as its effect, in whatever words that is stated. -/
theorem elemDoes_of_onElem {f g : State → RxElem → State} (hexec : exec i s = .next (s.onElem a.val typ least f))
    (hfg : ∀ t e, f t e = g t e) : elemDoes s a i typ least g := by
  refine ⟨fun e he => ?_, fun hnone => ?_⟩
  · have hon : s.onElem a.val typ least f =
        if (withoutRx s e).elemTaken e least then f (withoutRx s e) e else (withoutRx s e).skip := by
      rw [State.onElem, firstRx_of_some he]
    rw [hexec, hon]
    exact ⟨fun htaken => (next_of_pos htaken).trans (congrArg _ (hfg _ _)),
      fun hnot => next_of_neg (ne_true_of_eq_false hnot)⟩
  · rw [hexec, State.onElem, firstRx_of_none hnone]

/-! ## Elements told to the lanes (R518, R524) -/

/-- A record of the association's ring where LANES is 1. -/
theorem deliver_eq (t : State) (e : RxElem) (v : TWord) (aux : Nat) (pay : List (BitVec 64)) :
    t.deliver e v aux pay = if t.fld (A.netAcfg e.assoc) F.netAcfg_lanes = 1 then
      t.send ⟨t.assocRing e.assoc, e.typ, e.assoc, v, aux, e.stamp, pay, 9, false, false⟩
    else t.satInc A.netCnt F.netCnt_skipped := by
  simp only [State.deliver, State.bit, decide_eq_true_eq]
  rfl

/-! ## HELLO (R515) -/

/-- A HELLO in form has eight bytes. -/
theorem bodyOk_hello_iff (htyp : e.typ = 1) {ver : Nat} : bodyOk e ver = true ↔ e.body.length = 8 := by
  rw [bodyOk, htyp]
  exact decide_eq_true_iff

theorem execHello_of_some (hrx : (s.net.rx.find? fun e => e.assoc == a.val && e.typ == 1) = some e) :
    execHello a s = .next (
      if !(withoutRx s e).assocOn a.val then withoutRx s e
      else if bodyOk e 1 then (withoutRx s e).takeHello a.val e else (withoutRx s e).skip) := by
  rw [execHello, firstRx_of_some hrx]

theorem execHello_of_none (h : (s.net.rx.find? fun e => e.assoc == a.val && e.typ == 1) = none) :
    execHello a s = .next s := by
  rw [execHello, firstRx_of_none h]

end Elements

/-! ## Image transfers by elements (R527) -/

section Transfers

variable {s : State} {x : Transfer} {e : RxElem} {why detail : Nat}

theorem xferOf_eq (t : State) (e : RxElem) : t.xferOf e =
    t.upd.xfer.bind fun x => if x.assoc = some e.assoc ∧ x.number = e.subj then some x else none := by
  rw [State.xferOf]
  cases t.upd.xfer <;> rfl

/-! ## Events of a transfer (R527, R543, R544) -/

theorem transfer_events_of_none (hnone : s.upd.xfer = none) :
    execImgTimeout s = .next s ∧ execSlotEraseDone s = .next s ∧ execVerificationDone s = .next s := by
  simp only [execImgTimeout, execSlotEraseDone, execVerificationDone, hnone, and_self]

/-- The engine once the transfer's image is verified: no transfer is open. -/
def xferOver (s : State) : State := s.modUpd fun u => { u with xfer := none }

section Open

variable (hx : s.upd.xfer = some x)
include hx

theorem execImgTimeout_of_some : execImgTimeout s = .next (if x.assoc.isSome then s.endXfer x else s) := by
  rw [execImgTimeout, hx]

theorem execSlotEraseDone_of_some : execSlotEraseDone s = .next (
    if x.phase = 1 then ((((slotSegs x.slot).foldl State.eraseSegment s).modUpd
      fun u => { u with xfer := some { x with phase := 2 } }).setXfer 2).tellXfer x 2 0
    else s) := by
  rw [execSlotEraseDone, hx]

theorem execVerificationDone_of_other (hphase : x.phase ≠ 3) : execVerificationDone s = .next s := by
  rw [execVerificationDone, hx]
  exact next_of_pos hphase

theorem execVerificationDone_of_good (hphase : x.phase = 3)
    (hgood : (xferOver s).verifyImage x.kind (s.slotBytes x.slot x.length) = none) :
    execVerificationDone s = .next (((((xferOver s).showImage x.slot (s.slotBytes x.slot x.length)).setXfer 4).event
      A.updStatus F.updStatus_xferdone).tellXfer x 3 0) := by
  rw [execVerificationDone, hx]
  dsimp only
  rw [if_neg (not_not.2 hphase), ← xferOver, hgood]

theorem execVerificationDone_of_bad (hphase : x.phase = 3)
    (hbad : (xferOver s).verifyImage x.kind (s.slotBytes x.slot x.length) = some (why, detail)) :
    let bad := (((xferOver s).setSlot x.slot 3).setXfer 5).setFld A.updState F.updState_reason why
    execVerificationDone s = .next (((bad.setReg A.updDetail (BitVec.ofNat 32 detail)).event A.updStatus
      F.updStatus_rejected).tellXfer x 4 why) := by
  rw [execVerificationDone, hx]
  dsimp only
  rw [if_neg (not_not.2 hphase), ← xferOver, hbad]

end Open

end Transfers

/-- Settles O56: each element by the same effect on the state without it, each event of a transfer by its phase. -/
theorem receivedElements : Obligations.ReceivedElements := by
  refine ⟨fun s a e => ?_, fun s a x why detail => ?_⟩
  · intro told good old ranges word words
    refine ⟨elemDoes_of_onElem rfl fun t e => ?_, elemDoes_of_onElem rfl fun t e => deliver_eq t e _ _ _,
      elemDoes_of_onElem rfl fun t e => deliver_eq t e _ _ _, elemDoes_of_onElem rfl fun t e => deliver_eq t e _ _ _,
      elemDoes_of_onElem rfl fun t e => rfl, elemDoes_of_onElem rfl fun t e => rfl,
      elemDoes_of_onElem rfl fun t e => rfl, fun hrx => ?_, execHello_of_none⟩
    · simp only [told, old, deliver_eq, decide_eq_true_eq]
      rfl
    · intro t
      have hhello := execHello_of_some hrx
      exact ⟨fun hon hlen htyp => hhello.trans
          ((next_of_true hon).trans (next_of_pos ((bodyOk_hello_iff htyp).2 hlen))),
        fun hon hlen htyp => hhello.trans
          ((next_of_true hon).trans (next_of_neg (mt (bodyOk_hello_iff htyp).1 hlen))),
        fun hoff => hhello.trans (next_of_false hoff)⟩
  · intro mine fits bytes ended bad
    have hmine (t : State) (e : RxElem) : mine t e = t.xferOf e := (xferOf_eq t e).symm
    have hfourth (n : Nat) : (n + 1) % 4 = 0 ↔ n % 4 = 3 := by omega
    have hdata (d : List Byte) : (!d.isEmpty) = true ↔ 0 < d.length := by cases d <;> simp
    refine ⟨elemDoes_of_onElem rfl fun t e => rfl, elemDoes_of_onElem rfl fun t e => ?_,
      elemDoes_of_onElem rfl fun t e => ?_, transfer_events_of_none,
      fun hx => ⟨fun hassoc => (execImgTimeout_of_some hx).trans (next_of_pos hassoc),
        fun hassoc => (execImgTimeout_of_some hx).trans (next_of_neg (by simp [hassoc])),
        fun hphase => (execSlotEraseDone_of_some hx).trans (next_of_pos hphase),
        fun hphase => (execSlotEraseDone_of_some hx).trans (next_of_neg hphase),
        execVerificationDone_of_good hx, execVerificationDone_of_bad hx, execVerificationDone_of_other hx⟩⟩
    · rw [hmine]
      cases t.xferOf e with
      | none => rfl
      | some x => simp only [fits, hfourth, hdata, decide_eq_true_eq]
    · rw [hmine]
      cases t.xferOf e with
      | none => rfl
      | some x =>
        dsimp only
        split
        next hclose => rw [if_pos hclose]
        next hend => rw [if_neg (by omega), if_pos hend]
        next hclose hend => rw [if_neg hclose, if_neg hend]

end Sys2Proof.Proofs
end

section
/-! SUPPORT. The lamp room and the steps of an activation (R532 to R549): one equation per case of each event. -/

namespace Sys2Proof.Proofs

open Sys2Proof.Machine

section LampRoom

variable {s : State}

/-! ## READY and the watchdog (R532, R533) -/

theorem readyMissing_iff :
    (s.mgs.holding && !s.bit A.mgsCtrl F.mgsCtrl_ready && s.bit A.tmbState F.tmbState_tbcrun) = true ↔
      s.mgs.holding = true ∧ s.fld A.mgsCtrl F.mgsCtrl_ready ≠ 1 ∧ s.fld A.tmbState F.tmbState_tbcrun = 1 := by
  simp [State.bit, and_assoc]

/-- The watchdog's time has passed, WDT × 10 ms since it began or was last restarted. -/
theorem execWatchdogExpiry_of_due (hrun : s.mgs.running = true)
    (hdue : s.mgs.wdogAt.toNat + s.fld A.mgsCtrl F.mgsCtrl_wdt * 1000000 ≤ s.tbc.toNat) : execWatchdogExpiry s =
    .next (((s.event A.mgsStatus F.mgsStatus_wdog).report 14 0).lampRoomReset false) :=
  next_of_pos (by rw [hrun, decide_eq_true hdue, Bool.and_true])

theorem execWatchdogExpiry_of_not_due (h : s.mgs.running = false ∨
    ¬s.mgs.wdogAt.toNat + s.fld A.mgsCtrl F.mgsCtrl_wdt * 1000000 ≤ s.tbc.toNat) :
    execWatchdogExpiry s = .next s := by
  refine next_of_neg fun hboth => ?_
  obtain ⟨hrun, hdue⟩ := (Bool.and_eq_true _ _).mp hboth
  exact h.elim (ne_false_of_eq_true hrun) fun hnot => hnot (of_decide_eq_true hdue)

/-! ## The node record (R540) -/

theorem execNodeRecord_of_loaded (hrun : s.mgs.running = true) (hloaded : s.mgs.nodeLoaded = true) :
    execNodeRecord s = .next (if s.mgs.nodeAt + 360 ≤ s.pair A.mgsOpsecsLo then s.postNode else s) :=
  (next_of_true hrun).trans (next_of_pos hloaded)

theorem execNodeRecord_of_first (hrun : s.mgs.running = true) (hfirst : s.mgs.nodeLoaded = false) :
    let live := s.nodeLive
    let counted := (s.setPair A.mgsOpsecsLo (live.1 % 2 ^ 48)).setReg A.mgsCycles (BitVec.ofNat 32 (live.2 + 1))
    execNodeRecord s = .next (counted.modMgs fun m => { m with nodeLoaded := true }).postNode :=
  (next_of_true hrun).trans (next_of_neg (ne_true_of_eq_false hfirst))

end LampRoom

section Activations

variable {s : State} {a : Activation} {k : Nat} {im : Image}

/-! ## No activation -/

theorem activation_events_of_none (hact : s.upd.act = none) :
    execActivationLanesStopped s = .next s ∧ execTrialExpiry s = .next s := by
  simp only [execActivationLanesStopped, execTrialExpiry, hact, and_self]

/-! ## Step 3: the lanes stop (R548) -/

/-- The lanes that are not retired read stopped. -/
def lanesToStopped (s : State) : State :=
  (List.range 3).foldl (fun s l => if s.fld (A.lnState l) F.lnState_lane = 3 then s else s.setLaneState l 0) s

theorem execActivationLanesStopped_of_step (hact : s.upd.act = some a) (hkind : a.kind = 1) (hstep : a.step = 3)
    (hstopped : s.lanesStopped = true) :
    execActivationLanesStopped s = .next ((lanesToStopped s).setAct (some { a with step := 4 })) := by
  rw [execActivationLanesStopped, hact]
  exact next_of_pos ⟨hkind, hstep, hstopped⟩

/-! ## Step 4: the code is loaded (R548) -/

theorem execCodeLoadDone_of_step (hact : s.upd.act = some a) (hkind : a.kind = 1) (hstep : a.step = 4)
    (him : s.nextImage = some im) (agree : Bool) : execCodeLoadDone agree s = .next (
      if agree then (s.loadCode im).lanesStage.setAct (some { a with step := 5 }) else s.fallBack a) := by
  rw [execCodeLoadDone, hact, him]
  exact next_of_pos ⟨hkind, hstep⟩

/-- The update engine once a start's load is given up. -/
def loadDropped (s : State) : State := s.modUpd fun u => { u with load := none }

theorem execCodeLoadDone_of_start (hact : s.upd.act = none) (hload : s.upd.load = some k) (him : s.nextImage = some im)
    (agree : Bool) : execCodeLoadDone agree s = .next (
      if agree then (s.loadCode im).lanesStage
      else (loadDropped s).fallBack ⟨1, k, false, 4, false, false, false⟩) := by
  rw [execCodeLoadDone, hact, hload, him]
  rfl

theorem execCodeLoadDone_of_none (hact : s.upd.act = none) (hload : s.upd.load = none) (agree : Bool) :
    execCodeLoadDone agree s = .next s := by
  rw [execCodeLoadDone, hact, hload]

/-! ## Step 5: keep memory is written (R548) -/

theorem execKeepWriteDone_of_step (hact : s.upd.act = some a) (hkind : a.kind = 1) (hstep : a.step = 5) (ok : Bool) :
    execKeepWriteDone ok s = .next (if ok then s.noteRestore.writeKeep.closeAct a else s.fallBack a) := by
  rw [execKeepWriteDone, hact]
  exact next_of_pos ⟨hkind, hstep⟩

section Start

variable (hact : s.upd.act = none) (hidle : s.frame.running = false)
include hact hidle

theorem execKeepWriteDone_of_unloaded (hload : s.upd.load = none) (ok : Bool) :
    execKeepWriteDone ok s = .next s.noteRestore := by
  rw [execKeepWriteDone, hact, hload]
  exact next_of_neg (ne_true_of_eq_false hidle)

theorem execKeepWriteDone_of_start (hload : s.upd.load = some k) (him : s.image.isSome = true) (ok : Bool) :
    execKeepWriteDone ok s = .next (
      if ok then s.noteRestore.writeKeep.modUpd fun u => { u with load := none }
      else (loadDropped s).fallBack ⟨1, k, false, 5, false, false, false⟩) := by
  have hloaded : ¬s.image.isNone = true := fun h => Option.isSome_iff_ne_none.1 him (Option.isNone_iff_eq_none.1 h)
  rw [execKeepWriteDone, hact, hload]
  exact (next_of_neg (ne_true_of_eq_false hidle)).trans (next_of_neg hloaded)

end Start

/-! ## The trial of the lamp room's image (R549) -/

theorem execTrialExpiry_of_some (hact : s.upd.act = some a) : execTrialExpiry s = .next (
    if a.kind = 2 ∧ 2 < a.step ∧ ¬a.posted then s.lampRoomReset false else s) := by
  rw [execTrialExpiry, hact]

end Activations

/-- Settles O58: each event by the case of its condition, an activation's by its step. -/
theorem lampRoomAndActivation : Obligations.LampRoomAndActivation := by
  refine ⟨fun s temps tsw vmon vfld ifld => ?_, fun s a k im ok => ?_⟩
  · intro due late died switched railed shown live counted
    refine ⟨fun h => next_of_pos (readyMissing_iff.2 h), fun h => next_of_neg (mt readyMissing_iff.1 h),
      execWatchdogExpiry_of_due, execWatchdogExpiry_of_not_due,
      rfl, fun h => next_of_pos (bit_eq_true h), fun h => next_of_neg (not_bit h), fun h => next_of_false h,
      fun hrun hloaded => ⟨fun hdue => (execNodeRecord_of_loaded hrun hloaded).trans (next_of_pos hdue),
        fun hearly => (execNodeRecord_of_loaded hrun hloaded).trans (next_of_neg (Nat.not_le.2 hearly))⟩,
      execNodeRecord_of_first⟩
  · intro stopped dropped lanes
    refine ⟨execActivationLanesStopped_of_step, activation_events_of_none,
      fun hact hkind hstep him => ⟨(execCodeLoadDone_of_step hact hkind hstep him true).trans (next_of_pos rfl),
        (execCodeLoadDone_of_step hact hkind hstep him false).trans (next_of_neg Bool.false_ne_true)⟩,
      fun hact hload him => ⟨(execCodeLoadDone_of_start hact hload him true).trans (next_of_pos rfl),
        (execCodeLoadDone_of_start hact hload him false).trans (next_of_neg Bool.false_ne_true)⟩,
      fun hact hload => execCodeLoadDone_of_none hact hload ok,
      fun hact hkind hstep => ⟨(execKeepWriteDone_of_step hact hkind hstep true).trans (next_of_pos rfl),
        (execKeepWriteDone_of_step hact hkind hstep false).trans (next_of_neg Bool.false_ne_true)⟩,
      fun hact hidle hload => execKeepWriteDone_of_unloaded hact hidle hload ok,
      fun hact hidle hload him => ⟨(execKeepWriteDone_of_start hact hidle hload him true).trans (next_of_pos rfl),
        (execKeepWriteDone_of_start hact hidle hload him false).trans (next_of_neg Bool.false_ne_true)⟩,
      fun hact hkind hstep hposted => (execTrialExpiry_of_some hact).trans
        (next_of_pos ⟨hkind, hstep, ne_true_of_eq_false hposted⟩),
      fun hact hkind => (execTrialExpiry_of_some hact).trans (next_of_neg fun h => hkind h.1),
      fun hbusy => next_of_pos hbusy, fun hfree => next_of_neg (ne_true_of_eq_false hfree)⟩

end Sys2Proof.Proofs
end
